-- ==== Sys2Proof/Word.lean ====
section
/-! DEFINITION. The words of the machine, their plainest arithmetic (R5, R6), and the codes that fields of words hold. -/

namespace Sys2Proof

/-- A double word, the width of a general register and of a queue entry (R6, R79, R86). -/
abbrev Word := BitVec 64

/-- An instruction word (R164). -/
abbrev Word32 := BitVec 32

/-- A byte (R6). -/
abbrev Byte := BitVec 8

/-- NAME[hi:lo] of R6, as a number. -/
def fld (hi lo : Nat) (w : Nat) : Nat := w / 2 ^ lo % 2 ^ (hi + 1 - lo)

/-- NAME[n] of R6. -/
def bitAt (n : Nat) (w : Nat) : Bool := w / 2 ^ n % 2 == 1

/-- The element types of R28, in code order. -/
inductive ElemType where
  | f32 | bf16 | f16 | e4m3 | e5m2 | i8 | i16 | i32 | i64 | n8 | n16 | n32 | n64 | mx4 | mx6 | mx8
  deriving DecidableEq, Repr

/-- The rounding modes of R36, in code order. -/
inductive Rounding where
  | rne | rz | rd | ru
  deriving DecidableEq, Repr

/-- The aperture windows of R55, in code order. -/
inductive Window where
  | local | column | die | package
  deriving DecidableEq, Repr

/-- The contexts of a control core, in the code order of R15 and R81. -/
inductive Ctx where
  | ld | cm | st
  deriving DecidableEq, Repr

/-- A predicate number (R164). -/
abbrev Pred := Fin 16

end Sys2Proof
end

