-- ==== Sys2Proof/Syntax.lean ====
section
/-! DEFINITION. The instructions: one constructor for every row of the opcode table. The words of the eight
engines and of the transform sequencer carry their operand fields (R164 to R169, R262). The rows that are steps of the
package's units carry none here: what a unit, or the world outside, brings to its step stands in the machine's state
(Machine/Event.lean). -/

namespace Sys2Proof

/-- The instructions of the machine, one constructor for each row of the opcode table. -/
inductive Instr where
  /-- TRAILER_WORD (R97): Last word of an image giving the queue mask that the task boundary waits for; a context that issues it raises 0x0104. -/
  | trailerWord (m : BitVec 12)
  /-- NOP (R202): Changes nothing but PC. -/
  | nop (p : Pred)
  /-- ADD (R183): Adds two general registers modulo 2^64. -/
  | add (p : Pred) (d : Fin 32) (a : Fin 32) (b : Fin 32)
  /-- SUB (R183): Subtracts two general registers modulo 2^64. -/
  | sub (p : Pred) (d : Fin 32) (a : Fin 32) (b : Fin 32)
  /-- MUL (R183): Low 64 bits of the product, latency 4. -/
  | mul (p : Pred) (d : Fin 32) (a : Fin 32) (b : Fin 32)
  /-- MULH (R183): High 64 bits of the signed or unsigned 128-bit product. -/
  | mulh (p : Pred) (d : Fin 32) (a : Fin 32) (b : Fin 32) (u : Bool)
  /-- DIV (R184): Truncating signed or unsigned quotient, latency 20, defined for every operand pair. -/
  | div (p : Pred) (d : Fin 32) (a : Fin 32) (b : Fin 32) (u : Bool)
  /-- REM (R184): Remainder with the sign of the dividend, latency 20. -/
  | rem (p : Pred) (d : Fin 32) (a : Fin 32) (b : Fin 32) (u : Bool)
  /-- AND (R183): Bitwise and of two registers. -/
  | and (p : Pred) (d : Fin 32) (a : Fin 32) (b : Fin 32)
  /-- OR (R183): Bitwise or of two registers. -/
  | or (p : Pred) (d : Fin 32) (a : Fin 32) (b : Fin 32)
  /-- XOR (R183): Bitwise exclusive or of two registers. -/
  | xor (p : Pred) (d : Fin 32) (a : Fin 32) (b : Fin 32)
  /-- ANDN (R183): First operand and not the second. -/
  | andn (p : Pred) (d : Fin 32) (a : Fin 32) (b : Fin 32)
  /-- SHL (R183): Left shift by the low six bits of the second register. -/
  | shl (p : Pred) (d : Fin 32) (a : Fin 32) (b : Fin 32)
  /-- SHR (R183): Logical right shift. -/
  | shr (p : Pred) (d : Fin 32) (a : Fin 32) (b : Fin 32)
  /-- SRA (R183): Arithmetic right shift. -/
  | sra (p : Pred) (d : Fin 32) (a : Fin 32) (b : Fin 32)
  /-- MIN (R183): Smaller operand, signed or unsigned. -/
  | min (p : Pred) (d : Fin 32) (a : Fin 32) (b : Fin 32) (u : Bool)
  /-- MAX (R183): Larger operand, signed or unsigned. -/
  | max (p : Pred) (d : Fin 32) (a : Fin 32) (b : Fin 32) (u : Bool)
  /-- SEL (R183): Selects one of two registers by a predicate. -/
  | sel (p : Pred) (d : Fin 32) (a : Fin 32) (b : Fin 32) (c : Fin 16)
  /-- ADDI (R185): Adds a signed nine-bit immediate. -/
  | addi (p : Pred) (d : Fin 32) (a : Fin 32) (i : BitVec 9)
  /-- ANDI (R185): And with a sign-extended immediate. -/
  | andi (p : Pred) (d : Fin 32) (a : Fin 32) (i : BitVec 9)
  /-- ORI (R185): Or with a sign-extended immediate. -/
  | ori (p : Pred) (d : Fin 32) (a : Fin 32) (i : BitVec 9)
  /-- XORI (R185): Exclusive or with a sign-extended immediate. -/
  | xori (p : Pred) (d : Fin 32) (a : Fin 32) (i : BitVec 9)
  /-- SHLI (R185): Left shift by an immediate count. -/
  | shli (p : Pred) (d : Fin 32) (a : Fin 32) (n : Fin 64)
  /-- SHRI (R185): Logical right shift by an immediate count. -/
  | shri (p : Pred) (d : Fin 32) (a : Fin 32) (n : Fin 64)
  /-- SRAI (R185): Arithmetic right shift by an immediate count. -/
  | srai (p : Pred) (d : Fin 32) (a : Fin 32) (n : Fin 64)
  /-- MULI (R185): Multiplies by a signed immediate, latency 4. -/
  | muli (p : Pred) (d : Fin 32) (a : Fin 32) (i : BitVec 9)
  /-- CMP (R188): Compares two registers under a condition and writes a predicate. -/
  | cmp (p : Pred) (d : Fin 16) (a : Fin 32) (b : Fin 32) (c : Fin 16)
  /-- CMPX (R188): Compares a register with a 32-bit literal from the extension word. -/
  | cmpx (p : Pred) (d : Fin 16) (a : Fin 32) (c : Fin 16) (x : BitVec 32)
  /-- PAND (R189): And of two predicates. -/
  | pand (p : Pred) (d : Fin 16) (a : Fin 16) (b : Fin 16)
  /-- POR (R189): Or of two predicates. -/
  | por (p : Pred) (d : Fin 16) (a : Fin 16) (b : Fin 16)
  /-- PXOR (R189): Exclusive or of two predicates. -/
  | pxor (p : Pred) (d : Fin 16) (a : Fin 16) (b : Fin 16)
  /-- PANDN (R189): First predicate and not the second. -/
  | pandn (p : Pred) (d : Fin 16) (a : Fin 16) (b : Fin 16)
  /-- PSET (R189): Sets a predicate to 0 or 1. -/
  | pset (p : Pred) (d : Fin 16) (b : Bool)
  /-- PRD (R189): Reads all predicates into a register. -/
  | prd (p : Pred) (d : Fin 32)
  /-- PWR (R189): Writes p1 to p15 from a register. -/
  | pwr (p : Pred) (s : Fin 32)
  /-- LI (R187): Loads a signed 14-bit immediate. -/
  | li (p : Pred) (d : Fin 32) (i : BitVec 14)
  /-- LIT (R187): Loads a sign-extended 32-bit literal from the extension word. -/
  | lit (p : Pred) (d : Fin 32) (x : BitVec 32)
  /-- LITH (R187): Sets the high 32 bits of a register from the extension word. -/
  | lith (p : Pred) (d : Fin 32) (x : BitVec 32)
  /-- LD (R190): Loads a double word from a generic address at the layer's latency. -/
  | ld (p : Pred) (d : Fin 32) (a : Fin 32) (i : BitVec 9)
  /-- LDX (R190): Loads 1 to 8 bytes at a register-sum address, extended. -/
  | ldx (p : Pred) (d : Fin 32) (a : Fin 32) (b : Fin 32) (e : Bool) (w : Fin 4)
  /-- ST (R190): Stores a double word, performed at its access point. -/
  | st (p : Pred) (s : Fin 32) (a : Fin 32) (i : BitVec 9)
  /-- STX (R190): Stores 1 to 8 bytes at a register-sum address. -/
  | stx (p : Pred) (s : Fin 32) (a : Fin 32) (b : Fin 32) (e : Bool) (w : Fin 4)
  /-- CVTA (R191): Converts a generic address into the form of another window, or 0. -/
  | cvta (p : Pred) (d : Fin 32) (a : Fin 32) (w : Window)
  /-- ISAP (R191): Tests whether an address is reachable through a window. -/
  | isap (p : Pred) (d : Fin 16) (a : Fin 32) (w : Window)
  /-- BR (R192): Branches to a PC-relative target. -/
  | br (p : Pred) (o : BitVec 19)
  /-- CALL (R192): Branches and writes the return address to g15. -/
  | call (p : Pred) (o : BitVec 19)
  /-- JR (R192): Jumps to the address held in a register. -/
  | jr (p : Pred) (a : Fin 32)
  /-- LOOPB (R193): Closes a pipelined loop under LC and EC with rotation and stage shift. -/
  | loopb (p : Pred) (o : BitVec 19)
  /-- PUSH (R195): Appends a register to a queue register, blocking while full. -/
  | push (p : Pred) (q : Fin 16) (s : Fin 32)
  /-- POP (R195): Removes the head of a queue register into a register, blocking while empty. -/
  | pop (p : Pred) (q : Fin 16) (d : Fin 32)
  /-- PEEK (R195): Reads the head of a queue register without removing it. -/
  | peek (p : Pred) (q : Fin 16) (d : Fin 32)
  /-- QFENCE (R150): Holds the context until its earlier words in the named queues are performed. -/
  | qfence (p : Pred) (m : BitVec 12)
  /-- MFSR (R198): Reads a system register at its scope's access point. -/
  | mfsr (p : Pred) (d : Fin 32) (n : Fin 16384)
  /-- MTSR (R198): Writes a system register at its scope's access point. -/
  | mtsr (p : Pred) (s : Fin 32) (n : Fin 16384)
  /-- URET (R321): Returns from the trap stream and applies the fault action. -/
  | uret (p : Pred)
  /-- SEXT (R186): Sign-extends the low bytes of a register. -/
  | sext (p : Pred) (d : Fin 32) (a : Fin 32) (e : Bool) (w : Fin 4)
  /-- ZEXT (R186): Zero-extends the low bytes of a register. -/
  | zext (p : Pred) (d : Fin 32) (a : Fin 32) (e : Bool) (w : Fin 4)
  /-- CLZ (R186): Counts leading zero bits. -/
  | clz (p : Pred) (d : Fin 32) (a : Fin 32)
  /-- POPC (R186): Counts one bits. -/
  | popc (p : Pred) (d : Fin 32) (a : Fin 32)
  /-- SETLC (R194): Sets LC from a register plus an addend, clamped. -/
  | setlc (p : Pred) (s : Fin 32) (i : BitVec 14)
  /-- SETEC (R194): Sets EC from a register plus an addend, clamped. -/
  | setec (p : Pred) (s : Fin 32) (i : BitVec 14)
  /-- SETROT (R194): Sets ROT from a register plus an addend modulo 16. -/
  | setrot (p : Pred) (s : Fin 32) (i : BitVec 14)
  /-- V_SETA (R210): Loads a vector region register from a queue. -/
  | vSeta (p : Pred) (q : Fin 16) (d : Fin 16)
  /-- V_ADD (R211): Element-wise addition over regions. -/
  | vAdd (p : Pred) (t : ElemType) (r : Rounding) (d : Fin 16) (a : Fin 16) (s : Bool) (b : Fin 16)
  /-- V_SUB (R211): Element-wise subtraction. -/
  | vSub (p : Pred) (t : ElemType) (r : Rounding) (d : Fin 16) (a : Fin 16) (s : Bool) (b : Fin 16)
  /-- V_MUL (R211): Element-wise multiplication. -/
  | vMul (p : Pred) (t : ElemType) (r : Rounding) (d : Fin 16) (a : Fin 16) (s : Bool) (b : Fin 16)
  /-- V_DIV (R211): Element-wise division. -/
  | vDiv (p : Pred) (t : ElemType) (r : Rounding) (d : Fin 16) (a : Fin 16) (s : Bool) (b : Fin 16)
  /-- V_FMA (R211): Element-wise fused multiply-add into D. -/
  | vFma (p : Pred) (t : ElemType) (r : Rounding) (d : Fin 16) (a : Fin 16) (s : Bool) (b : Fin 16)
  /-- V_FMS (R211): Element-wise fused multiply-subtract. -/
  | vFms (p : Pred) (t : ElemType) (r : Rounding) (d : Fin 16) (a : Fin 16) (s : Bool) (b : Fin 16)
  /-- V_FNMA (R211): Element-wise D minus the product. -/
  | vFnma (p : Pred) (t : ElemType) (r : Rounding) (d : Fin 16) (a : Fin 16) (s : Bool) (b : Fin 16)
  /-- V_MIN (R211): Element-wise minimum. -/
  | vMin (p : Pred) (t : ElemType) (r : Rounding) (d : Fin 16) (a : Fin 16) (s : Bool) (b : Fin 16)
  /-- V_MAX (R211): Element-wise maximum. -/
  | vMax (p : Pred) (t : ElemType) (r : Rounding) (d : Fin 16) (a : Fin 16) (s : Bool) (b : Fin 16)
  /-- V_ABS (R211): Element-wise absolute value. -/
  | vAbs (p : Pred) (t : ElemType) (r : Rounding) (d : Fin 16) (a : Fin 16) (s : Bool)
  /-- V_NEG (R211): Element-wise negation. -/
  | vNeg (p : Pred) (t : ElemType) (r : Rounding) (d : Fin 16) (a : Fin 16) (s : Bool)
  /-- V_SQRT (R211): Element-wise square root. -/
  | vSqrt (p : Pred) (t : ElemType) (r : Rounding) (d : Fin 16) (a : Fin 16)
  /-- V_EXP2 (R213): Element-wise base-2 exponential. -/
  | vExp2 (p : Pred) (t : ElemType) (r : Rounding) (d : Fin 16) (a : Fin 16)
  /-- V_LOG2 (R213): Element-wise base-2 logarithm. -/
  | vLog2 (p : Pred) (t : ElemType) (r : Rounding) (d : Fin 16) (a : Fin 16)
  /-- V_RECIP (R213): Element-wise reciprocal. -/
  | vRecip (p : Pred) (t : ElemType) (r : Rounding) (d : Fin 16) (a : Fin 16)
  /-- V_RSQRT (R213): Element-wise reciprocal square root. -/
  | vRsqrt (p : Pred) (t : ElemType) (r : Rounding) (d : Fin 16) (a : Fin 16)
  /-- V_TANH (R213): Element-wise hyperbolic tangent. -/
  | vTanh (p : Pred) (t : ElemType) (r : Rounding) (d : Fin 16) (a : Fin 16)
  /-- V_AND (R211): Element-wise bitwise and. -/
  | vAnd (p : Pred) (t : ElemType) (d : Fin 16) (a : Fin 16) (b : Fin 16)
  /-- V_OR (R211): Element-wise bitwise or. -/
  | vOr (p : Pred) (t : ElemType) (d : Fin 16) (a : Fin 16) (b : Fin 16)
  /-- V_XOR (R211): Element-wise exclusive or. -/
  | vXor (p : Pred) (t : ElemType) (d : Fin 16) (a : Fin 16) (b : Fin 16)
  /-- V_SHL (R211): Element-wise left shift. -/
  | vShl (p : Pred) (t : ElemType) (d : Fin 16) (a : Fin 16) (b : Fin 16)
  /-- V_SHR (R211): Element-wise logical right shift. -/
  | vShr (p : Pred) (t : ElemType) (d : Fin 16) (a : Fin 16) (b : Fin 16)
  /-- V_SRA (R211): Element-wise arithmetic right shift. -/
  | vSra (p : Pred) (t : ElemType) (d : Fin 16) (a : Fin 16) (b : Fin 16)
  /-- V_MULH (R211): Element-wise high half of the product. -/
  | vMulh (p : Pred) (t : ElemType) (d : Fin 16) (a : Fin 16) (b : Fin 16)
  /-- V_CMPEQ (R215): Element-wise equality mask. -/
  | vCmpeq (p : Pred) (t : ElemType) (d : Fin 16) (a : Fin 16) (b : Fin 16)
  /-- V_CMPNE (R215): Element-wise inequality mask. -/
  | vCmpne (p : Pred) (t : ElemType) (d : Fin 16) (a : Fin 16) (b : Fin 16)
  /-- V_CMPLT (R215): Element-wise less-than mask. -/
  | vCmplt (p : Pred) (t : ElemType) (d : Fin 16) (a : Fin 16) (b : Fin 16)
  /-- V_CMPLE (R215): Element-wise less-or-equal mask. -/
  | vCmple (p : Pred) (t : ElemType) (d : Fin 16) (a : Fin 16) (b : Fin 16)
  /-- V_SEL (R215): Element-wise selection by a mask in D. -/
  | vSel (p : Pred) (t : ElemType) (d : Fin 16) (a : Fin 16) (b : Fin 16)
  /-- V_CVT (R216): Converts a region to another type, with MX scales where one side is MX. -/
  | vCvt (p : Pred) (t : ElemType) (r : Rounding) (d : Fin 16) (a : Fin 16) (s : Bool) (b : Fin 16)
  /-- V_RSUM (R217): Tree sum of each micro-step's elements. -/
  | vRsum (p : Pred) (t : ElemType) (r : Rounding) (d : Fin 16) (a : Fin 16) (s : Bool)
  /-- V_RMAX (R217): Tree maximum of each micro-step's elements. -/
  | vRmax (p : Pred) (t : ElemType) (d : Fin 16) (a : Fin 16)
  /-- V_RMIN (R217): Tree minimum of each micro-step's elements. -/
  | vRmin (p : Pred) (t : ElemType) (d : Fin 16) (a : Fin 16)
  /-- V_COPY (R216): Copies region elements unchanged. -/
  | vCopy (p : Pred) (t : ElemType) (d : Fin 16) (a : Fin 16)
  /-- V_FILL (R214): Fills a region with a popped scalar. -/
  | vFill (p : Pred) (q : Fin 16) (d : Fin 16)
  /-- V_IOTA (R214): Writes a popped start value plus the element index. -/
  | vIota (p : Pred) (q : Fin 16) (r : Rounding) (d : Fin 16) (s : Bool)
  /-- V_CLAMP (R214): Clamps elements between two popped bounds. -/
  | vClamp (p : Pred) (q : Fin 16) (d : Fin 16) (a : Fin 16)
  /-- V_ADDQ (R214): Adds a popped scalar to each element. -/
  | vAddq (p : Pred) (q : Fin 16) (r : Rounding) (d : Fin 16) (a : Fin 16) (s : Bool)
  /-- V_MULQ (R214): Multiplies each element by a popped scalar. -/
  | vMulq (p : Pred) (q : Fin 16) (r : Rounding) (d : Fin 16) (a : Fin 16) (s : Bool)
  /-- V_FMAQ (R214): Scaled add of a region by a popped scalar into D. -/
  | vFmaq (p : Pred) (q : Fin 16) (r : Rounding) (d : Fin 16) (a : Fin 16) (s : Bool)
  /-- V_GATHER (R218): Gathers elements of A by an index region. -/
  | vGather (p : Pred) (t : ElemType) (d : Fin 16) (a : Fin 16) (b : Fin 16)
  /-- V_SCATTER (R218): Scatters elements of A into D by an index region. -/
  | vScatter (p : Pred) (t : ElemType) (d : Fin 16) (a : Fin 16) (b : Fin 16)
  /-- V_CNT (R211): Element-wise population count. -/
  | vCnt (p : Pred) (t : ElemType) (d : Fin 16) (a : Fin 16)
  /-- M_SETT (R227): Loads a tile descriptor from a queue. -/
  | mSett (p : Pred) (q : Fin 16) (d : Fin 8)
  /-- M_MMA (R230): Runs one matrix pass with row-major B into the accumulator. -/
  | mMma (p : Pred) (d : Fin 8) (a : Fin 8) (b : Fin 8)
  /-- M_MMAT (R230): Runs one matrix pass with K-major B into the accumulator. -/
  | mMmat (p : Pred) (d : Fin 8) (a : Fin 8) (b : Fin 8)
  /-- M_CLR (R237): Clears a tile to zero. -/
  | mClr (p : Pred) (t : ElemType) (d : Fin 8)
  /-- M_CVT (R237): Converts an FP32 tile to another float type. -/
  | mCvt (p : Pred) (t : ElemType) (d : Fin 8) (a : Fin 8) (s : Bool)
  /-- M_BIAS (R237): Adds a bias row to each accumulator row. -/
  | mBias (p : Pred) (d : Fin 8) (a : Fin 8)
  /-- M_TR (R237): Transposes a tile. -/
  | mTr (p : Pred) (t : ElemType) (d : Fin 8) (a : Fin 8)
  /-- M_SCL (R237): Scales an FP32 tile by a popped scalar. -/
  | mScl (p : Pred) (q : Fin 16) (d : Fin 8)
  /-- M_COPY (R237): Copies a tile's patterns. -/
  | mCopy (p : Pred) (t : ElemType) (d : Fin 8) (a : Fin 8)
  /-- M_DROP (R237): Pops and discards one format word. -/
  | mDrop (p : Pred)
  /-- M_ADD (R237): Adds two FP32 tiles. -/
  | mAdd (p : Pred) (d : Fin 8) (a : Fin 8)
  /-- M_RELU (R237): Replaces negative elements of an FP32 tile by +0. -/
  | mRelu (p : Pred) (d : Fin 8)
  /-- ROW_SETA (R219): Loads a row-engine region register. -/
  | rowSeta (p : Pred) (q : Fin 16) (d : Fin 8)
  /-- ROW_MAX (R221): Writes the maximum of each row. -/
  | rowMax (p : Pred) (q : Fin 16) (d : Fin 8) (a : Fin 8)
  /-- ROW_EXPSUM (R221): Writes exponentials of each row less a given maximum and their sum. -/
  | rowExpsum (p : Pred) (q : Fin 16) (d : Fin 8) (a : Fin 8) (b : Fin 8)
  /-- ROW_SCALE (R221): Scales each row by the reciprocal of a given sum. -/
  | rowScale (p : Pred) (q : Fin 16) (d : Fin 8) (a : Fin 8) (b : Fin 8)
  /-- ROW_SOFT (R221): Row softmax: maximum, exponential sum and scale. -/
  | rowSoft (p : Pred) (q : Fin 16) (d : Fin 8) (a : Fin 8)
  /-- ROW_SUM (R221): Writes the sum of each row. -/
  | rowSum (p : Pred) (q : Fin 16) (d : Fin 8) (a : Fin 8)
  /-- ROW_NORM (R221): Normalises each row by its reciprocal root sum of squares. -/
  | rowNorm (p : Pred) (q : Fin 16) (d : Fin 8) (a : Fin 8)
  /-- ROW_RMS (R221): RMS-normalises each row with per-element gains. -/
  | rowRms (p : Pred) (q : Fin 16) (d : Fin 8) (a : Fin 8) (b : Fin 8)
  /-- SA_SETA (R239): Loads a scatter-accumulate region register. -/
  | saSeta (p : Pred) (q : Fin 16) (d : Fin 8)
  /-- SA_ADD (R240): Sends merged atomic additions to element homes. -/
  | saAdd (p : Pred) (q : Fin 16) (s : Fin 8) (e : Bool) (w : Fin 8) (i : BitVec 3) (v : Fin 8)
  /-- SA_MIN (R240): Sends atomic minimum updates. -/
  | saMin (p : Pred) (q : Fin 16) (s : Fin 8) (e : Bool) (w : Fin 8) (i : BitVec 3) (v : Fin 8)
  /-- SA_MAX (R240): Sends atomic maximum updates. -/
  | saMax (p : Pred) (q : Fin 16) (s : Fin 8) (e : Bool) (w : Fin 8) (i : BitVec 3) (v : Fin 8)
  /-- SA_AND (R240): Sends atomic and updates. -/
  | saAnd (p : Pred) (q : Fin 16) (s : Fin 8) (e : Bool) (w : Fin 8) (i : BitVec 3) (v : Fin 8)
  /-- SA_OR (R240): Sends atomic or updates. -/
  | saOr (p : Pred) (q : Fin 16) (s : Fin 8) (e : Bool) (w : Fin 8) (i : BitVec 3) (v : Fin 8)
  /-- SA_XOR (R240): Sends atomic exclusive-or updates. -/
  | saXor (p : Pred) (q : Fin 16) (s : Fin 8) (e : Bool) (w : Fin 8) (i : BitVec 3) (v : Fin 8)
  /-- SA_SWAP (R240): Sends atomic swaps without merging. -/
  | saSwap (p : Pred) (q : Fin 16) (s : Fin 8) (e : Bool) (w : Fin 8) (i : BitVec 3) (v : Fin 8)
  /-- SA_CAS (R240): Sends atomic compare-and-swaps returning old values. -/
  | saCas (p : Pred) (q : Fin 16) (s : Fin 8) (w : Fin 8) (i : BitVec 3) (v : Fin 8)
  /-- SA_CNT (R240): Sends atomic counts of index occurrences. -/
  | saCnt (p : Pred) (q : Fin 16) (s : Fin 8) (e : Bool) (w : Fin 8) (i : BitVec 3)
  /-- SA_SCOPE (R243): Waits for earlier SACC words and widens their scope. -/
  | saScope (p : Pred) (s : Fin 8)
  /-- SA_FLUSH (R243): Waits until earlier SACC words of its queue are performed. -/
  | saFlush (p : Pred)
  /-- X_LDSHAPE (R251): Loads a shape descriptor into a shape slot. -/
  | xLdshape (p : Pred) (q : Fin 16) (s : Fin 32)
  /-- X_EVICT (R251): Clears a shape slot, optionally writing it out. -/
  | xEvict (p : Pred) (q : Fin 16) (s : Fin 32)
  /-- X_LD1 (R253): Shaped load into a dense tile on CE1. -/
  | xLd1 (p : Pred) (q : Fin 16) (s : Fin 32)
  /-- X_ST1 (R253): Shaped store from a dense tile on CE1. -/
  | xSt1 (p : Pred) (q : Fin 16) (s : Fin 32)
  /-- X_CP1 (R254): Byte copy on CE1. -/
  | xCp1 (p : Pred) (q : Fin 16)
  /-- X_LD2 (R253): Shaped load on CE2. -/
  | xLd2 (p : Pred) (q : Fin 16) (s : Fin 32)
  /-- X_ST2 (R253): Shaped store on CE2. -/
  | xSt2 (p : Pred) (q : Fin 16) (s : Fin 32)
  /-- X_CP2 (R254): Byte copy on CE2. -/
  | xCp2 (p : Pred) (q : Fin 16)
  /-- X_LD3 (R253): Shaped load on CE3. -/
  | xLd3 (p : Pred) (q : Fin 16) (s : Fin 32)
  /-- X_ST3 (R253): Shaped store on CE3. -/
  | xSt3 (p : Pred) (q : Fin 16) (s : Fin 32)
  /-- X_CP3 (R254): Byte copy on CE3. -/
  | xCp3 (p : Pred) (q : Fin 16)
  /-- X_LD4 (R253): Shaped load on CE4. -/
  | xLd4 (p : Pred) (q : Fin 16) (s : Fin 32)
  /-- X_ST4 (R253): Shaped store on CE4. -/
  | xSt4 (p : Pred) (q : Fin 16) (s : Fin 32)
  /-- X_CP4 (R254): Byte copy on CE4. -/
  | xCp4 (p : Pred) (q : Fin 16)
  /-- X_DACT (R257): Opens a DRAM-layer row. -/
  | xDact (p : Pred) (q : Fin 16)
  /-- X_DPRE (R257): Closes a DRAM-layer bank's open row. -/
  | xDpre (p : Pred) (q : Fin 16)
  /-- X_DREF (R257): Refreshes a DRAM-layer bank and starts its next window. -/
  | xDref (p : Pred) (q : Fin 16)
  /-- X_FLD (R255): Far-stream load from a virtual tensor, optionally converting MX formats. -/
  | xFld (p : Pred) (q : Fin 16) (s : Fin 32) (c : Fin 8) (k : Fin 32)
  /-- X_FST (R255): Far-stream store to a virtual tensor. -/
  | xFst (p : Pred) (q : Fin 16) (s : Fin 32)
  /-- X_TRUN (R260): Starts a transform-sequencer program. -/
  | xTrun (p : Pred) (q : Fin 16)
  /-- X_TOK (R260): Adds one token to a transform token count. -/
  | xTok (p : Pred) (k : Fin 4)
  /-- X_LPOW (R258): Sends a layer power hint to the die's power controller. -/
  | xLpow (p : Pred) (l : Fin 32) (u : Bool)
  /-- LP_LDTAB (R271): Loads the loop table, takes permits and registers with the coverage unit. -/
  | lpLdtab (p : Pred) (q : Fin 16)
  /-- LP_DONE (R270): Returns one permit to the LP. -/
  | lpDone (p : Pred)
  /-- LP_SCHEDW (R272): Sends a schedule rewrite to the kernel's coverage unit. -/
  | lpSchedw (p : Pred) (q : Fin 16)
  /-- LP_SCHEDR (R270): Reads the ACTIVE or PENDING schedule. -/
  | lpSchedr (p : Pred) (q : Fin 16) (u : Bool) (r : Fin 16) (s : Bool)
  /-- LP_COV (R270): Counts claimed cells in a box. -/
  | lpCov (p : Pred) (q : Fin 16) (u : Bool) (r : Fin 16)
  /-- LP_COVRD (R270): Reads eight bytes of the coverage map. -/
  | lpCovrd (p : Pred) (q : Fin 16) (u : Bool) (r : Fin 16)
  /-- LP_GEN (R270): Pushes the GEN of the schedule being dealt. -/
  | lpGen (p : Pred) (u : Bool) (r : Fin 16)
  /-- LP_STAT (R270): Pushes the LP's STATE and notice byte. -/
  | lpStat (p : Pred) (u : Bool) (r : Fin 16)
  /-- LP_ADDP (R270): Gives the LP n permits. -/
  | lpAddp (p : Pred) (q : Fin 16)
  /-- LP_PEND (R270): Pushes whether a rewrite is pending for this LP. -/
  | lpPend (p : Pred) (u : Bool) (r : Fin 16)
  /-- LP_POS (R270): Pushes the walk position at a level. -/
  | lpPos (p : Pred) (q : Fin 16) (u : Bool) (r : Fin 16)
  /-- LP_DRAIN (R270): Waits until all permits are back and dealing has ended. -/
  | lpDrain (p : Pred)
  /-- LP_PERMITS (R270): Pushes the number of permits held. -/
  | lpPermits (p : Pred) (u : Bool) (r : Fin 16)
  /-- LP_REC (R270): Pushes the last record dealt. -/
  | lpRec (p : Pred) (u : Bool) (r : Fin 16)
  /-- S_ARM (R276): Arms a barrier with a target, optionally naming a future. -/
  | sArm (p : Pred) (q : Fin 16) (f : Bool)
  /-- S_ARMC (R276): Arms a barrier as collective. -/
  | sArmc (p : Pred) (q : Fin 16) (f : Bool)
  /-- S_DISARM (R276): Disarms a barrier. -/
  | sDisarm (p : Pred) (q : Fin 16)
  /-- S_SIG (R276): Signals a count to a barrier as a release. -/
  | sSig (p : Pred) (q : Fin 16)
  /-- S_WAIT (R276): Waits for a barrier's fire and pushes its target. -/
  | sWait (p : Pred) (q : Fin 16) (u : Bool) (r : Fin 16)
  /-- S_WAITN (R276): Registers a barrier notification for the context. -/
  | sWaitn (p : Pred) (q : Fin 16)
  /-- S_BSTAT (R276): Pushes a barrier's status. -/
  | sBstat (p : Pred) (q : Fin 16) (u : Bool) (r : Fin 16)
  /-- S_FNEW (R278): Creates an empty future. -/
  | sFnew (p : Pred) (q : Fin 16)
  /-- S_FJOIN (R278): Joins a continuation entry to a future. -/
  | sFjoin (p : Pred) (q : Fin 16)
  /-- S_FRES (R278): Resolves a future with a value as a release. -/
  | sFres (p : Pred) (q : Fin 16)
  /-- S_FPEEK (R278): Pushes a future word as the dealer holds it. -/
  | sFpeek (p : Pred) (q : Fin 16) (u : Bool) (r : Fin 16)
  /-- S_LAUNCH (R279): Reads a launch block and sends it as a root enqueue. -/
  | sLaunch (p : Pred) (q : Fin 16) (u : Bool) (r : Fin 16)
  /-- S_EXIT (R280): Ends the context and enqueues up to four successors or returns weight. -/
  | sExit (p : Pred) (q : Fin 16) (k : Fin 8)
  /-- S_HALT (R280): Ends the context. -/
  | sHalt (p : Pred)
  /-- S_PHASE (R281): Blocks the member until its phase group's boundary. -/
  | sPhase (p : Pred) (q : Fin 16) (n : Bool)
  /-- S_QOPEN (R282): Opens a quiescence scope. -/
  | sQopen (p : Pred) (s : Fin 16)
  /-- S_QSPLIT (R282): Moves task weight to a launch's completion share. -/
  | sQsplit (p : Pred) (q : Fin 16)
  /-- S_QRET (R282): Returns units of task weight to the root. -/
  | sQret (p : Pred) (q : Fin 16)
  /-- S_WAITQ (R282): Waits until a scope is quiet and pushes its status. -/
  | sWaitq (p : Pred) (u : Bool) (r : Fin 16) (s : Fin 16)
  /-- S_QSTAT (R282): Pushes a scope's status. -/
  | sQstat (p : Pred) (u : Bool) (r : Fin 16) (s : Fin 16)
  /-- S_QCLOSE (R282): Closes a quiescence scope. -/
  | sQclose (p : Pred) (s : Fin 16)
  /-- S_NPR (R283): Opens a non-pre-emptible region with a limit from the extension word. -/
  | sNpr (p : Pred) (x : BitVec 32)
  /-- S_NPREND (R283): Closes the non-pre-emptible region. -/
  | sNprend (p : Pred)
  /-- S_UEV (R284): Sends a user event to a context of the task. -/
  | sUev (p : Pred) (c : Fin 4) (e : Fin 16384)
  /-- S_TIME (R285): Pushes the group time. -/
  | sTime (p : Pred) (r : Fin 16)
  /-- S_YIELD (R285): Lets a waiting hand entry of equal or higher class pre-empt the task. -/
  | sYield (p : Pred)
  /-- TS_END (R263): Ends the transform program after its writes. -/
  | tsEnd
  /-- TS_SETI (R262): Sets an h register to an immediate. -/
  | tsSeti (d : Fin 8) (i : BitVec 19)
  /-- TS_ADDI (R262): Adds an immediate to an h register. -/
  | tsAddi (d : Fin 8) (a : Fin 8) (i : BitVec 19)
  /-- TS_ADD (R262): Adds two h registers. -/
  | tsAdd (d : Fin 8) (a : Fin 8) (b : Fin 8)
  /-- TS_SETC (R262): Sets a counter from an h register. -/
  | tsSetc (c : Fin 4) (a : Fin 8)
  /-- TS_LOOP (R262): Decrements a counter and branches while above 1. -/
  | tsLoop (c : Fin 4) (o : BitVec 19)
  /-- TS_JMP (R262): Branches. -/
  | tsJmp (o : BitVec 19)
  /-- TS_SETB (R261): Sets the compressed block geometry. -/
  | tsSetb (e : Fin 8) (b : Fin 8) (x : Fin 524288)
  /-- TS_ZEXP (R261): Expands a compressed block from layer 1 into layer 0. -/
  | tsZexp (a : Fin 8) (b : Fin 8)
  /-- TS_ZCMP (R261): Compresses a block from layer 0 into layer 1. -/
  | tsZcmp (d : Fin 8) (a : Fin 8) (b : Fin 8)
  /-- TS_MVLO (R262): Copies lines from layer 1 to layer 0. -/
  | tsMvlo (a : Fin 8) (b : Fin 8) (n : Fin 524288)
  /-- TS_MVHI (R262): Copies lines from layer 0 to layer 1. -/
  | tsMvhi (a : Fin 8) (b : Fin 8) (n : Fin 524288)
  /-- TS_WAITT (R262): Waits for and consumes a token. -/
  | tsWaitt (k : Fin 4)
  /-- TS_POST (R262): Pushes an h register into a queue register of the starting core. -/
  | tsPost (a : Fin 8) (q : Fin 16)
  /-- TS_FENCE (R262): Waits until earlier writes are performed. -/
  | tsFence
  /-- TS_BNZ (R262): Branches if an h register is non-zero. -/
  | tsBnz (a : Fin 8) (o : BitVec 19)
  /-- UNASSIGNED_WORD (R328): A word that is not an instruction faults at issue or at the head of its queue. -/
  | unassignedWord (w : BitVec 32)
  /-- POWER_ON (R301): Package samples its strap and runs the start sequence. -/
  | powerOn
  /-- BRIDGE_CLAIM (R376): A strapped package's claim arrives and is forwarded. -/
  | bridgeClaim
  /-- BRIDGE_CLAIM_TIMEOUT (R376): No claim heard within 2^24 cycles; the package stays in step 3. -/
  | bridgeClaimTimeout
  /-- RESET (R301): Writing RESET restarts the group from step 2. -/
  | reset
  /-- ENABLED (R306): First write of ENABLED sets its fields and LOCK. -/
  | enabled
  /-- NONCE (R314): Writing NONCE starts a signed attestation report. -/
  | nonce
  /-- FAULTACT (R323): Host applies an action to a fault ring record's task. -/
  | faultact
  /-- TLBINV (R76): Removes matching translations package-wide and increments TGEN. -/
  | tlbinv
  /-- REFWIN_WRITE (R64): A new refresh window applies to current windows from the next cycle. -/
  | refwinWrite
  /-- BANKBUDGET_WRITE (R60): New bank shares take effect at the next period. -/
  | bankbudgetWrite
  /-- BUSTIMING_WRITE (R341): Retiming of a bus applies to lines accepted after the write. -/
  | bustimingWrite
  /-- REGISTER_WRITE (R198): Write of a system register without behaviour of its own. -/
  | registerWrite
  /-- HOST_MEMORY_READ (R304): Host read through BAR4 of a device physical address. -/
  | hostMemoryRead
  /-- HOST_MEMORY_WRITE (R304): Host write through BAR4 of a device physical address. -/
  | hostMemoryWrite
  /-- HOST_ENQUEUE_WRITE (R104): Host write to a dealer's enqueue aperture, enqueuing a 128-byte block. -/
  | hostEnqueueWrite
  /-- LAUNCH_ENQUEUE (R103): A launch record arrives at its dealer and takes a slot and weight. -/
  | launchEnqueue
  /-- DEALER_CHOICE (R108): Each cycle the dealer places runnable groups in hands. -/
  | dealerChoice
  /-- GANG_RESERVATION (R109): A gang waiting 65,536 cycles reserves a run of cores. -/
  | gangReservation
  /-- GANG_START (R108): All groups of a gang start in one cycle. -/
  | gangStart
  /-- TASK_BOUNDARY (R97): First cycle all contexts ended and masked queues drained. -/
  | taskBoundary
  /-- TASK_START (R98): The next hand task issues its first word, copying its image if not resident. -/
  | taskStart
  /-- LAUNCH_COMPLETION (R105): Launch runnable and all groups at boundaries: signal, enqueue next, free slot. -/
  | launchCompletion
  /-- DONENEXT_DEFERRED (R359): A deferred DONENEXT is enqueued once a slot is free. -/
  | donenextDeferred
  /-- TASK_STOP (R93): A task is stopped and its engines brought to image points. -/
  | taskStop
  /-- IMAGE_SAVE_COMPLETE (R96): The snapshot image has been written; the stop is complete. -/
  | imageSaveComplete
  /-- TASK_RESUME (R96): A stopped task resumes from its image at its recorded slot. -/
  | taskResume
  /-- WAITING_TASK_READY (R92): An outside answer arrives and a waiting bank's task becomes ready. -/
  | waitingTaskReady
  /-- FILLER_COLLECTIVE_WAIT (R123): After CYCLES of collective waiting a filler runs in the free bank. -/
  | fillerCollectiveWait
  /-- FILLER_RETURN (R123): After the barrier fires the filler is stopped and the waiting task resumes. -/
  | fillerReturn
  /-- FUTURE_CREATE (R117): Create operation performed at a future's bank. -/
  | futureCreate
  /-- FUTURE_JOIN (R117): Join operation performed at a future's bank. -/
  | futureJoin
  /-- FUTURE_RESOLVE (R117): Resolve operation performed at a future's bank. -/
  | futureResolve
  /-- FUTURE_POISON (R363): Poison operation performed at a future's bank. -/
  | futurePoison
  /-- ENTRY_SATISFACTION (R117): A continuation entry's satisfaction takes effect at its dealer. -/
  | entrySatisfaction
  /-- BORROW_DEBIT (R121): A borrow request debits the root's kitty by 2^32. -/
  | borrowDebit
  /-- BORROW_GRANT (R121): A borrow grant arrives at the requester. -/
  | borrowGrant
  /-- WEIGHT_RETURN (R121): Returned weight reaches the root and adds to QRET. -/
  | weightReturn
  /-- WAITQ_COMPLETE (R122): A scope becomes quiet and a waiting s.waitq completes. -/
  | waitqComplete
  /-- IMPLICIT_EXIT (R366): SYNC engine performs s.exit for a task that ended without one. -/
  | implicitExit
  /-- BARRIER_ARM (R274): An arm reaches a barrier unit. -/
  | barrierArm
  /-- BARRIER_DISARM (R274): A disarm reaches a barrier unit. -/
  | barrierDisarm
  /-- BARRIER_COUNT (R274): A posting or signal count reaches a barrier. -/
  | barrierCount
  /-- BARRIER_WAIT (R274): A wait, registration or notification reaches a barrier. -/
  | barrierWait
  /-- SYNC_ANSWER (R268): A unit's answer reaches the core and is pushed, performing the word. -/
  | syncAnswer
  /-- NOTIFY_EVENT_ARRIVAL (R277): A barrier notify event reaches its context and is held. -/
  | notifyEventArrival
  /-- EVENT_TAKE (R284): A context takes its oldest held event into its trap stream. -/
  | eventTake
  /-- PHASE_BOUNDARY (R154): Every member of a phase group has arrived; s.phase completes. -/
  | phaseBoundary
  /-- COLUMN_POWER_DOWN (R368): Barrier states are written to the backing store as a column powers down. -/
  | columnPowerDown
  /-- COLUMN_POWER_UP (R368): Barrier states are restored and appended operations replayed. -/
  | columnPowerUp
  /-- COLUMN_RESET (R369): Every barrier of the column becomes IDLE and stale. -/
  | columnReset
  /-- LP_DEAL_RECORD (R131): The LP deals one iteration record to the named IQs. -/
  | lpDealRecord
  /-- COVERAGE_REGISTRATION (R136): An LP registration reaches the coverage unit and allocates the kernel entry. -/
  | coverageRegistration
  /-- REGISTRATION_ANSWER (R136): The registration answer, or refusal, reaches the LP. -/
  | registrationAnswer
  /-- COVERAGE_CLAIM (R133): A claim reads and sets the map bits of a tile. -/
  | coverageClaim
  /-- CLAIM_ANSWER (R133): The claim answer reaches the LP, which deals its remnants. -/
  | claimAnswer
  /-- REWRITE_WRITE (R137): A rewrite is written into PENDING and notices are sent. -/
  | rewriteWrite
  /-- PENDING_NOTICE (R138): A pending notice reaches an LP, which stops at its boundary point. -/
  | pendingNotice
  /-- REWRITE_COMMIT (R139): At the rewrite-safe boundary PENDING becomes ACTIVE and GEN increments. -/
  | rewriteCommit
  /-- COMMIT_NOTICE (R139): A commit notice reaches an LP, which walks again under the new schedule. -/
  | commitNotice
  /-- DEALING_COMPLETE (R141): All members exhausted and nothing pending; entry freed, notices sent. -/
  | dealingComplete
  /-- COMPLETION_NOTICE (R141): A completion notice reaches an LP. -/
  | completionNotice
  /-- END_RECORD_PUSH (R141): The LP pushes the end record once the IQs have room. -/
  | endRecordPush
  /-- COPY_COMPLETION (R71): A copy writes its last line and posts its sector count. -/
  | copyCompletion
  /-- PASS_ACCUMULATION (R234): The accumulator path read-modify-writes a pass's outputs and posts its count. -/
  | passAccumulation
  /-- SA_HOME_UPDATE (R242): A scatter update is performed at its home and its old value returned. -/
  | saHomeUpdate
  /-- TS_PROGRAM_TURN (R260): A transform program's turn comes: load, clear and issue its entry. -/
  | tsProgramTurn
  /-- TS_PROGRAM_END (R263): A program ends, x.trun is performed and TS takes the next. -/
  | tsProgramEnd
  /-- BANK_PERIOD_START (R60): Every 64 cycles each bank's class credits are reset. -/
  | bankPeriodStart
  /-- FORCED_REFRESH (R64): A bank's refresh window ends without x.dref; CE4 forces a refresh. -/
  | forcedRefresh
  /-- FORCED_REFRESH_END (R64): A forced refresh ends and waiting accesses proceed. -/
  | forcedRefreshEnd
  /-- DRAM_SENSOR_READING (R64): Each microsecond the DRAM-layer sensor sets HOT and the window is rewritten. -/
  | dramSensorReading
  /-- LAYER_WAKE_COMPLETE (R66): After 4,500 cycles a woken layer reads ON and zero. -/
  | layerWakeComplete
  /-- LAYER_POWER_OFF (R66): Firmware switches off layer 3 or 2 when no user task is present. -/
  | layerPowerOff
  /-- MIGRATION_SERVICE (R77): A translation finds P = 0 and the service brings a span into far memory. -/
  | migrationService
  /-- MIGRATION_COMPLETE (R332): The span is resident and the faulting task is ready. -/
  | migrationComplete
  /-- WALK_FILL (R353): A page walk finishes and fills, or restarts if TGEN changed. -/
  | walkFill
  /-- CORRECTED_REWRITE (R336): The corrected granule is rewritten in a free bank cycle. -/
  | correctedRewrite
  /-- DEFERRED_FAULT (R339): A control access faults at its access point. -/
  | deferredFault
  /-- FAULT_HANDLER_END (R322): The firmware handler ends a fault with an action. -/
  | faultHandlerEnd
  /-- FAULT_TAKEN (R320): A context takes a user-route fault into its trap stream. -/
  | faultTaken
  /-- QUEUE_DEADLOCK (R324): After 4,096 idle blocked cycles 0x0402 is raised. -/
  | queueDeadlock
  /-- FORMAT_UNDERFLOW (R325): A MAT word finds FQ empty after all contexts ended. -/
  | formatUnderflow
  /-- TRAP_STREAM_TIMEOUT (R333): A trap stream open 65,536 task cycles raises 0x0D02. -/
  | trapStreamTimeout
  /-- REGION_OVERRUN (R371): A non-pre-emptible region reaches its limit and is closed with 0x0D01. -/
  | regionOverrun
  /-- REPAIR_WINDOW (R342): Each 2^24 cycles firmware acts on error counts. -/
  | repairWindow
  /-- LANE_REPLACEMENT (R343): A lane is replaced by a spare, holding its bus group. -/
  | laneReplacement
  /-- LANE_REPLACEMENT_END (R343): The bus group is released after 64 cycles. -/
  | laneReplacementEnd
  /-- TALON_REPLACEMENT (R343): A bank is held and copied into a talon bank. -/
  | talonReplacement
  /-- TALON_REPLACEMENT_END (R343): The talon bank takes the old addresses and the bank is released. -/
  | talonReplacementEnd
  /-- SLICE_RETIRED (R345): At the recovery point the slice is retired. -/
  | sliceRetired
  /-- CORE_WITHDRAWN (R348): An ineligible core is withdrawn once neither bank holds a task. -/
  | coreWithdrawn
  /-- GOVERNOR_SAMPLE (R310): Each microsecond the ramp governor withholds tokens, deals filler or ballast. -/
  | governorSample
  /-- TOKEN_PERIOD (R311): Each microsecond the THERMALLOW token counts restart. -/
  | tokenPeriod
  /-- THERMAL_MANAGER_ACTION (R312): Every 100 microseconds AVOID and stops are set by temperature. -/
  | thermalManagerAction
  /-- THERMAL_TRIP (R372): At 105 °C the column's tasks are stopped or throttled. -/
  | thermalTrip
  /-- THROTTLE_END (R372): Throttling ends when the region closes or the sensor reads below 100 °C. -/
  | throttleEnd
  /-- TELEMETRY_RECORD (R313): At the end of each PERIOD a telemetry record is written. -/
  | telemetryRecord
  /-- TELEMETRY_HOST_COPY (R313): The bridge copies a record to the host ring when room exists. -/
  | telemetryHostCopy
  /-- PTP_SYNC_SEND (R307): Every 125 microseconds the bridge sends a sync on each port. -/
  | ptpSyncSend
  /-- PTP_SYNC_ARRIVAL (R307): A sync arrives; the package corrects and forwards it. -/
  | ptpSyncArrival
  /-- LINK_DELAY_MEASURE (R307): Every 1 ms each port measures its link delay. -/
  | linkDelayMeasure
  /-- TOD_MESSAGE (R308): A ToD serial message arrives. -/
  | todMessage
  /-- PPS_EDGE (R308): At a 1PPS edge the bridge time takes the message's seconds. -/
  | ppsEdge
  /-- PTM_STEER (R308): Every 1 ms the bridge steers to the host's PTM time. -/
  | ptmSteer
  /-- TIME_SOURCE_LOSS (R377): The time source is missing; the clock holds its rate. -/
  | timeSourceLoss
  /-- FLIT_RECEIVE (R373): A flit arrives and is checked, discarded if bad. -/
  | flitReceive
  /-- PORT_DOWN (R373): A port loses training or fails 8 sends and goes down. -/
  | portDown
  /-- PORT_TRAINED (R373): A port completes retraining. -/
  | portTrained
  /-- ROUTE_RECOMPUTE (R373): The bridge recomputes routes after a port change. -/
  | routeRecompute
  /-- ENGINE_WORD_START (R287): An engine takes a queued word from its per-context queue, pops its entries and reads its descriptors. -/
  | engineWordStart
  /-- RESULT_LANDING (R88): A CTRL result, or a loaded shape slot or loop table, is written L cycles after issue. -/
  | resultLanding
  /-- ACCESS_POINT (R146): A control load reads, or a store writes, its unit at cycle i + D. -/
  | accessPoint
  /-- MICRO_STEP (R207): A vector micro-step, row-engine chunk or SA element take is issued once its lines are granted. -/
  | microStep
  /-- ELEMENT_WRITE_LANDS (R89): A micro-step's element results and status flags are written VLAT cycles after its read span. -/
  | elementWriteLands
  /-- DRAM_COMMAND_ISSUE (R63): CE4 issues a waiting activate, precharge, refresh, read or write at the first cycle its timing limits allow. -/
  | dramCommandIssue
  /-- TS_DATA_POSTING (R263): A transform data instruction writes its destination lines and posts their sectors two cycles after its last write. -/
  | tsDataPosting
  /-- PCIE_LINK_LOSS (R375): The bridge loses its PCIe link and the group is cut off from the host. -/
  | pcieLinkLoss
  deriving DecidableEq, Repr

end Sys2Proof
end

