-- ==== Sys2Proof/Machine/Num.lean ====
section
/-! DEFINITION. The number formats of R28 to R35, the rounding functions of R36 to R38 and the conversions of R41
and R42. Values are exact rationals; each result is narrowed once, at the end (R9). -/

namespace Sys2Proof


/-- 2^k for an integer k. -/
def pow2 (k : Int) : Rat := if 0 ≤ k then ((2 ^ k.toNat : Nat) : Rat) else 1 / ((2 ^ (-k).toNat : Nat) : Rat)

/-- floor(log2 x) for x > 0. -/
def floorLog2 (x : Rat) : Int :=
  let k : Int := (Nat.log2 x.num.natAbs : Int) - (Nat.log2 x.den : Int)
  if pow2 k ≤ x then k else k - 1

def ratAbs (x : Rat) : Rat := if x < 0 then -x else x

/-- The integer nearest x, ties to the even integer (R37). -/
def roundNEInt (x : Rat) : Int :=
  let f := x.floor
  let d := x - (f : Rat)
  if d < 1 / 2 then f else if 1 / 2 < d then f + 1 else if f % 2 = 0 then f else f + 1

/-- The integer the rounding mode selects from x (R36, R37). -/
def roundInt (rm : Rounding) (x : Rat) : Int :=
  match rm with
  | .rne => roundNEInt x
  | .rz => if x < 0 then x.ceil else x.floor
  | .rd => x.floor
  | .ru => x.ceil

/-- Sat of R37. -/
def satInt (v lo hi : Int) : Int := min (max v lo) hi

/-- The status flags one operation raises, numbered as the bits of VSTATUS (R39). -/
abbrev Flags := BitVec 6

def flagNone : Flags := 0#6
def flagINV : Flags := 1#6
def flagDZ : Flags := 2#6
def flagOF : Flags := 4#6
def flagUF : Flags := 8#6
def flagNX : Flags := 16#6
def flagSAT : Flags := 32#6

/-- A floating-point format of R29. -/
structure Fmt where
  ebits : Nat
  fbits : Nat
  bias : Int
  /-- the all-ones exponent denotes infinity and NaN (false only for E4M3) -/
  ieee : Bool
  /-- F.max, the largest finite value -/
  maxFin : Rat
  /-- the canonical NaN of R30 -/
  nanCode : Nat
  deriving DecidableEq, Repr

def fp32 : Fmt := ⟨8, 23, 127, true, pow2 127 * (2 - pow2 (-23)), 0x7FC00000⟩
def fpBF16 : Fmt := ⟨8, 7, 127, true, pow2 127 * (2 - pow2 (-7)), 0x7FC0⟩
def fp16 : Fmt := ⟨5, 10, 15, true, 65504, 0x7E00⟩
def fpE4M3 : Fmt := ⟨4, 3, 7, false, 448, 0x7F⟩
def fpE5M2 : Fmt := ⟨5, 2, 15, true, 57344, 0x7E⟩

/-- The precision p, the hidden bit included (R29). -/
def Fmt.p (F : Fmt) : Int := F.fbits + 1
def Fmt.emin (F : Fmt) : Int := 1 - F.bias

/-- A floating-point value. The sign of `fin` is kept for zeros. -/
inductive FVal where
  | nan (signalling : Bool)
  | inf (neg : Bool)
  | fin (neg : Bool) (x : Rat)
  deriving DecidableEq, Repr

/-- The exact value x as a floating-point value; a zero takes the sign given. -/
def FVal.ofRat (x : Rat) (zneg : Bool := false) : FVal := .fin (if x = 0 then zneg else decide (x < 0)) x

def FVal.isNaN : FVal → Bool
  | .nan _ => true
  | _ => false

def FVal.isSNaN : FVal → Bool
  | .nan s => s
  | _ => false

def FVal.isZero : FVal → Bool
  | .fin _ x => x == 0
  | _ => false

/-- The sign bit of a value; a NaN counts as positive. -/
def FVal.neg? : FVal → Bool
  | .nan _ => false
  | .inf n => n
  | .fin n _ => n

/-- The value of a code of the format (R29). A NaN is signalling in the formats of R30 that have signalling NaNs
when the fraction's most significant bit is 0. -/
def Fmt.decode (F : Fmt) (code : Nat) : FVal :=
  let w := F.ebits + F.fbits
  let neg := bitAt w code
  let e := code / 2 ^ F.fbits % 2 ^ F.ebits
  let f := code % 2 ^ F.fbits
  let sgn : Rat := if neg then -1 else 1
  let top := 2 ^ F.ebits - 1
  if F.ieee && e == top then
    if f == 0 then .inf neg
    else .nan (decide (7 ≤ F.fbits) && !(bitAt (F.fbits - 1) f))
  else if !F.ieee && e == top && f == 2 ^ F.fbits - 1 then .nan false
  else if e == 0 then .fin neg (sgn * pow2 (F.emin - F.fbits) * (f : Rat))
  else .fin neg (sgn * pow2 ((e : Int) - F.bias - F.fbits) * ((2 ^ F.fbits + f : Nat) : Rat))

/-- The code of a value that the format represents. -/
def Fmt.encode (F : Fmt) (v : FVal) : Nat :=
  let w := F.ebits + F.fbits
  let s (n : Bool) : Nat := if n then 2 ^ w else 0
  match v with
  | .nan _ => F.nanCode
  | .inf n => s n + (2 ^ F.ebits - 1) * 2 ^ F.fbits
  | .fin n x =>
    let a := ratAbs x
    if a = 0 then s n
    else
      let e := max (floorLog2 a) F.emin
      let m := (a * pow2 (F.fbits - e)).floor.toNat
      if m < 2 ^ F.fbits then s n + m
      else s n + (e + F.bias).toNat * 2 ^ F.fbits + (m - 2 ^ F.fbits)

/-- The rounded value of x ≠ 0 with exponents at least emin, before the overflow check (Round of R37). -/
def roundAt (p emin : Int) (rm : Rounding) (x : Rat) : Rat :=
  let e := max (floorLog2 (ratAbs x)) emin
  let q := pow2 (e - p + 1)
  (roundInt rm (x / q) : Rat) * q

/-- Overflow of R37. -/
def overflowVal (F : Fmt) (rm : Rounding) (neg : Bool) : FVal :=
  if rm = .rne ∨ (rm = .ru ∧ neg = false) ∨ (rm = .rd ∧ neg = true) then .inf neg
  else .ofRat (if neg then -F.maxFin else F.maxFin)

/-- Round of R37 on x ≠ 0, with the status flags of one rounding. A zero result keeps the sign of x. -/
def Fmt.round (F : Fmt) (rm : Rounding) (x : Rat) : FVal × Flags :=
  let neg := decide (x < 0)
  let v := roundAt F.p F.emin rm x
  if F.maxFin < ratAbs v then (overflowVal F rm neg, flagOF ||| flagNX)
  else
    let inexact := decide (v ≠ x)
    -- Round with emin taken as −infinity (R37's underflow rule)
    let u := roundAt F.p (floorLog2 (ratAbs x)) rm x
    let uf := inexact && decide (ratAbs u < pow2 F.emin)
    (.ofRat v neg, (if inexact then flagNX else 0) ||| (if uf then flagUF else 0))

/-- Round on any rational, a zero of the given sign being exact. -/
def Fmt.roundZ (F : Fmt) (rm : Rounding) (x : Rat) (zneg : Bool) : FVal × Flags :=
  if x = 0 then (.fin zneg 0, 0) else F.round rm x

/-- The code of the value that R37 or an infinite source gives: E4M3 has no infinity, and R38 maps one to the NaN
with its sign kept, or with the saturation flag to ±448. -/
def Fmt.finish (F : Fmt) (sat : Bool) (v : FVal) : Nat :=
  match v with
  | .inf n => if F.ieee then F.encode (.inf n) else (if n then 0x80 else 0) + (if sat then 0x7E else 0x7F)
  | v => F.encode v

/-- Round and code a finite exact value into the format under R37 and R38; `zneg` is the sign of an exact zero. -/
def Fmt.put (F : Fmt) (rm : Rounding) (sat : Bool) (x : Rat) (zneg : Bool) : Nat × Flags :=
  let (v, fl) := F.roundZ rm x zneg
  let small := F.fbits == 2 || !F.ieee
  if small && sat && (fl &&& flagOF) != 0#6 then
    (F.encode (.ofRat (if x < 0 then -F.maxFin else F.maxFin)), flagOF ||| flagNX)
  else (F.finish sat v, fl)

/-- The format of a floating element type of R28. -/
def ElemType.fmt : ElemType → Option Fmt
  | .f32 => some fp32
  | .bf16 => some fpBF16
  | .f16 => some fp16
  | .e4m3 => some fpE4M3
  | .e5m2 => some fpE5M2
  | _ => none

/-- Bits per element (R28). -/
def ElemType.bits : ElemType → Nat
  | .f32 => 32
  | .bf16 => 16
  | .f16 => 16
  | .e4m3 => 8
  | .e5m2 => 8
  | .i8 => 8
  | .i16 => 16
  | .i32 => 32
  | .i64 => 64
  | .n8 => 8
  | .n16 => 16
  | .n32 => 32
  | .n64 => 64
  | .mx4 => 4
  | .mx6 => 6
  | .mx8 => 8

/-- The signed integer types of R28. -/
def ElemType.signed : ElemType → Bool
  | .i8 | .i16 | .i32 | .i64 => true
  | _ => false

/-- Integer types of R28, signed or unsigned. -/
def ElemType.isInt : ElemType → Bool
  | .i8 | .i16 | .i32 | .i64 | .n8 | .n16 | .n32 | .n64 => true
  | _ => false

/-- Block element types of R28 and R31. -/
def ElemType.isMx : ElemType → Bool
  | .mx4 | .mx6 | .mx8 => true
  | _ => false

def ElemType.isFloat (t : ElemType) : Bool := t.fmt.isSome

/-- Bytes of an element of a type of whole bytes. -/
def ElemType.bytes (t : ElemType) : Nat := t.bits / 8

/-- The code of R28. -/
def ElemType.code : ElemType → Fin 16
  | .f32 => 0 | .bf16 => 1 | .f16 => 2 | .e4m3 => 3 | .e5m2 => 4
  | .i8 => 5 | .i16 => 6 | .i32 => 7 | .i64 => 8 | .n8 => 9 | .n16 => 10 | .n32 => 11 | .n64 => 12
  | .mx4 => 13 | .mx6 => 14 | .mx8 => 15

/-- The type of a code of R28. -/
def ElemType.ofCode (c : Nat) : ElemType :=
  match c % 16 with
  | 0 => .f32 | 1 => .bf16 | 2 => .f16 | 3 => .e4m3 | 4 => .e5m2
  | 5 => .i8 | 6 => .i16 | 7 => .i32 | 8 => .i64 | 9 => .n8 | 10 => .n16 | 11 => .n32 | 12 => .n64
  | 13 => .mx4 | 14 => .mx6 | _ => .mx8

/-- The mode of a code of R36. -/
def Rounding.ofCode (c : Nat) : Rounding :=
  match c % 4 with
  | 0 => .rne | 1 => .rz | 2 => .rd | _ => .ru

def Rounding.code : Rounding → Fin 4
  | .rne => 0 | .rz => 1 | .rd => 2 | .ru => 3

/-- The window of a code of R55. -/
def Window.ofCode (c : Nat) : Window :=
  match c % 4 with
  | 0 => .local | 1 => .column | 2 => .die | _ => .package

def Window.code : Window → Fin 4
  | .local => 0 | .column => 1 | .die => 2 | .package => 3

/-- The least and greatest values of an integer type of n bits. -/
def intLo (signed : Bool) (n : Nat) : Int := if signed then -(2 ^ (n - 1) : Nat) else 0
def intHi (signed : Bool) (n : Nat) : Int := if signed then (2 ^ (n - 1) : Nat) - 1 else (2 ^ n : Nat) - 1

/-- The integer a code of n bits denotes. -/
def intOf (signed : Bool) (n : Nat) (c : Nat) : Int :=
  let u : Int := (c % 2 ^ n : Nat)
  if signed && decide (2 ^ (n - 1) ≤ c % 2 ^ n) then u - (2 ^ n : Nat) else u

/-- The n low bits of an integer as a code. -/
def intCode (n : Nat) (v : Int) : Nat := (v % (2 ^ n : Nat)).toNat

/-- An integer result under R40: it wraps, or with the saturating flag passes through Sat with SAT. -/
def intPut (signed : Bool) (n : Nat) (sat : Bool) (v : Int) : Nat × Flags :=
  if sat then
    let s := satInt v (intLo signed n) (intHi signed n)
    (intCode n s, if s = v then 0 else flagSAT)
  else (intCode n v, 0)

/-! ### Block formats -/

/-- The value of an E5M3 scale (R33); none for the NaN code. -/
def scaleVal (c : Nat) : Option Rat :=
  if c = 0xFF then none
  else if c / 8 = 0 then some (pow2 (-14) * ((c % 8 : Nat) : Rat) / 8)
  else some (pow2 ((c / 8 : Nat) - 15) * (1 + ((c % 8 : Nat) : Rat) / 8))

/-- The code of 2^k for −17 ≤ k ≤ 16 (R33). -/
def scaleCodePow2 (k : Int) : Nat :=
  if -14 ≤ k then ((k + 15) * 8).toNat
  else if k = -15 then 4 else if k = -16 then 2 else 1

/-- The smallest finite scale code c from `c` on, in at most `fuel` codes, whose value is at least x; 0xFE when
none qualifies (R42). -/
def scaleAtLeast (x : Rat) : Nat → Nat → Nat
  | 0, _ => 0xFE
  | fuel + 1, c =>
    match scaleVal c with
    | some v => if x ≤ v then c else scaleAtLeast x fuel (c + 1)
    | none => 0xFE

/-- The width of an MXINT type (R31). -/
def ElemType.mxWidth : ElemType → Nat
  | .mx4 => 4
  | .mx6 => 6
  | _ => 8

/-- The value of an MXINTw element of code q under the scale code c (R31, R42): canonical NaN for a NaN scale,
+0 for a zero scale. -/
def mxVal (w : Nat) (c q : Nat) : FVal :=
  match scaleVal c with
  | none => .nan false
  | some s => .ofRat ((intOf true w q : Rat) * pow2 (-((w : Int) - 2)) * s)

/-- R42: a block of float values to MXINTw: the element codes, the scale code and the flags. -/
def mxBlock (w : Nat) (rm : Rounding) (xs : List FVal) : List Nat × Nat × Flags :=
  let vals := xs.map fun v => match v with
    | .fin _ x => some x
    | _ => none
  if vals.any (· == none) then (xs.map fun _ => 0, 0xFF, flagINV)
  else
    let rs := vals.map (·.getD 0)
    if rs.all (· == 0) then (xs.map fun _ => 0, 0, 0)
    else
      let a := rs.foldl (fun m x => max m (ratAbs x)) 0
      let top : Rat := ((2 ^ (w - 1) - 1 : Nat) : Rat) * pow2 (-((w : Int) - 2))
      let c := scaleAtLeast (a / top) 254 1
      let s := (scaleVal c).getD 1
      let one (x : Rat) : Nat × Flags :=
        let exact := x * pow2 ((w : Int) - 2) / s
        let r := roundInt rm exact
        let q := satInt r (intLo true w) (intHi true w)
        (intCode w q, (if (q : Rat) = exact then 0 else flagNX) ||| (if q = r then 0 else flagSAT))
      let os := rs.map one
      (os.map (·.1), c, os.foldl (fun f o => f ||| o.2) 0)

/-- Rebase of R35: the integers q with exponent k as elements under an E5M3 power-of-two scale. -/
def rebase (w : Nat) (k : Int) (qs : List Int) : List Int × Nat :=
  if -17 ≤ k ∧ k ≤ 16 then (qs, scaleCodePow2 k)
  else
    let d := if 16 < k then k - 16 else k + 17
    let code := if 16 < k then 0xF8 else 0x01
    (qs.map fun (q : Int) => satInt (roundNEInt ((q : Rat) * pow2 d)) (intLo true w) (intHi true w), code)

/-- The E2M1 magnitude of R34, doubled so that it is an integer. -/
def e2m1Twice (c : Nat) : Nat :=
  match c % 8 with
  | 0 => 0 | 1 => 1 | 2 => 2 | 3 => 3 | 4 => 4 | 5 => 6 | 6 => 8 | _ => 12

/-- R35: one MXFP4 block, its 32 codes and E8M0 scale, to BF16 codes. -/
def mxfp4ToBf16 (s : Nat) (cs : List Nat) : List Nat :=
  if s = 0xFF then cs.map fun _ => 0x7FC0
  else cs.map fun c =>
    let neg := bitAt 3 c
    let m : Rat := ((e2m1Twice c : Nat) : Rat) / 2 * pow2 ((s : Int) - 127)
    (fpBF16.put .rne false (if neg then -m else m) neg).1

/-- R35: one MXFP4 block to MXINT8 elements and an E5M3 scale. -/
def mxfp4ToMx8 (s : Nat) (cs : List Nat) : List Nat × Nat :=
  if s = 0xFF then (cs.map fun _ => 0, 0xFF)
  else
    let qs := cs.map fun c =>
      let m : Int := 8 * (e2m1Twice c : Int)
      if bitAt 3 c then -m else m
    let (rs, code) := rebase 8 ((s : Int) - 125) qs
    (rs.map (intCode 8), code)

/-- R35: one E8M0-scaled MXINT8 block to BF16 codes. -/
def e8m0ToBf16 (s : Nat) (cs : List Nat) : List Nat :=
  if s = 0xFF then cs.map fun _ => 0x7FC0
  else cs.map fun c =>
    (fpBF16.put .rne false ((intOf true 8 c : Rat) * pow2 (-6) * pow2 ((s : Int) - 127)) false).1

/-- R35: one E8M0-scaled MXINT8 block to MXINT8 elements and an E5M3 scale. -/
def e8m0ToMx8 (s : Nat) (cs : List Nat) : List Nat × Nat :=
  if s = 0xFF then (cs.map fun _ => 0, 0xFF)
  else
    let (rs, code) := rebase 8 ((s : Int) - 127) (cs.map (intOf true 8))
    (rs.map (intCode 8), code)

/-! ### Conversions of one element (R41) -/

/-- A float value to a float format: exact or Round, then R38. -/
def cvtFF (v : FVal) (G : Fmt) (rm : Rounding) (sat : Bool) : Nat × Flags :=
  match v with
  | .nan s => (G.nanCode, if s then flagINV else 0)
  | .inf n => (G.finish sat (.inf n), 0)
  | .fin n x => G.put rm sat x n

/-- A float value to an integer type of n bits. -/
def cvtFI (v : FVal) (signed : Bool) (n : Nat) (rm : Rounding) : Nat × Flags :=
  match v with
  | .nan _ => (0, flagINV)
  | .inf neg => (intCode n (if neg then intLo signed n else intHi signed n), flagINV)
  | .fin _ x =>
    let m := roundInt rm x
    if intLo signed n ≤ m ∧ m ≤ intHi signed n then (intCode n m, if (m : Rat) = x then 0 else flagNX)
    else (intCode n (satInt m (intLo signed n) (intHi signed n)), flagINV)

/-- R41: element code c of type t to type u. MXINT types are converted by blocks (R42), not here. R41 has no row for an integer
that goes to an integer type of its width or a wider one: it is extended by the signedness of its source, and wraps, or with
the saturating flag is Sat with SAT, as in a narrower type. DESIGN CHOICE, log entry 121. -/
def cvtElem (t u : ElemType) (rm : Rounding) (sat : Bool) (c : Nat) : Nat × Flags :=
  match t.fmt, u.fmt with
  | some F, some G => cvtFF (F.decode c) G rm sat
  | some F, none => cvtFI (F.decode c) u.signed u.bits rm
  | none, some G => G.put rm sat ((intOf t.signed t.bits c : Rat)) false
  | none, none => intPut u.signed u.bits sat (intOf t.signed t.bits c)

end Sys2Proof
end

