-- ==== Sys2Proof/WellFormed.lean ====
section
/-! DEFINITION. Which words of an assigned slot are instructions (R170, R224, R245, R266, R286, R329): the limits of
the fields, and the fields that must be zero because another field says that they are not used. The operand bits that
an instruction never uses are checked where they are seen, in Decode.lean. -/

namespace Sys2Proof

/-- The floating types of R28. -/
def takesFloat : ElemType → Bool
  | .f32 | .bf16 | .f16 | .e4m3 | .e5m2 => true
  | _ => false

/-- The integer types of R28 ("integer" of R211). -/
def takesInt : ElemType → Bool
  | .i8 | .i16 | .i32 | .i64 | .n8 | .n16 | .n32 | .n64 => true
  | _ => false

/-- "float, integer" of R211 to R217. -/
def takesArith (t : ElemType) : Bool := takesFloat t || takesInt t

/-- The types of the square root and of the special functions (R211, R213). -/
def takesHalf : ElemType → Bool
  | .f32 | .bf16 | .f16 => true
  | _ => false

/-- Every non-MX type (R214, R237). -/
def takesPlain : ElemType → Bool
  | .mx4 | .mx6 | .mx8 => false
  | _ => true

/-- The types of `m.tr`: non-MX, of 1, 2 or 4 bytes (R237). -/
def takesTr : ElemType → Bool
  | .mx4 | .mx6 | .mx8 | .i64 | .n64 => false
  | _ => true

/-- Integer words carry M2:M1 = 0 (R212). -/
def roundingOk (t : ElemType) (r : Rounding) : Bool := !(takesInt t) || (r == .rne)

/-- M0 is 0 for `.f32`, `.bf16` and `.f16` (R212, R237). -/
def satOk (t : ElemType) (s : Bool) : Bool := !(takesHalf t) || !s

/-- The numbers of the system registers (R197). -/
def sysRegNumber (n : Nat) : Bool :=
  decide (n ≤ 0x005 ∨ (0x008 ≤ n ∧ n ≤ 0x00B) ∨ n = 0x010 ∨ n = 0x011 ∨ (0x014 ≤ n ∧ n ≤ 0x017) ∨
    (0x020 ≤ n ∧ n ≤ 0x022) ∨ (0x024 ≤ n ∧ n ≤ 0x027) ∨ (0x029 ≤ n ∧ n ≤ 0x02C) ∨ n = 0x02E ∨
    (0x040 ≤ n ∧ n ≤ 0x043) ∨ (0x100 ≤ n ∧ n ≤ 0x12F) ∨ (0x200 ≤ n ∧ n ≤ 0x20C))

/-- The fields that must be zero because the word does not use them hold zero; else the word raises 0x0102. -/
def Instr.zerosOk : Instr → Bool
  | .trailerWord _ => true
  | .nop _ => true
  | .add _ _ _ _ => true
  | .sub _ _ _ _ => true
  | .mul _ _ _ _ => true
  | .mulh _ _ _ _ _ => true
  | .div _ _ _ _ _ => true
  | .rem _ _ _ _ _ => true
  | .and _ _ _ _ => true
  | .or _ _ _ _ => true
  | .xor _ _ _ _ => true
  | .andn _ _ _ _ => true
  | .shl _ _ _ _ => true
  | .shr _ _ _ _ => true
  | .sra _ _ _ _ => true
  | .min _ _ _ _ _ => true
  | .max _ _ _ _ _ => true
  | .sel _ _ _ _ _ => true
  | .addi _ _ _ _ => true
  | .andi _ _ _ _ => true
  | .ori _ _ _ _ => true
  | .xori _ _ _ _ => true
  | .shli _ _ _ _ => true
  | .shri _ _ _ _ => true
  | .srai _ _ _ _ => true
  | .muli _ _ _ _ => true
  | .cmp _ _ _ _ _ => true
  | .cmpx _ _ _ _ _ => true
  | .pand _ _ _ _ => true
  | .por _ _ _ _ => true
  | .pxor _ _ _ _ => true
  | .pandn _ _ _ _ => true
  | .pset _ _ _ => true
  | .prd _ _ => true
  | .pwr _ _ => true
  | .li _ _ _ => true
  | .lit _ _ _ => true
  | .lith _ _ _ => true
  | .ld _ _ _ _ => true
  | .ldx _ _ _ _ _ _ => true
  | .st _ _ _ _ => true
  | .stx _ _ _ _ _ _ => true
  | .cvta _ _ _ _ => true
  | .isap _ _ _ _ => true
  | .br _ _ => true
  | .call _ _ => true
  | .jr _ _ => true
  | .loopb _ _ => true
  | .push _ _ _ => true
  | .pop _ _ _ => true
  | .peek _ _ _ => true
  | .qfence _ _ => true
  | .mfsr _ _ _ => true
  | .mtsr _ _ _ => true
  | .uret _ => true
  | .sext _ _ _ _ _ => true
  | .zext _ _ _ _ _ => true
  | .clz _ _ _ => true
  | .popc _ _ _ => true
  | .setlc _ _ _ => true
  | .setec _ _ _ => true
  | .setrot _ _ _ => true
  | .vSeta _ _ _ => true
  | .vAdd _ _ _ _ _ _ _ => true
  | .vSub _ _ _ _ _ _ _ => true
  | .vMul _ _ _ _ _ _ _ => true
  | .vDiv _ _ _ _ _ _ _ => true
  | .vFma _ _ _ _ _ _ _ => true
  | .vFms _ _ _ _ _ _ _ => true
  | .vFnma _ _ _ _ _ _ _ => true
  | .vMin _ _ _ _ _ _ _ => true
  | .vMax _ _ _ _ _ _ _ => true
  | .vAbs _ _ _ _ _ _ => true
  | .vNeg _ _ _ _ _ _ => true
  | .vSqrt _ _ _ _ _ => true
  | .vExp2 _ _ _ _ _ => true
  | .vLog2 _ _ _ _ _ => true
  | .vRecip _ _ _ _ _ => true
  | .vRsqrt _ _ _ _ _ => true
  | .vTanh _ _ _ _ _ => true
  | .vAnd _ _ _ _ _ => true
  | .vOr _ _ _ _ _ => true
  | .vXor _ _ _ _ _ => true
  | .vShl _ _ _ _ _ => true
  | .vShr _ _ _ _ _ => true
  | .vSra _ _ _ _ _ => true
  | .vMulh _ _ _ _ _ => true
  | .vCmpeq _ _ _ _ _ => true
  | .vCmpne _ _ _ _ _ => true
  | .vCmplt _ _ _ _ _ => true
  | .vCmple _ _ _ _ _ => true
  | .vSel _ _ _ _ _ => true
  | .vCvt _ _ _ _ _ _ _ => true
  | .vRsum _ _ _ _ _ _ => true
  | .vRmax _ _ _ _ => true
  | .vRmin _ _ _ _ => true
  | .vCopy _ _ _ _ => true
  | .vFill _ _ _ => true
  | .vIota _ _ _ _ _ => true
  | .vClamp _ _ _ _ => true
  | .vAddq _ _ _ _ _ _ => true
  | .vMulq _ _ _ _ _ _ => true
  | .vFmaq _ _ _ _ _ _ => true
  | .vGather _ _ _ _ _ => true
  | .vScatter _ _ _ _ _ => true
  | .vCnt _ _ _ _ => true
  | .mSett _ _ _ => true
  | .mMma _ _ _ _ => true
  | .mMmat _ _ _ _ => true
  | .mClr _ _ _ => true
  | .mCvt _ _ _ _ _ => true
  | .mBias _ _ _ => true
  | .mTr _ _ _ _ => true
  | .mScl _ _ _ => true
  | .mCopy _ _ _ _ => true
  | .mDrop _ => true
  | .mAdd _ _ _ => true
  | .mRelu _ _ => true
  | .rowSeta _ _ _ => true
  | .rowMax _ _ _ _ => true
  | .rowExpsum _ _ _ _ _ => true
  | .rowScale _ _ _ _ _ => true
  | .rowSoft _ _ _ _ => true
  | .rowSum _ _ _ _ => true
  | .rowNorm _ _ _ _ => true
  | .rowRms _ _ _ _ _ => true
  | .saSeta _ _ _ => true
  | .saAdd _ _ _ e w _ _ => decide ((e = true ∨ w.val = 0))
  | .saMin _ _ _ e w _ _ => decide ((e = true ∨ w.val = 0))
  | .saMax _ _ _ e w _ _ => decide ((e = true ∨ w.val = 0))
  | .saAnd _ _ _ e w _ _ => decide ((e = true ∨ w.val = 0))
  | .saOr _ _ _ e w _ _ => decide ((e = true ∨ w.val = 0))
  | .saXor _ _ _ e w _ _ => decide ((e = true ∨ w.val = 0))
  | .saSwap _ _ _ e w _ _ => decide ((e = true ∨ w.val = 0))
  | .saCas _ _ _ _ _ _ => true
  | .saCnt _ _ _ e w _ => decide ((e = true ∨ w.val = 0))
  | .saScope _ _ => true
  | .saFlush _ => true
  | .xLdshape _ _ _ => true
  | .xEvict _ _ _ => true
  | .xLd1 _ _ _ => true
  | .xSt1 _ _ _ => true
  | .xCp1 _ _ => true
  | .xLd2 _ _ _ => true
  | .xSt2 _ _ _ => true
  | .xCp2 _ _ => true
  | .xLd3 _ _ _ => true
  | .xSt3 _ _ _ => true
  | .xCp3 _ _ => true
  | .xLd4 _ _ _ => true
  | .xSt4 _ _ _ => true
  | .xCp4 _ _ => true
  | .xDact _ _ => true
  | .xDpre _ _ => true
  | .xDref _ _ => true
  | .xFld _ _ _ c k => decide ((c.val ≠ 0 ∨ k.val = 0))
  | .xFst _ _ _ => true
  | .xTrun _ _ => true
  | .xTok _ _ => true
  | .xLpow _ _ _ => true
  | .lpLdtab _ _ => true
  | .lpDone _ => true
  | .lpSchedw _ _ => true
  | .lpSchedr _ _ u r _ => decide ((u = true ∨ r.val = 0))
  | .lpCov _ _ u r => decide ((u = true ∨ r.val = 0))
  | .lpCovrd _ _ u r => decide ((u = true ∨ r.val = 0))
  | .lpGen _ u r => decide ((u = true ∨ r.val = 0))
  | .lpStat _ u r => decide ((u = true ∨ r.val = 0))
  | .lpAddp _ _ => true
  | .lpPend _ u r => decide ((u = true ∨ r.val = 0))
  | .lpPos _ _ u r => decide ((u = true ∨ r.val = 0))
  | .lpDrain _ => true
  | .lpPermits _ u r => decide ((u = true ∨ r.val = 0))
  | .lpRec _ u r => decide ((u = true ∨ r.val = 0))
  | .sArm _ _ _ => true
  | .sArmc _ _ _ => true
  | .sDisarm _ _ => true
  | .sSig _ _ => true
  | .sWait _ _ u r => decide ((u = true ∨ r.val = 0))
  | .sWaitn _ _ => true
  | .sBstat _ _ u r => decide ((u = true ∨ r.val = 0))
  | .sFnew _ _ => true
  | .sFjoin _ _ => true
  | .sFres _ _ => true
  | .sFpeek _ _ u r => decide ((u = true ∨ r.val = 0))
  | .sLaunch _ _ u r => decide ((u = true ∨ r.val = 0))
  | .sExit _ q k => decide ((k.val ≠ 0 ∨ q.val = 0))
  | .sHalt _ => true
  | .sPhase _ q n => decide ((n = true ∨ q.val = 0))
  | .sQopen _ _ => true
  | .sQsplit _ _ => true
  | .sQret _ _ => true
  | .sWaitq _ u r _ => decide ((u = true ∨ r.val = 0))
  | .sQstat _ u r _ => decide ((u = true ∨ r.val = 0))
  | .sQclose _ _ => true
  | .sNpr _ _ => true
  | .sNprend _ => true
  | .sUev _ _ _ => true
  | .sTime _ _ => true
  | .sYield _ => true
  | .tsEnd => true
  | .tsSeti _ _ => true
  | .tsAddi _ _ _ => true
  | .tsAdd _ _ _ => true
  | .tsSetc _ _ => true
  | .tsLoop _ _ => true
  | .tsJmp _ => true
  | .tsSetb _ _ _ => true
  | .tsZexp _ _ => true
  | .tsZcmp _ _ _ => true
  | .tsMvlo _ _ _ => true
  | .tsMvhi _ _ _ => true
  | .tsWaitt _ => true
  | .tsPost _ _ => true
  | .tsFence => true
  | .tsBnz _ _ => true
  | .unassignedWord _ => true
  | .powerOn => true
  | .bridgeClaim => true
  | .bridgeClaimTimeout => true
  | .reset => true
  | .enabled => true
  | .nonce => true
  | .faultact => true
  | .tlbinv => true
  | .refwinWrite => true
  | .bankbudgetWrite => true
  | .bustimingWrite => true
  | .registerWrite => true
  | .hostMemoryRead => true
  | .hostMemoryWrite => true
  | .hostEnqueueWrite => true
  | .launchEnqueue => true
  | .dealerChoice => true
  | .gangReservation => true
  | .gangStart => true
  | .taskBoundary => true
  | .taskStart => true
  | .launchCompletion => true
  | .donenextDeferred => true
  | .taskStop => true
  | .imageSaveComplete => true
  | .taskResume => true
  | .waitingTaskReady => true
  | .fillerCollectiveWait => true
  | .fillerReturn => true
  | .futureCreate => true
  | .futureJoin => true
  | .futureResolve => true
  | .futurePoison => true
  | .entrySatisfaction => true
  | .borrowDebit => true
  | .borrowGrant => true
  | .weightReturn => true
  | .waitqComplete => true
  | .implicitExit => true
  | .barrierArm => true
  | .barrierDisarm => true
  | .barrierCount => true
  | .barrierWait => true
  | .syncAnswer => true
  | .notifyEventArrival => true
  | .eventTake => true
  | .phaseBoundary => true
  | .columnPowerDown => true
  | .columnPowerUp => true
  | .columnReset => true
  | .lpDealRecord => true
  | .coverageRegistration => true
  | .registrationAnswer => true
  | .coverageClaim => true
  | .claimAnswer => true
  | .rewriteWrite => true
  | .pendingNotice => true
  | .rewriteCommit => true
  | .commitNotice => true
  | .dealingComplete => true
  | .completionNotice => true
  | .endRecordPush => true
  | .copyCompletion => true
  | .passAccumulation => true
  | .saHomeUpdate => true
  | .tsProgramTurn => true
  | .tsProgramEnd => true
  | .bankPeriodStart => true
  | .forcedRefresh => true
  | .forcedRefreshEnd => true
  | .dramSensorReading => true
  | .layerWakeComplete => true
  | .layerPowerOff => true
  | .migrationService => true
  | .migrationComplete => true
  | .walkFill => true
  | .correctedRewrite => true
  | .deferredFault => true
  | .faultHandlerEnd => true
  | .faultTaken => true
  | .queueDeadlock => true
  | .formatUnderflow => true
  | .trapStreamTimeout => true
  | .regionOverrun => true
  | .repairWindow => true
  | .laneReplacement => true
  | .laneReplacementEnd => true
  | .talonReplacement => true
  | .talonReplacementEnd => true
  | .sliceRetired => true
  | .coreWithdrawn => true
  | .governorSample => true
  | .tokenPeriod => true
  | .thermalManagerAction => true
  | .thermalTrip => true
  | .throttleEnd => true
  | .telemetryRecord => true
  | .telemetryHostCopy => true
  | .ptpSyncSend => true
  | .ptpSyncArrival => true
  | .linkDelayMeasure => true
  | .todMessage => true
  | .ppsEdge => true
  | .ptmSteer => true
  | .timeSourceLoss => true
  | .flitReceive => true
  | .portDown => true
  | .portTrained => true
  | .routeRecompute => true
  | .engineWordStart => true
  | .resultLanding => true
  | .accessPoint => true
  | .microStep => true
  | .elementWriteLands => true
  | .dramCommandIssue => true
  | .tsDataPosting => true
  | .pcieLinkLoss => true

/-- Every field lies inside the instruction's limits; else the word raises 0x0103. -/
def Instr.limitsOk : Instr → Bool
  | .trailerWord _ => true
  | .nop _ => true
  | .add _ _ _ _ => true
  | .sub _ _ _ _ => true
  | .mul _ _ _ _ => true
  | .mulh _ _ _ _ _ => true
  | .div _ _ _ _ _ => true
  | .rem _ _ _ _ _ => true
  | .and _ _ _ _ => true
  | .or _ _ _ _ => true
  | .xor _ _ _ _ => true
  | .andn _ _ _ _ => true
  | .shl _ _ _ _ => true
  | .shr _ _ _ _ => true
  | .sra _ _ _ _ => true
  | .min _ _ _ _ _ => true
  | .max _ _ _ _ _ => true
  | .sel _ _ _ _ _ => true
  | .addi _ _ _ _ => true
  | .andi _ _ _ _ => true
  | .ori _ _ _ _ => true
  | .xori _ _ _ _ => true
  | .shli _ _ _ _ => true
  | .shri _ _ _ _ => true
  | .srai _ _ _ _ => true
  | .muli _ _ _ _ => true
  | .cmp _ _ _ _ c => decide (c.val ≤ 5)
  | .cmpx _ _ _ c _ => decide (c.val ≤ 5)
  | .pand _ _ _ _ => true
  | .por _ _ _ _ => true
  | .pxor _ _ _ _ => true
  | .pandn _ _ _ _ => true
  | .pset _ _ _ => true
  | .prd _ _ => true
  | .pwr _ _ => true
  | .li _ _ _ => true
  | .lit _ _ _ => true
  | .lith _ _ _ => true
  | .ld _ _ _ _ => true
  | .ldx _ _ _ _ _ _ => true
  | .st _ _ _ _ => true
  | .stx _ _ _ _ _ _ => true
  | .cvta _ _ _ _ => true
  | .isap _ _ _ _ => true
  | .br _ _ => true
  | .call _ _ => true
  | .jr _ _ => true
  | .loopb _ _ => true
  | .push _ _ _ => true
  | .pop _ _ _ => true
  | .peek _ _ _ => true
  | .qfence _ _ => true
  | .mfsr _ _ n => decide (sysRegNumber n.val = true)
  | .mtsr _ _ n => decide (sysRegNumber n.val = true)
  | .uret _ => true
  | .sext _ _ _ _ _ => true
  | .zext _ _ _ _ _ => true
  | .clz _ _ _ => true
  | .popc _ _ _ => true
  | .setlc _ _ _ => true
  | .setec _ _ _ => true
  | .setrot _ _ _ => true
  | .vSeta _ _ _ => true
  | .vAdd _ t r _ _ s _ => decide (takesArith t = true ∧ roundingOk t r = true ∧ satOk t s = true)
  | .vSub _ t r _ _ s _ => decide (takesArith t = true ∧ roundingOk t r = true ∧ satOk t s = true)
  | .vMul _ t r _ _ s _ => decide (takesArith t = true ∧ roundingOk t r = true ∧ satOk t s = true)
  | .vDiv _ t r _ _ s _ => decide (takesArith t = true ∧ roundingOk t r = true ∧ satOk t s = true)
  | .vFma _ t r _ _ s _ => decide (takesArith t = true ∧ roundingOk t r = true ∧ satOk t s = true)
  | .vFms _ t r _ _ s _ => decide (takesArith t = true ∧ roundingOk t r = true ∧ satOk t s = true)
  | .vFnma _ t r _ _ s _ => decide (takesArith t = true ∧ roundingOk t r = true ∧ satOk t s = true)
  | .vMin _ t r _ _ s _ => decide (takesArith t = true ∧ roundingOk t r = true ∧ satOk t s = true)
  | .vMax _ t r _ _ s _ => decide (takesArith t = true ∧ roundingOk t r = true ∧ satOk t s = true)
  | .vAbs _ t r _ _ s => decide (takesArith t = true ∧ roundingOk t r = true ∧ satOk t s = true)
  | .vNeg _ t r _ _ s => decide (takesArith t = true ∧ roundingOk t r = true ∧ satOk t s = true)
  | .vSqrt _ t r _ _ => decide (takesHalf t = true ∧ roundingOk t r = true)
  | .vExp2 _ t r _ _ => decide (takesHalf t = true ∧ roundingOk t r = true)
  | .vLog2 _ t r _ _ => decide (takesHalf t = true ∧ roundingOk t r = true)
  | .vRecip _ t r _ _ => decide (takesHalf t = true ∧ roundingOk t r = true)
  | .vRsqrt _ t r _ _ => decide (takesHalf t = true ∧ roundingOk t r = true)
  | .vTanh _ t r _ _ => decide (takesHalf t = true ∧ roundingOk t r = true)
  | .vAnd _ t _ _ _ => decide (takesInt t = true)
  | .vOr _ t _ _ _ => decide (takesInt t = true)
  | .vXor _ t _ _ _ => decide (takesInt t = true)
  | .vShl _ t _ _ _ => decide (takesInt t = true)
  | .vShr _ t _ _ _ => decide (takesInt t = true)
  | .vSra _ t _ _ _ => decide (takesInt t = true)
  | .vMulh _ t _ _ _ => decide (takesInt t = true)
  | .vCmpeq _ t _ _ _ => decide (takesArith t = true)
  | .vCmpne _ t _ _ _ => decide (takesArith t = true)
  | .vCmplt _ t _ _ _ => decide (takesArith t = true)
  | .vCmple _ t _ _ _ => decide (takesArith t = true)
  | .vSel _ _ _ _ _ => true
  | .vCvt _ t _ _ _ s _ => decide (satOk t s = true)
  | .vRsum _ t r _ _ s => decide (takesArith t = true ∧ roundingOk t r = true ∧ satOk t s = true)
  | .vRmax _ t _ _ => decide (takesArith t = true)
  | .vRmin _ t _ _ => decide (takesArith t = true)
  | .vCopy _ _ _ _ => true
  | .vFill _ _ _ => true
  | .vIota _ _ _ _ _ => true
  | .vClamp _ _ _ _ => true
  | .vAddq _ _ _ _ _ _ => true
  | .vMulq _ _ _ _ _ _ => true
  | .vFmaq _ _ _ _ _ _ => true
  | .vGather _ _ _ _ _ => true
  | .vScatter _ _ _ _ _ => true
  | .vCnt _ t _ _ => decide (takesInt t = true)
  | .mSett _ _ _ => true
  | .mMma _ _ _ _ => true
  | .mMmat _ _ _ _ => true
  | .mClr _ t _ => decide (takesPlain t = true)
  | .mCvt _ t _ _ s => decide (takesFloat t = true ∧ satOk t s = true)
  | .mBias _ _ _ => true
  | .mTr _ t _ _ => decide (takesTr t = true)
  | .mScl _ _ _ => true
  | .mCopy _ t _ _ => decide (takesPlain t = true)
  | .mDrop _ => true
  | .mAdd _ _ _ => true
  | .mRelu _ _ => true
  | .rowSeta _ _ _ => true
  | .rowMax _ _ _ _ => true
  | .rowExpsum _ _ _ _ _ => true
  | .rowScale _ _ _ _ _ => true
  | .rowSoft _ _ _ _ => true
  | .rowSum _ _ _ _ => true
  | .rowNorm _ _ _ _ => true
  | .rowRms _ _ _ _ _ => true
  | .saSeta _ _ _ => true
  | .saAdd _ _ s _ _ _ _ => decide (s.val ≤ 5)
  | .saMin _ _ s _ _ _ _ => decide (s.val ≤ 5)
  | .saMax _ _ s _ _ _ _ => decide (s.val ≤ 5)
  | .saAnd _ _ s _ _ _ _ => decide (s.val ≤ 5)
  | .saOr _ _ s _ _ _ _ => decide (s.val ≤ 5)
  | .saXor _ _ s _ _ _ _ => decide (s.val ≤ 5)
  | .saSwap _ _ s _ _ _ _ => decide (s.val ≤ 5)
  | .saCas _ _ s _ _ _ => decide (s.val ≤ 5)
  | .saCnt _ _ s _ _ _ => decide (s.val ≤ 5)
  | .saScope _ s => decide (s.val ≤ 5)
  | .saFlush _ => true
  | .xLdshape _ q _ => decide (q.val ≤ 13)
  | .xEvict _ q _ => decide (q.val ≤ 13)
  | .xLd1 _ q _ => decide (q.val ≤ 13)
  | .xSt1 _ q _ => decide (q.val ≤ 13)
  | .xCp1 _ q => decide (q.val ≤ 13)
  | .xLd2 _ q _ => decide (q.val ≤ 13)
  | .xSt2 _ q _ => decide (q.val ≤ 13)
  | .xCp2 _ q => decide (q.val ≤ 13)
  | .xLd3 _ q _ => decide (q.val ≤ 13)
  | .xSt3 _ q _ => decide (q.val ≤ 13)
  | .xCp3 _ q => decide (q.val ≤ 13)
  | .xLd4 _ q _ => decide (q.val ≤ 13)
  | .xSt4 _ q _ => decide (q.val ≤ 13)
  | .xCp4 _ q => decide (q.val ≤ 13)
  | .xDact _ q => decide (q.val ≤ 13)
  | .xDpre _ q => decide (q.val ≤ 13)
  | .xDref _ q => decide (q.val ≤ 13)
  | .xFld _ q _ c _ => decide (q.val ≤ 13 ∧ c.val ≤ 4)
  | .xFst _ q _ => decide (q.val ≤ 13)
  | .xTrun _ q => decide (q.val ≤ 13)
  | .xTok _ _ => true
  | .xLpow _ l _ => decide ((l.val = 2 ∨ l.val = 3))
  | .lpLdtab _ q => decide (q.val ≤ 13)
  | .lpDone _ => true
  | .lpSchedw _ q => decide (q.val ≤ 13)
  | .lpSchedr _ q _ r _ => decide (q.val ≤ 13 ∧ r.val ≤ 13)
  | .lpCov _ q _ r => decide (q.val ≤ 13 ∧ r.val ≤ 13)
  | .lpCovrd _ q _ r => decide (q.val ≤ 13 ∧ r.val ≤ 13)
  | .lpGen _ _ r => decide (r.val ≤ 13)
  | .lpStat _ _ r => decide (r.val ≤ 13)
  | .lpAddp _ q => decide (q.val ≤ 13)
  | .lpPend _ _ r => decide (r.val ≤ 13)
  | .lpPos _ q _ r => decide (q.val ≤ 13 ∧ r.val ≤ 13)
  | .lpDrain _ => true
  | .lpPermits _ _ r => decide (r.val ≤ 13)
  | .lpRec _ _ r => decide (r.val ≤ 13)
  | .sArm _ q _ => decide (q.val ≤ 13)
  | .sArmc _ q _ => decide (q.val ≤ 13)
  | .sDisarm _ q => decide (q.val ≤ 13)
  | .sSig _ q => decide (q.val ≤ 13)
  | .sWait _ q _ r => decide (q.val ≤ 13 ∧ r.val ≤ 13)
  | .sWaitn _ q => decide (q.val ≤ 13)
  | .sBstat _ q _ r => decide (q.val ≤ 13 ∧ r.val ≤ 13)
  | .sFnew _ q => decide (q.val ≤ 13)
  | .sFjoin _ q => decide (q.val ≤ 13)
  | .sFres _ q => decide (q.val ≤ 13)
  | .sFpeek _ q _ r => decide (q.val ≤ 13 ∧ r.val ≤ 13)
  | .sLaunch _ q _ r => decide (q.val ≤ 13 ∧ r.val ≤ 13)
  | .sExit _ q k => decide (q.val ≤ 13 ∧ k.val ≤ 4)
  | .sHalt _ => true
  | .sPhase _ q _ => decide (q.val ≤ 13)
  | .sQopen _ _ => true
  | .sQsplit _ q => decide (q.val ≤ 13)
  | .sQret _ q => decide (q.val ≤ 13)
  | .sWaitq _ _ r _ => decide (r.val ≤ 13)
  | .sQstat _ _ r _ => decide (r.val ≤ 13)
  | .sQclose _ _ => true
  | .sNpr _ x => decide ((1 ≤ x.toNat ∧ x.toNat ≤ 65536))
  | .sNprend _ => true
  | .sUev _ c _ => decide (c.val ≤ 2)
  | .sTime _ r => decide (r.val ≤ 13)
  | .sYield _ => true
  | .tsEnd => true
  | .tsSeti _ _ => true
  | .tsAddi _ _ _ => true
  | .tsAdd _ _ _ => true
  | .tsSetc _ _ => true
  | .tsLoop _ _ => true
  | .tsJmp _ => true
  | .tsSetb _ _ _ => true
  | .tsZexp _ _ => true
  | .tsZcmp _ _ _ => true
  | .tsMvlo _ _ _ => true
  | .tsMvhi _ _ _ => true
  | .tsWaitt _ => true
  | .tsPost _ _ => true
  | .tsFence => true
  | .tsBnz _ _ => true
  | .unassignedWord _ => true
  | .powerOn => true
  | .bridgeClaim => true
  | .bridgeClaimTimeout => true
  | .reset => true
  | .enabled => true
  | .nonce => true
  | .faultact => true
  | .tlbinv => true
  | .refwinWrite => true
  | .bankbudgetWrite => true
  | .bustimingWrite => true
  | .registerWrite => true
  | .hostMemoryRead => true
  | .hostMemoryWrite => true
  | .hostEnqueueWrite => true
  | .launchEnqueue => true
  | .dealerChoice => true
  | .gangReservation => true
  | .gangStart => true
  | .taskBoundary => true
  | .taskStart => true
  | .launchCompletion => true
  | .donenextDeferred => true
  | .taskStop => true
  | .imageSaveComplete => true
  | .taskResume => true
  | .waitingTaskReady => true
  | .fillerCollectiveWait => true
  | .fillerReturn => true
  | .futureCreate => true
  | .futureJoin => true
  | .futureResolve => true
  | .futurePoison => true
  | .entrySatisfaction => true
  | .borrowDebit => true
  | .borrowGrant => true
  | .weightReturn => true
  | .waitqComplete => true
  | .implicitExit => true
  | .barrierArm => true
  | .barrierDisarm => true
  | .barrierCount => true
  | .barrierWait => true
  | .syncAnswer => true
  | .notifyEventArrival => true
  | .eventTake => true
  | .phaseBoundary => true
  | .columnPowerDown => true
  | .columnPowerUp => true
  | .columnReset => true
  | .lpDealRecord => true
  | .coverageRegistration => true
  | .registrationAnswer => true
  | .coverageClaim => true
  | .claimAnswer => true
  | .rewriteWrite => true
  | .pendingNotice => true
  | .rewriteCommit => true
  | .commitNotice => true
  | .dealingComplete => true
  | .completionNotice => true
  | .endRecordPush => true
  | .copyCompletion => true
  | .passAccumulation => true
  | .saHomeUpdate => true
  | .tsProgramTurn => true
  | .tsProgramEnd => true
  | .bankPeriodStart => true
  | .forcedRefresh => true
  | .forcedRefreshEnd => true
  | .dramSensorReading => true
  | .layerWakeComplete => true
  | .layerPowerOff => true
  | .migrationService => true
  | .migrationComplete => true
  | .walkFill => true
  | .correctedRewrite => true
  | .deferredFault => true
  | .faultHandlerEnd => true
  | .faultTaken => true
  | .queueDeadlock => true
  | .formatUnderflow => true
  | .trapStreamTimeout => true
  | .regionOverrun => true
  | .repairWindow => true
  | .laneReplacement => true
  | .laneReplacementEnd => true
  | .talonReplacement => true
  | .talonReplacementEnd => true
  | .sliceRetired => true
  | .coreWithdrawn => true
  | .governorSample => true
  | .tokenPeriod => true
  | .thermalManagerAction => true
  | .thermalTrip => true
  | .throttleEnd => true
  | .telemetryRecord => true
  | .telemetryHostCopy => true
  | .ptpSyncSend => true
  | .ptpSyncArrival => true
  | .linkDelayMeasure => true
  | .todMessage => true
  | .ppsEdge => true
  | .ptmSteer => true
  | .timeSourceLoss => true
  | .flitReceive => true
  | .portDown => true
  | .portTrained => true
  | .routeRecompute => true
  | .engineWordStart => true
  | .resultLanding => true
  | .accessPoint => true
  | .microStep => true
  | .elementWriteLands => true
  | .dramCommandIssue => true
  | .tsDataPosting => true
  | .pcieLinkLoss => true

/-- The instruction is one: its fields are as its entry requires. -/
def Instr.wellFormed (i : Instr) : Bool := i.zerosOk && i.limitsOk

/-- The rows of the table that are words of a core's program. -/
def Instr.isCoreWord : Instr → Bool
  | .trailerWord _ => true
  | .nop _ => true
  | .add _ _ _ _ => true
  | .sub _ _ _ _ => true
  | .mul _ _ _ _ => true
  | .mulh _ _ _ _ _ => true
  | .div _ _ _ _ _ => true
  | .rem _ _ _ _ _ => true
  | .and _ _ _ _ => true
  | .or _ _ _ _ => true
  | .xor _ _ _ _ => true
  | .andn _ _ _ _ => true
  | .shl _ _ _ _ => true
  | .shr _ _ _ _ => true
  | .sra _ _ _ _ => true
  | .min _ _ _ _ _ => true
  | .max _ _ _ _ _ => true
  | .sel _ _ _ _ _ => true
  | .addi _ _ _ _ => true
  | .andi _ _ _ _ => true
  | .ori _ _ _ _ => true
  | .xori _ _ _ _ => true
  | .shli _ _ _ _ => true
  | .shri _ _ _ _ => true
  | .srai _ _ _ _ => true
  | .muli _ _ _ _ => true
  | .cmp _ _ _ _ _ => true
  | .cmpx _ _ _ _ _ => true
  | .pand _ _ _ _ => true
  | .por _ _ _ _ => true
  | .pxor _ _ _ _ => true
  | .pandn _ _ _ _ => true
  | .pset _ _ _ => true
  | .prd _ _ => true
  | .pwr _ _ => true
  | .li _ _ _ => true
  | .lit _ _ _ => true
  | .lith _ _ _ => true
  | .ld _ _ _ _ => true
  | .ldx _ _ _ _ _ _ => true
  | .st _ _ _ _ => true
  | .stx _ _ _ _ _ _ => true
  | .cvta _ _ _ _ => true
  | .isap _ _ _ _ => true
  | .br _ _ => true
  | .call _ _ => true
  | .jr _ _ => true
  | .loopb _ _ => true
  | .push _ _ _ => true
  | .pop _ _ _ => true
  | .peek _ _ _ => true
  | .qfence _ _ => true
  | .mfsr _ _ _ => true
  | .mtsr _ _ _ => true
  | .uret _ => true
  | .sext _ _ _ _ _ => true
  | .zext _ _ _ _ _ => true
  | .clz _ _ _ => true
  | .popc _ _ _ => true
  | .setlc _ _ _ => true
  | .setec _ _ _ => true
  | .setrot _ _ _ => true
  | .vSeta _ _ _ => true
  | .vAdd _ _ _ _ _ _ _ => true
  | .vSub _ _ _ _ _ _ _ => true
  | .vMul _ _ _ _ _ _ _ => true
  | .vDiv _ _ _ _ _ _ _ => true
  | .vFma _ _ _ _ _ _ _ => true
  | .vFms _ _ _ _ _ _ _ => true
  | .vFnma _ _ _ _ _ _ _ => true
  | .vMin _ _ _ _ _ _ _ => true
  | .vMax _ _ _ _ _ _ _ => true
  | .vAbs _ _ _ _ _ _ => true
  | .vNeg _ _ _ _ _ _ => true
  | .vSqrt _ _ _ _ _ => true
  | .vExp2 _ _ _ _ _ => true
  | .vLog2 _ _ _ _ _ => true
  | .vRecip _ _ _ _ _ => true
  | .vRsqrt _ _ _ _ _ => true
  | .vTanh _ _ _ _ _ => true
  | .vAnd _ _ _ _ _ => true
  | .vOr _ _ _ _ _ => true
  | .vXor _ _ _ _ _ => true
  | .vShl _ _ _ _ _ => true
  | .vShr _ _ _ _ _ => true
  | .vSra _ _ _ _ _ => true
  | .vMulh _ _ _ _ _ => true
  | .vCmpeq _ _ _ _ _ => true
  | .vCmpne _ _ _ _ _ => true
  | .vCmplt _ _ _ _ _ => true
  | .vCmple _ _ _ _ _ => true
  | .vSel _ _ _ _ _ => true
  | .vCvt _ _ _ _ _ _ _ => true
  | .vRsum _ _ _ _ _ _ => true
  | .vRmax _ _ _ _ => true
  | .vRmin _ _ _ _ => true
  | .vCopy _ _ _ _ => true
  | .vFill _ _ _ => true
  | .vIota _ _ _ _ _ => true
  | .vClamp _ _ _ _ => true
  | .vAddq _ _ _ _ _ _ => true
  | .vMulq _ _ _ _ _ _ => true
  | .vFmaq _ _ _ _ _ _ => true
  | .vGather _ _ _ _ _ => true
  | .vScatter _ _ _ _ _ => true
  | .vCnt _ _ _ _ => true
  | .mSett _ _ _ => true
  | .mMma _ _ _ _ => true
  | .mMmat _ _ _ _ => true
  | .mClr _ _ _ => true
  | .mCvt _ _ _ _ _ => true
  | .mBias _ _ _ => true
  | .mTr _ _ _ _ => true
  | .mScl _ _ _ => true
  | .mCopy _ _ _ _ => true
  | .mDrop _ => true
  | .mAdd _ _ _ => true
  | .mRelu _ _ => true
  | .rowSeta _ _ _ => true
  | .rowMax _ _ _ _ => true
  | .rowExpsum _ _ _ _ _ => true
  | .rowScale _ _ _ _ _ => true
  | .rowSoft _ _ _ _ => true
  | .rowSum _ _ _ _ => true
  | .rowNorm _ _ _ _ => true
  | .rowRms _ _ _ _ _ => true
  | .saSeta _ _ _ => true
  | .saAdd _ _ _ _ _ _ _ => true
  | .saMin _ _ _ _ _ _ _ => true
  | .saMax _ _ _ _ _ _ _ => true
  | .saAnd _ _ _ _ _ _ _ => true
  | .saOr _ _ _ _ _ _ _ => true
  | .saXor _ _ _ _ _ _ _ => true
  | .saSwap _ _ _ _ _ _ _ => true
  | .saCas _ _ _ _ _ _ => true
  | .saCnt _ _ _ _ _ _ => true
  | .saScope _ _ => true
  | .saFlush _ => true
  | .xLdshape _ _ _ => true
  | .xEvict _ _ _ => true
  | .xLd1 _ _ _ => true
  | .xSt1 _ _ _ => true
  | .xCp1 _ _ => true
  | .xLd2 _ _ _ => true
  | .xSt2 _ _ _ => true
  | .xCp2 _ _ => true
  | .xLd3 _ _ _ => true
  | .xSt3 _ _ _ => true
  | .xCp3 _ _ => true
  | .xLd4 _ _ _ => true
  | .xSt4 _ _ _ => true
  | .xCp4 _ _ => true
  | .xDact _ _ => true
  | .xDpre _ _ => true
  | .xDref _ _ => true
  | .xFld _ _ _ _ _ => true
  | .xFst _ _ _ => true
  | .xTrun _ _ => true
  | .xTok _ _ => true
  | .xLpow _ _ _ => true
  | .lpLdtab _ _ => true
  | .lpDone _ => true
  | .lpSchedw _ _ => true
  | .lpSchedr _ _ _ _ _ => true
  | .lpCov _ _ _ _ => true
  | .lpCovrd _ _ _ _ => true
  | .lpGen _ _ _ => true
  | .lpStat _ _ _ => true
  | .lpAddp _ _ => true
  | .lpPend _ _ _ => true
  | .lpPos _ _ _ _ => true
  | .lpDrain _ => true
  | .lpPermits _ _ _ => true
  | .lpRec _ _ _ => true
  | .sArm _ _ _ => true
  | .sArmc _ _ _ => true
  | .sDisarm _ _ => true
  | .sSig _ _ => true
  | .sWait _ _ _ _ => true
  | .sWaitn _ _ => true
  | .sBstat _ _ _ _ => true
  | .sFnew _ _ => true
  | .sFjoin _ _ => true
  | .sFres _ _ => true
  | .sFpeek _ _ _ _ => true
  | .sLaunch _ _ _ _ => true
  | .sExit _ _ _ => true
  | .sHalt _ => true
  | .sPhase _ _ _ => true
  | .sQopen _ _ => true
  | .sQsplit _ _ => true
  | .sQret _ _ => true
  | .sWaitq _ _ _ _ => true
  | .sQstat _ _ _ _ => true
  | .sQclose _ _ => true
  | .sNpr _ _ => true
  | .sNprend _ => true
  | .sUev _ _ _ => true
  | .sTime _ _ => true
  | .sYield _ => true
  | .tsEnd => false
  | .tsSeti _ _ => false
  | .tsAddi _ _ _ => false
  | .tsAdd _ _ _ => false
  | .tsSetc _ _ => false
  | .tsLoop _ _ => false
  | .tsJmp _ => false
  | .tsSetb _ _ _ => false
  | .tsZexp _ _ => false
  | .tsZcmp _ _ _ => false
  | .tsMvlo _ _ _ => false
  | .tsMvhi _ _ _ => false
  | .tsWaitt _ => false
  | .tsPost _ _ => false
  | .tsFence => false
  | .tsBnz _ _ => false
  | .unassignedWord _ => false
  | .powerOn => false
  | .bridgeClaim => false
  | .bridgeClaimTimeout => false
  | .reset => false
  | .enabled => false
  | .nonce => false
  | .faultact => false
  | .tlbinv => false
  | .refwinWrite => false
  | .bankbudgetWrite => false
  | .bustimingWrite => false
  | .registerWrite => false
  | .hostMemoryRead => false
  | .hostMemoryWrite => false
  | .hostEnqueueWrite => false
  | .launchEnqueue => false
  | .dealerChoice => false
  | .gangReservation => false
  | .gangStart => false
  | .taskBoundary => false
  | .taskStart => false
  | .launchCompletion => false
  | .donenextDeferred => false
  | .taskStop => false
  | .imageSaveComplete => false
  | .taskResume => false
  | .waitingTaskReady => false
  | .fillerCollectiveWait => false
  | .fillerReturn => false
  | .futureCreate => false
  | .futureJoin => false
  | .futureResolve => false
  | .futurePoison => false
  | .entrySatisfaction => false
  | .borrowDebit => false
  | .borrowGrant => false
  | .weightReturn => false
  | .waitqComplete => false
  | .implicitExit => false
  | .barrierArm => false
  | .barrierDisarm => false
  | .barrierCount => false
  | .barrierWait => false
  | .syncAnswer => false
  | .notifyEventArrival => false
  | .eventTake => false
  | .phaseBoundary => false
  | .columnPowerDown => false
  | .columnPowerUp => false
  | .columnReset => false
  | .lpDealRecord => false
  | .coverageRegistration => false
  | .registrationAnswer => false
  | .coverageClaim => false
  | .claimAnswer => false
  | .rewriteWrite => false
  | .pendingNotice => false
  | .rewriteCommit => false
  | .commitNotice => false
  | .dealingComplete => false
  | .completionNotice => false
  | .endRecordPush => false
  | .copyCompletion => false
  | .passAccumulation => false
  | .saHomeUpdate => false
  | .tsProgramTurn => false
  | .tsProgramEnd => false
  | .bankPeriodStart => false
  | .forcedRefresh => false
  | .forcedRefreshEnd => false
  | .dramSensorReading => false
  | .layerWakeComplete => false
  | .layerPowerOff => false
  | .migrationService => false
  | .migrationComplete => false
  | .walkFill => false
  | .correctedRewrite => false
  | .deferredFault => false
  | .faultHandlerEnd => false
  | .faultTaken => false
  | .queueDeadlock => false
  | .formatUnderflow => false
  | .trapStreamTimeout => false
  | .regionOverrun => false
  | .repairWindow => false
  | .laneReplacement => false
  | .laneReplacementEnd => false
  | .talonReplacement => false
  | .talonReplacementEnd => false
  | .sliceRetired => false
  | .coreWithdrawn => false
  | .governorSample => false
  | .tokenPeriod => false
  | .thermalManagerAction => false
  | .thermalTrip => false
  | .throttleEnd => false
  | .telemetryRecord => false
  | .telemetryHostCopy => false
  | .ptpSyncSend => false
  | .ptpSyncArrival => false
  | .linkDelayMeasure => false
  | .todMessage => false
  | .ppsEdge => false
  | .ptmSteer => false
  | .timeSourceLoss => false
  | .flitReceive => false
  | .portDown => false
  | .portTrained => false
  | .routeRecompute => false
  | .engineWordStart => false
  | .resultLanding => false
  | .accessPoint => false
  | .microStep => false
  | .elementWriteLands => false
  | .dramCommandIssue => false
  | .tsDataPosting => false
  | .pcieLinkLoss => false

/-- The rows of the table that are words of a transform program. -/
def Instr.isTsWord : Instr → Bool
  | .trailerWord _ => false
  | .nop _ => false
  | .add _ _ _ _ => false
  | .sub _ _ _ _ => false
  | .mul _ _ _ _ => false
  | .mulh _ _ _ _ _ => false
  | .div _ _ _ _ _ => false
  | .rem _ _ _ _ _ => false
  | .and _ _ _ _ => false
  | .or _ _ _ _ => false
  | .xor _ _ _ _ => false
  | .andn _ _ _ _ => false
  | .shl _ _ _ _ => false
  | .shr _ _ _ _ => false
  | .sra _ _ _ _ => false
  | .min _ _ _ _ _ => false
  | .max _ _ _ _ _ => false
  | .sel _ _ _ _ _ => false
  | .addi _ _ _ _ => false
  | .andi _ _ _ _ => false
  | .ori _ _ _ _ => false
  | .xori _ _ _ _ => false
  | .shli _ _ _ _ => false
  | .shri _ _ _ _ => false
  | .srai _ _ _ _ => false
  | .muli _ _ _ _ => false
  | .cmp _ _ _ _ _ => false
  | .cmpx _ _ _ _ _ => false
  | .pand _ _ _ _ => false
  | .por _ _ _ _ => false
  | .pxor _ _ _ _ => false
  | .pandn _ _ _ _ => false
  | .pset _ _ _ => false
  | .prd _ _ => false
  | .pwr _ _ => false
  | .li _ _ _ => false
  | .lit _ _ _ => false
  | .lith _ _ _ => false
  | .ld _ _ _ _ => false
  | .ldx _ _ _ _ _ _ => false
  | .st _ _ _ _ => false
  | .stx _ _ _ _ _ _ => false
  | .cvta _ _ _ _ => false
  | .isap _ _ _ _ => false
  | .br _ _ => false
  | .call _ _ => false
  | .jr _ _ => false
  | .loopb _ _ => false
  | .push _ _ _ => false
  | .pop _ _ _ => false
  | .peek _ _ _ => false
  | .qfence _ _ => false
  | .mfsr _ _ _ => false
  | .mtsr _ _ _ => false
  | .uret _ => false
  | .sext _ _ _ _ _ => false
  | .zext _ _ _ _ _ => false
  | .clz _ _ _ => false
  | .popc _ _ _ => false
  | .setlc _ _ _ => false
  | .setec _ _ _ => false
  | .setrot _ _ _ => false
  | .vSeta _ _ _ => false
  | .vAdd _ _ _ _ _ _ _ => false
  | .vSub _ _ _ _ _ _ _ => false
  | .vMul _ _ _ _ _ _ _ => false
  | .vDiv _ _ _ _ _ _ _ => false
  | .vFma _ _ _ _ _ _ _ => false
  | .vFms _ _ _ _ _ _ _ => false
  | .vFnma _ _ _ _ _ _ _ => false
  | .vMin _ _ _ _ _ _ _ => false
  | .vMax _ _ _ _ _ _ _ => false
  | .vAbs _ _ _ _ _ _ => false
  | .vNeg _ _ _ _ _ _ => false
  | .vSqrt _ _ _ _ _ => false
  | .vExp2 _ _ _ _ _ => false
  | .vLog2 _ _ _ _ _ => false
  | .vRecip _ _ _ _ _ => false
  | .vRsqrt _ _ _ _ _ => false
  | .vTanh _ _ _ _ _ => false
  | .vAnd _ _ _ _ _ => false
  | .vOr _ _ _ _ _ => false
  | .vXor _ _ _ _ _ => false
  | .vShl _ _ _ _ _ => false
  | .vShr _ _ _ _ _ => false
  | .vSra _ _ _ _ _ => false
  | .vMulh _ _ _ _ _ => false
  | .vCmpeq _ _ _ _ _ => false
  | .vCmpne _ _ _ _ _ => false
  | .vCmplt _ _ _ _ _ => false
  | .vCmple _ _ _ _ _ => false
  | .vSel _ _ _ _ _ => false
  | .vCvt _ _ _ _ _ _ _ => false
  | .vRsum _ _ _ _ _ _ => false
  | .vRmax _ _ _ _ => false
  | .vRmin _ _ _ _ => false
  | .vCopy _ _ _ _ => false
  | .vFill _ _ _ => false
  | .vIota _ _ _ _ _ => false
  | .vClamp _ _ _ _ => false
  | .vAddq _ _ _ _ _ _ => false
  | .vMulq _ _ _ _ _ _ => false
  | .vFmaq _ _ _ _ _ _ => false
  | .vGather _ _ _ _ _ => false
  | .vScatter _ _ _ _ _ => false
  | .vCnt _ _ _ _ => false
  | .mSett _ _ _ => false
  | .mMma _ _ _ _ => false
  | .mMmat _ _ _ _ => false
  | .mClr _ _ _ => false
  | .mCvt _ _ _ _ _ => false
  | .mBias _ _ _ => false
  | .mTr _ _ _ _ => false
  | .mScl _ _ _ => false
  | .mCopy _ _ _ _ => false
  | .mDrop _ => false
  | .mAdd _ _ _ => false
  | .mRelu _ _ => false
  | .rowSeta _ _ _ => false
  | .rowMax _ _ _ _ => false
  | .rowExpsum _ _ _ _ _ => false
  | .rowScale _ _ _ _ _ => false
  | .rowSoft _ _ _ _ => false
  | .rowSum _ _ _ _ => false
  | .rowNorm _ _ _ _ => false
  | .rowRms _ _ _ _ _ => false
  | .saSeta _ _ _ => false
  | .saAdd _ _ _ _ _ _ _ => false
  | .saMin _ _ _ _ _ _ _ => false
  | .saMax _ _ _ _ _ _ _ => false
  | .saAnd _ _ _ _ _ _ _ => false
  | .saOr _ _ _ _ _ _ _ => false
  | .saXor _ _ _ _ _ _ _ => false
  | .saSwap _ _ _ _ _ _ _ => false
  | .saCas _ _ _ _ _ _ => false
  | .saCnt _ _ _ _ _ _ => false
  | .saScope _ _ => false
  | .saFlush _ => false
  | .xLdshape _ _ _ => false
  | .xEvict _ _ _ => false
  | .xLd1 _ _ _ => false
  | .xSt1 _ _ _ => false
  | .xCp1 _ _ => false
  | .xLd2 _ _ _ => false
  | .xSt2 _ _ _ => false
  | .xCp2 _ _ => false
  | .xLd3 _ _ _ => false
  | .xSt3 _ _ _ => false
  | .xCp3 _ _ => false
  | .xLd4 _ _ _ => false
  | .xSt4 _ _ _ => false
  | .xCp4 _ _ => false
  | .xDact _ _ => false
  | .xDpre _ _ => false
  | .xDref _ _ => false
  | .xFld _ _ _ _ _ => false
  | .xFst _ _ _ => false
  | .xTrun _ _ => false
  | .xTok _ _ => false
  | .xLpow _ _ _ => false
  | .lpLdtab _ _ => false
  | .lpDone _ => false
  | .lpSchedw _ _ => false
  | .lpSchedr _ _ _ _ _ => false
  | .lpCov _ _ _ _ => false
  | .lpCovrd _ _ _ _ => false
  | .lpGen _ _ _ => false
  | .lpStat _ _ _ => false
  | .lpAddp _ _ => false
  | .lpPend _ _ _ => false
  | .lpPos _ _ _ _ => false
  | .lpDrain _ => false
  | .lpPermits _ _ _ => false
  | .lpRec _ _ _ => false
  | .sArm _ _ _ => false
  | .sArmc _ _ _ => false
  | .sDisarm _ _ => false
  | .sSig _ _ => false
  | .sWait _ _ _ _ => false
  | .sWaitn _ _ => false
  | .sBstat _ _ _ _ => false
  | .sFnew _ _ => false
  | .sFjoin _ _ => false
  | .sFres _ _ => false
  | .sFpeek _ _ _ _ => false
  | .sLaunch _ _ _ _ => false
  | .sExit _ _ _ => false
  | .sHalt _ => false
  | .sPhase _ _ _ => false
  | .sQopen _ _ => false
  | .sQsplit _ _ => false
  | .sQret _ _ => false
  | .sWaitq _ _ _ _ => false
  | .sQstat _ _ _ _ => false
  | .sQclose _ _ => false
  | .sNpr _ _ => false
  | .sNprend _ => false
  | .sUev _ _ _ => false
  | .sTime _ _ => false
  | .sYield _ => false
  | .tsEnd => true
  | .tsSeti _ _ => true
  | .tsAddi _ _ _ => true
  | .tsAdd _ _ _ => true
  | .tsSetc _ _ => true
  | .tsLoop _ _ => true
  | .tsJmp _ => true
  | .tsSetb _ _ _ => true
  | .tsZexp _ _ => true
  | .tsZcmp _ _ _ => true
  | .tsMvlo _ _ _ => true
  | .tsMvhi _ _ _ => true
  | .tsWaitt _ => true
  | .tsPost _ _ => true
  | .tsFence => true
  | .tsBnz _ _ => true
  | .unassignedWord _ => false
  | .powerOn => false
  | .bridgeClaim => false
  | .bridgeClaimTimeout => false
  | .reset => false
  | .enabled => false
  | .nonce => false
  | .faultact => false
  | .tlbinv => false
  | .refwinWrite => false
  | .bankbudgetWrite => false
  | .bustimingWrite => false
  | .registerWrite => false
  | .hostMemoryRead => false
  | .hostMemoryWrite => false
  | .hostEnqueueWrite => false
  | .launchEnqueue => false
  | .dealerChoice => false
  | .gangReservation => false
  | .gangStart => false
  | .taskBoundary => false
  | .taskStart => false
  | .launchCompletion => false
  | .donenextDeferred => false
  | .taskStop => false
  | .imageSaveComplete => false
  | .taskResume => false
  | .waitingTaskReady => false
  | .fillerCollectiveWait => false
  | .fillerReturn => false
  | .futureCreate => false
  | .futureJoin => false
  | .futureResolve => false
  | .futurePoison => false
  | .entrySatisfaction => false
  | .borrowDebit => false
  | .borrowGrant => false
  | .weightReturn => false
  | .waitqComplete => false
  | .implicitExit => false
  | .barrierArm => false
  | .barrierDisarm => false
  | .barrierCount => false
  | .barrierWait => false
  | .syncAnswer => false
  | .notifyEventArrival => false
  | .eventTake => false
  | .phaseBoundary => false
  | .columnPowerDown => false
  | .columnPowerUp => false
  | .columnReset => false
  | .lpDealRecord => false
  | .coverageRegistration => false
  | .registrationAnswer => false
  | .coverageClaim => false
  | .claimAnswer => false
  | .rewriteWrite => false
  | .pendingNotice => false
  | .rewriteCommit => false
  | .commitNotice => false
  | .dealingComplete => false
  | .completionNotice => false
  | .endRecordPush => false
  | .copyCompletion => false
  | .passAccumulation => false
  | .saHomeUpdate => false
  | .tsProgramTurn => false
  | .tsProgramEnd => false
  | .bankPeriodStart => false
  | .forcedRefresh => false
  | .forcedRefreshEnd => false
  | .dramSensorReading => false
  | .layerWakeComplete => false
  | .layerPowerOff => false
  | .migrationService => false
  | .migrationComplete => false
  | .walkFill => false
  | .correctedRewrite => false
  | .deferredFault => false
  | .faultHandlerEnd => false
  | .faultTaken => false
  | .queueDeadlock => false
  | .formatUnderflow => false
  | .trapStreamTimeout => false
  | .regionOverrun => false
  | .repairWindow => false
  | .laneReplacement => false
  | .laneReplacementEnd => false
  | .talonReplacement => false
  | .talonReplacementEnd => false
  | .sliceRetired => false
  | .coreWithdrawn => false
  | .governorSample => false
  | .tokenPeriod => false
  | .thermalManagerAction => false
  | .thermalTrip => false
  | .throttleEnd => false
  | .telemetryRecord => false
  | .telemetryHostCopy => false
  | .ptpSyncSend => false
  | .ptpSyncArrival => false
  | .linkDelayMeasure => false
  | .todMessage => false
  | .ppsEdge => false
  | .ptmSteer => false
  | .timeSourceLoss => false
  | .flitReceive => false
  | .portDown => false
  | .portTrained => false
  | .routeRecompute => false
  | .engineWordStart => false
  | .resultLanding => false
  | .accessPoint => false
  | .microStep => false
  | .elementWriteLands => false
  | .dramCommandIssue => false
  | .tsDataPosting => false
  | .pcieLinkLoss => false

end Sys2Proof
end

