-- ==== Sys2Proof/Decode.lean ====
section
/-! DEFINITION. The words of the eight engines (R164 to R170) and of the transform sequencer (R262) as instructions,
total on every word and rejecting by name, and the encoder written from the same encodings. -/

namespace Sys2Proof

/-- Why a word is not an instruction (R170, R329): the code that its use raises. -/
inductive Reject where
  /-- fewer bits than an instruction has -/
  | short
  /-- an unassigned slot: 0x0101 -/
  | unassignedSlot
  /-- a field required zero is not zero: 0x0102 -/
  | requiredZero
  /-- a field value outside its limits: 0x0103 -/
  | outOfLimits
  deriving DecidableEq, Repr

/-- A word of an assigned slot: whether the operand bits its instruction does not use are zero, whether its fixed
fields hold what its entry requires, and the instruction its other fields give. -/
structure Slot where
  zeros : Bool
  fixed : Bool
  instr : Instr

/-- Engine 0, CTRL: the slots of R169. `w` is the head word and `x` its extension word. -/
def decodeCtrl (op w : Nat) (x : Word32) : Option Slot :=
  match op with
  | 0 => some ⟨fld 22 12 w == 0, true,
      .trailerWord (BitVec.ofNat 12 (fld 11 0 w))⟩
  | 1 => some ⟨fld 18 0 w == 0, true,
      .nop (Fin.ofNat 16 (fld 22 19 w))⟩
  | 2 => some ⟨fld 3 0 w == 0, true,
      .add (Fin.ofNat 16 (fld 22 19 w)) (Fin.ofNat 32 (fld 18 14 w)) (Fin.ofNat 32 (fld 13 9 w)) (Fin.ofNat 32 (fld 8 4 w))⟩
  | 3 => some ⟨fld 3 0 w == 0, true,
      .sub (Fin.ofNat 16 (fld 22 19 w)) (Fin.ofNat 32 (fld 18 14 w)) (Fin.ofNat 32 (fld 13 9 w)) (Fin.ofNat 32 (fld 8 4 w))⟩
  | 4 => some ⟨fld 3 0 w == 0, true,
      .mul (Fin.ofNat 16 (fld 22 19 w)) (Fin.ofNat 32 (fld 18 14 w)) (Fin.ofNat 32 (fld 13 9 w)) (Fin.ofNat 32 (fld 8 4 w))⟩
  | 5 => some ⟨fld 3 1 w == 0, true,
      .mulh (Fin.ofNat 16 (fld 22 19 w)) (Fin.ofNat 32 (fld 18 14 w)) (Fin.ofNat 32 (fld 13 9 w)) (Fin.ofNat 32 (fld 8 4 w)) (fld 0 0 w == 1)⟩
  | 6 => some ⟨fld 3 1 w == 0, true,
      .div (Fin.ofNat 16 (fld 22 19 w)) (Fin.ofNat 32 (fld 18 14 w)) (Fin.ofNat 32 (fld 13 9 w)) (Fin.ofNat 32 (fld 8 4 w)) (fld 0 0 w == 1)⟩
  | 7 => some ⟨fld 3 1 w == 0, true,
      .rem (Fin.ofNat 16 (fld 22 19 w)) (Fin.ofNat 32 (fld 18 14 w)) (Fin.ofNat 32 (fld 13 9 w)) (Fin.ofNat 32 (fld 8 4 w)) (fld 0 0 w == 1)⟩
  | 8 => some ⟨fld 3 0 w == 0, true,
      .and (Fin.ofNat 16 (fld 22 19 w)) (Fin.ofNat 32 (fld 18 14 w)) (Fin.ofNat 32 (fld 13 9 w)) (Fin.ofNat 32 (fld 8 4 w))⟩
  | 9 => some ⟨fld 3 0 w == 0, true,
      .or (Fin.ofNat 16 (fld 22 19 w)) (Fin.ofNat 32 (fld 18 14 w)) (Fin.ofNat 32 (fld 13 9 w)) (Fin.ofNat 32 (fld 8 4 w))⟩
  | 10 => some ⟨fld 3 0 w == 0, true,
      .xor (Fin.ofNat 16 (fld 22 19 w)) (Fin.ofNat 32 (fld 18 14 w)) (Fin.ofNat 32 (fld 13 9 w)) (Fin.ofNat 32 (fld 8 4 w))⟩
  | 11 => some ⟨fld 3 0 w == 0, true,
      .andn (Fin.ofNat 16 (fld 22 19 w)) (Fin.ofNat 32 (fld 18 14 w)) (Fin.ofNat 32 (fld 13 9 w)) (Fin.ofNat 32 (fld 8 4 w))⟩
  | 12 => some ⟨fld 3 0 w == 0, true,
      .shl (Fin.ofNat 16 (fld 22 19 w)) (Fin.ofNat 32 (fld 18 14 w)) (Fin.ofNat 32 (fld 13 9 w)) (Fin.ofNat 32 (fld 8 4 w))⟩
  | 13 => some ⟨fld 3 0 w == 0, true,
      .shr (Fin.ofNat 16 (fld 22 19 w)) (Fin.ofNat 32 (fld 18 14 w)) (Fin.ofNat 32 (fld 13 9 w)) (Fin.ofNat 32 (fld 8 4 w))⟩
  | 14 => some ⟨fld 3 0 w == 0, true,
      .sra (Fin.ofNat 16 (fld 22 19 w)) (Fin.ofNat 32 (fld 18 14 w)) (Fin.ofNat 32 (fld 13 9 w)) (Fin.ofNat 32 (fld 8 4 w))⟩
  | 15 => some ⟨fld 3 1 w == 0, true,
      .min (Fin.ofNat 16 (fld 22 19 w)) (Fin.ofNat 32 (fld 18 14 w)) (Fin.ofNat 32 (fld 13 9 w)) (Fin.ofNat 32 (fld 8 4 w)) (fld 0 0 w == 1)⟩
  | 16 => some ⟨fld 3 1 w == 0, true,
      .max (Fin.ofNat 16 (fld 22 19 w)) (Fin.ofNat 32 (fld 18 14 w)) (Fin.ofNat 32 (fld 13 9 w)) (Fin.ofNat 32 (fld 8 4 w)) (fld 0 0 w == 1)⟩
  | 17 => some ⟨true, true,
      .sel (Fin.ofNat 16 (fld 22 19 w)) (Fin.ofNat 32 (fld 18 14 w)) (Fin.ofNat 32 (fld 13 9 w)) (Fin.ofNat 32 (fld 8 4 w)) (Fin.ofNat 16 (fld 3 0 w))⟩
  | 18 => some ⟨true, true,
      .addi (Fin.ofNat 16 (fld 22 19 w)) (Fin.ofNat 32 (fld 18 14 w)) (Fin.ofNat 32 (fld 13 9 w)) (BitVec.ofNat 9 (fld 8 0 w))⟩
  | 19 => some ⟨true, true,
      .andi (Fin.ofNat 16 (fld 22 19 w)) (Fin.ofNat 32 (fld 18 14 w)) (Fin.ofNat 32 (fld 13 9 w)) (BitVec.ofNat 9 (fld 8 0 w))⟩
  | 20 => some ⟨true, true,
      .ori (Fin.ofNat 16 (fld 22 19 w)) (Fin.ofNat 32 (fld 18 14 w)) (Fin.ofNat 32 (fld 13 9 w)) (BitVec.ofNat 9 (fld 8 0 w))⟩
  | 21 => some ⟨true, true,
      .xori (Fin.ofNat 16 (fld 22 19 w)) (Fin.ofNat 32 (fld 18 14 w)) (Fin.ofNat 32 (fld 13 9 w)) (BitVec.ofNat 9 (fld 8 0 w))⟩
  | 22 => some ⟨fld 8 6 w == 0, true,
      .shli (Fin.ofNat 16 (fld 22 19 w)) (Fin.ofNat 32 (fld 18 14 w)) (Fin.ofNat 32 (fld 13 9 w)) (Fin.ofNat 64 (fld 5 0 w))⟩
  | 23 => some ⟨fld 8 6 w == 0, true,
      .shri (Fin.ofNat 16 (fld 22 19 w)) (Fin.ofNat 32 (fld 18 14 w)) (Fin.ofNat 32 (fld 13 9 w)) (Fin.ofNat 64 (fld 5 0 w))⟩
  | 24 => some ⟨fld 8 6 w == 0, true,
      .srai (Fin.ofNat 16 (fld 22 19 w)) (Fin.ofNat 32 (fld 18 14 w)) (Fin.ofNat 32 (fld 13 9 w)) (Fin.ofNat 64 (fld 5 0 w))⟩
  | 25 => some ⟨true, true,
      .muli (Fin.ofNat 16 (fld 22 19 w)) (Fin.ofNat 32 (fld 18 14 w)) (Fin.ofNat 32 (fld 13 9 w)) (BitVec.ofNat 9 (fld 8 0 w))⟩
  | 26 => some ⟨fld 18 18 w == 0, true,
      .cmp (Fin.ofNat 16 (fld 22 19 w)) (Fin.ofNat 16 (fld 17 14 w)) (Fin.ofNat 32 (fld 13 9 w)) (Fin.ofNat 32 (fld 8 4 w)) (Fin.ofNat 16 (fld 3 0 w))⟩
  | 27 => some ⟨fld 18 18 w == 0 && fld 8 4 w == 0, true,
      .cmpx (Fin.ofNat 16 (fld 22 19 w)) (Fin.ofNat 16 (fld 17 14 w)) (Fin.ofNat 32 (fld 13 9 w)) (Fin.ofNat 16 (fld 3 0 w)) x⟩
  | 28 => some ⟨fld 18 18 w == 0 && fld 13 13 w == 0 && fld 8 8 w == 0 && fld 3 0 w == 0, true,
      .pand (Fin.ofNat 16 (fld 22 19 w)) (Fin.ofNat 16 (fld 17 14 w)) (Fin.ofNat 16 (fld 12 9 w)) (Fin.ofNat 16 (fld 7 4 w))⟩
  | 29 => some ⟨fld 18 18 w == 0 && fld 13 13 w == 0 && fld 8 8 w == 0 && fld 3 0 w == 0, true,
      .por (Fin.ofNat 16 (fld 22 19 w)) (Fin.ofNat 16 (fld 17 14 w)) (Fin.ofNat 16 (fld 12 9 w)) (Fin.ofNat 16 (fld 7 4 w))⟩
  | 30 => some ⟨fld 18 18 w == 0 && fld 13 13 w == 0 && fld 8 8 w == 0 && fld 3 0 w == 0, true,
      .pxor (Fin.ofNat 16 (fld 22 19 w)) (Fin.ofNat 16 (fld 17 14 w)) (Fin.ofNat 16 (fld 12 9 w)) (Fin.ofNat 16 (fld 7 4 w))⟩
  | 31 => some ⟨fld 18 18 w == 0 && fld 13 13 w == 0 && fld 8 8 w == 0 && fld 3 0 w == 0, true,
      .pandn (Fin.ofNat 16 (fld 22 19 w)) (Fin.ofNat 16 (fld 17 14 w)) (Fin.ofNat 16 (fld 12 9 w)) (Fin.ofNat 16 (fld 7 4 w))⟩
  | 32 => some ⟨fld 18 18 w == 0, fld 13 1 w == 0,
      .pset (Fin.ofNat 16 (fld 22 19 w)) (Fin.ofNat 16 (fld 17 14 w)) (fld 0 0 w == 1)⟩
  | 33 => some ⟨fld 13 0 w == 0, true,
      .prd (Fin.ofNat 16 (fld 22 19 w)) (Fin.ofNat 32 (fld 18 14 w))⟩
  | 34 => some ⟨fld 13 0 w == 0, true,
      .pwr (Fin.ofNat 16 (fld 22 19 w)) (Fin.ofNat 32 (fld 18 14 w))⟩
  | 35 => some ⟨true, true,
      .li (Fin.ofNat 16 (fld 22 19 w)) (Fin.ofNat 32 (fld 18 14 w)) (BitVec.ofNat 14 (fld 13 0 w))⟩
  | 36 => some ⟨fld 13 0 w == 0, true,
      .lit (Fin.ofNat 16 (fld 22 19 w)) (Fin.ofNat 32 (fld 18 14 w)) x⟩
  | 37 => some ⟨fld 13 0 w == 0, true,
      .lith (Fin.ofNat 16 (fld 22 19 w)) (Fin.ofNat 32 (fld 18 14 w)) x⟩
  | 38 => some ⟨true, true,
      .ld (Fin.ofNat 16 (fld 22 19 w)) (Fin.ofNat 32 (fld 18 14 w)) (Fin.ofNat 32 (fld 13 9 w)) (BitVec.ofNat 9 (fld 8 0 w))⟩
  | 39 => some ⟨fld 3 3 w == 0, true,
      .ldx (Fin.ofNat 16 (fld 22 19 w)) (Fin.ofNat 32 (fld 18 14 w)) (Fin.ofNat 32 (fld 13 9 w)) (Fin.ofNat 32 (fld 8 4 w)) (fld 2 2 w == 1) (Fin.ofNat 4 (fld 1 0 w))⟩
  | 40 => some ⟨true, true,
      .st (Fin.ofNat 16 (fld 22 19 w)) (Fin.ofNat 32 (fld 18 14 w)) (Fin.ofNat 32 (fld 13 9 w)) (BitVec.ofNat 9 (fld 8 0 w))⟩
  | 41 => some ⟨fld 3 3 w == 0, true,
      .stx (Fin.ofNat 16 (fld 22 19 w)) (Fin.ofNat 32 (fld 18 14 w)) (Fin.ofNat 32 (fld 13 9 w)) (Fin.ofNat 32 (fld 8 4 w)) (fld 2 2 w == 1) (Fin.ofNat 4 (fld 1 0 w))⟩
  | 42 => some ⟨fld 8 2 w == 0, true,
      .cvta (Fin.ofNat 16 (fld 22 19 w)) (Fin.ofNat 32 (fld 18 14 w)) (Fin.ofNat 32 (fld 13 9 w)) (Window.ofCode (fld 1 0 w))⟩
  | 43 => some ⟨fld 18 18 w == 0 && fld 8 2 w == 0, true,
      .isap (Fin.ofNat 16 (fld 22 19 w)) (Fin.ofNat 16 (fld 17 14 w)) (Fin.ofNat 32 (fld 13 9 w)) (Window.ofCode (fld 1 0 w))⟩
  | 44 => some ⟨true, true,
      .br (Fin.ofNat 16 (fld 22 19 w)) (BitVec.ofNat 19 (fld 18 0 w))⟩
  | 45 => some ⟨true, true,
      .call (Fin.ofNat 16 (fld 22 19 w)) (BitVec.ofNat 19 (fld 18 0 w))⟩
  | 46 => some ⟨fld 18 14 w == 0 && fld 8 0 w == 0, true,
      .jr (Fin.ofNat 16 (fld 22 19 w)) (Fin.ofNat 32 (fld 13 9 w))⟩
  | 47 => some ⟨true, true,
      .loopb (Fin.ofNat 16 (fld 22 19 w)) (BitVec.ofNat 19 (fld 18 0 w))⟩
  | 48 => some ⟨fld 9 0 w == 0, true,
      .push (Fin.ofNat 16 (fld 22 19 w)) (Fin.ofNat 16 (fld 18 15 w)) (Fin.ofNat 32 (fld 14 10 w))⟩
  | 49 => some ⟨fld 9 0 w == 0, true,
      .pop (Fin.ofNat 16 (fld 22 19 w)) (Fin.ofNat 16 (fld 18 15 w)) (Fin.ofNat 32 (fld 14 10 w))⟩
  | 50 => some ⟨fld 9 0 w == 0, true,
      .peek (Fin.ofNat 16 (fld 22 19 w)) (Fin.ofNat 16 (fld 18 15 w)) (Fin.ofNat 32 (fld 14 10 w))⟩
  | 51 => some ⟨fld 18 12 w == 0, true,
      .qfence (Fin.ofNat 16 (fld 22 19 w)) (BitVec.ofNat 12 (fld 11 0 w))⟩
  | 52 => some ⟨true, true,
      .mfsr (Fin.ofNat 16 (fld 22 19 w)) (Fin.ofNat 32 (fld 18 14 w)) (Fin.ofNat 16384 (fld 13 0 w))⟩
  | 53 => some ⟨true, true,
      .mtsr (Fin.ofNat 16 (fld 22 19 w)) (Fin.ofNat 32 (fld 18 14 w)) (Fin.ofNat 16384 (fld 13 0 w))⟩
  | 54 => some ⟨fld 18 0 w == 0, true,
      .uret (Fin.ofNat 16 (fld 22 19 w))⟩
  | 55 => some ⟨fld 8 3 w == 0, true,
      .sext (Fin.ofNat 16 (fld 22 19 w)) (Fin.ofNat 32 (fld 18 14 w)) (Fin.ofNat 32 (fld 13 9 w)) (fld 2 2 w == 1) (Fin.ofNat 4 (fld 1 0 w))⟩
  | 56 => some ⟨fld 8 3 w == 0, true,
      .zext (Fin.ofNat 16 (fld 22 19 w)) (Fin.ofNat 32 (fld 18 14 w)) (Fin.ofNat 32 (fld 13 9 w)) (fld 2 2 w == 1) (Fin.ofNat 4 (fld 1 0 w))⟩
  | 57 => some ⟨fld 8 0 w == 0, true,
      .clz (Fin.ofNat 16 (fld 22 19 w)) (Fin.ofNat 32 (fld 18 14 w)) (Fin.ofNat 32 (fld 13 9 w))⟩
  | 58 => some ⟨fld 8 0 w == 0, true,
      .popc (Fin.ofNat 16 (fld 22 19 w)) (Fin.ofNat 32 (fld 18 14 w)) (Fin.ofNat 32 (fld 13 9 w))⟩
  | 59 => some ⟨true, true,
      .setlc (Fin.ofNat 16 (fld 22 19 w)) (Fin.ofNat 32 (fld 18 14 w)) (BitVec.ofNat 14 (fld 13 0 w))⟩
  | 60 => some ⟨true, true,
      .setec (Fin.ofNat 16 (fld 22 19 w)) (Fin.ofNat 32 (fld 18 14 w)) (BitVec.ofNat 14 (fld 13 0 w))⟩
  | 61 => some ⟨true, true,
      .setrot (Fin.ofNat 16 (fld 22 19 w)) (Fin.ofNat 32 (fld 18 14 w)) (BitVec.ofNat 14 (fld 13 0 w))⟩
  | _ => none

/-- Engine 1, VEC: the slots of R169. `w` is the head word. -/
def decodeVec (op w : Nat) : Option Slot :=
  match op with
  | 0 => some ⟨fld 14 14 w == 0 && fld 9 0 w == 0, true,
      .vSeta (Fin.ofNat 16 (fld 22 19 w)) (Fin.ofNat 16 (fld 18 15 w)) (Fin.ofNat 16 (fld 13 10 w))⟩
  | 1 => some ⟨true, true,
      .vAdd (Fin.ofNat 16 (fld 22 19 w)) (ElemType.ofCode (fld 18 15 w)) (Rounding.ofCode (fld 14 14 w * 2 + fld 9 9 w)) (Fin.ofNat 16 (fld 13 10 w)) (Fin.ofNat 16 (fld 8 5 w)) (fld 4 4 w == 1) (Fin.ofNat 16 (fld 3 0 w))⟩
  | 2 => some ⟨true, true,
      .vSub (Fin.ofNat 16 (fld 22 19 w)) (ElemType.ofCode (fld 18 15 w)) (Rounding.ofCode (fld 14 14 w * 2 + fld 9 9 w)) (Fin.ofNat 16 (fld 13 10 w)) (Fin.ofNat 16 (fld 8 5 w)) (fld 4 4 w == 1) (Fin.ofNat 16 (fld 3 0 w))⟩
  | 3 => some ⟨true, true,
      .vMul (Fin.ofNat 16 (fld 22 19 w)) (ElemType.ofCode (fld 18 15 w)) (Rounding.ofCode (fld 14 14 w * 2 + fld 9 9 w)) (Fin.ofNat 16 (fld 13 10 w)) (Fin.ofNat 16 (fld 8 5 w)) (fld 4 4 w == 1) (Fin.ofNat 16 (fld 3 0 w))⟩
  | 4 => some ⟨true, true,
      .vDiv (Fin.ofNat 16 (fld 22 19 w)) (ElemType.ofCode (fld 18 15 w)) (Rounding.ofCode (fld 14 14 w * 2 + fld 9 9 w)) (Fin.ofNat 16 (fld 13 10 w)) (Fin.ofNat 16 (fld 8 5 w)) (fld 4 4 w == 1) (Fin.ofNat 16 (fld 3 0 w))⟩
  | 5 => some ⟨true, true,
      .vFma (Fin.ofNat 16 (fld 22 19 w)) (ElemType.ofCode (fld 18 15 w)) (Rounding.ofCode (fld 14 14 w * 2 + fld 9 9 w)) (Fin.ofNat 16 (fld 13 10 w)) (Fin.ofNat 16 (fld 8 5 w)) (fld 4 4 w == 1) (Fin.ofNat 16 (fld 3 0 w))⟩
  | 6 => some ⟨true, true,
      .vFms (Fin.ofNat 16 (fld 22 19 w)) (ElemType.ofCode (fld 18 15 w)) (Rounding.ofCode (fld 14 14 w * 2 + fld 9 9 w)) (Fin.ofNat 16 (fld 13 10 w)) (Fin.ofNat 16 (fld 8 5 w)) (fld 4 4 w == 1) (Fin.ofNat 16 (fld 3 0 w))⟩
  | 7 => some ⟨true, true,
      .vFnma (Fin.ofNat 16 (fld 22 19 w)) (ElemType.ofCode (fld 18 15 w)) (Rounding.ofCode (fld 14 14 w * 2 + fld 9 9 w)) (Fin.ofNat 16 (fld 13 10 w)) (Fin.ofNat 16 (fld 8 5 w)) (fld 4 4 w == 1) (Fin.ofNat 16 (fld 3 0 w))⟩
  | 8 => some ⟨true, true,
      .vMin (Fin.ofNat 16 (fld 22 19 w)) (ElemType.ofCode (fld 18 15 w)) (Rounding.ofCode (fld 14 14 w * 2 + fld 9 9 w)) (Fin.ofNat 16 (fld 13 10 w)) (Fin.ofNat 16 (fld 8 5 w)) (fld 4 4 w == 1) (Fin.ofNat 16 (fld 3 0 w))⟩
  | 9 => some ⟨true, true,
      .vMax (Fin.ofNat 16 (fld 22 19 w)) (ElemType.ofCode (fld 18 15 w)) (Rounding.ofCode (fld 14 14 w * 2 + fld 9 9 w)) (Fin.ofNat 16 (fld 13 10 w)) (Fin.ofNat 16 (fld 8 5 w)) (fld 4 4 w == 1) (Fin.ofNat 16 (fld 3 0 w))⟩
  | 10 => some ⟨fld 3 0 w == 0, true,
      .vAbs (Fin.ofNat 16 (fld 22 19 w)) (ElemType.ofCode (fld 18 15 w)) (Rounding.ofCode (fld 14 14 w * 2 + fld 9 9 w)) (Fin.ofNat 16 (fld 13 10 w)) (Fin.ofNat 16 (fld 8 5 w)) (fld 4 4 w == 1)⟩
  | 11 => some ⟨fld 3 0 w == 0, true,
      .vNeg (Fin.ofNat 16 (fld 22 19 w)) (ElemType.ofCode (fld 18 15 w)) (Rounding.ofCode (fld 14 14 w * 2 + fld 9 9 w)) (Fin.ofNat 16 (fld 13 10 w)) (Fin.ofNat 16 (fld 8 5 w)) (fld 4 4 w == 1)⟩
  | 12 => some ⟨fld 4 0 w == 0, true,
      .vSqrt (Fin.ofNat 16 (fld 22 19 w)) (ElemType.ofCode (fld 18 15 w)) (Rounding.ofCode (fld 14 14 w * 2 + fld 9 9 w)) (Fin.ofNat 16 (fld 13 10 w)) (Fin.ofNat 16 (fld 8 5 w))⟩
  | 13 => some ⟨fld 4 0 w == 0, true,
      .vExp2 (Fin.ofNat 16 (fld 22 19 w)) (ElemType.ofCode (fld 18 15 w)) (Rounding.ofCode (fld 14 14 w * 2 + fld 9 9 w)) (Fin.ofNat 16 (fld 13 10 w)) (Fin.ofNat 16 (fld 8 5 w))⟩
  | 14 => some ⟨fld 4 0 w == 0, true,
      .vLog2 (Fin.ofNat 16 (fld 22 19 w)) (ElemType.ofCode (fld 18 15 w)) (Rounding.ofCode (fld 14 14 w * 2 + fld 9 9 w)) (Fin.ofNat 16 (fld 13 10 w)) (Fin.ofNat 16 (fld 8 5 w))⟩
  | 15 => some ⟨fld 4 0 w == 0, true,
      .vRecip (Fin.ofNat 16 (fld 22 19 w)) (ElemType.ofCode (fld 18 15 w)) (Rounding.ofCode (fld 14 14 w * 2 + fld 9 9 w)) (Fin.ofNat 16 (fld 13 10 w)) (Fin.ofNat 16 (fld 8 5 w))⟩
  | 16 => some ⟨fld 4 0 w == 0, true,
      .vRsqrt (Fin.ofNat 16 (fld 22 19 w)) (ElemType.ofCode (fld 18 15 w)) (Rounding.ofCode (fld 14 14 w * 2 + fld 9 9 w)) (Fin.ofNat 16 (fld 13 10 w)) (Fin.ofNat 16 (fld 8 5 w))⟩
  | 17 => some ⟨fld 4 0 w == 0, true,
      .vTanh (Fin.ofNat 16 (fld 22 19 w)) (ElemType.ofCode (fld 18 15 w)) (Rounding.ofCode (fld 14 14 w * 2 + fld 9 9 w)) (Fin.ofNat 16 (fld 13 10 w)) (Fin.ofNat 16 (fld 8 5 w))⟩
  | 18 => some ⟨fld 14 14 w == 0 && fld 9 9 w == 0 && fld 4 4 w == 0, true,
      .vAnd (Fin.ofNat 16 (fld 22 19 w)) (ElemType.ofCode (fld 18 15 w)) (Fin.ofNat 16 (fld 13 10 w)) (Fin.ofNat 16 (fld 8 5 w)) (Fin.ofNat 16 (fld 3 0 w))⟩
  | 19 => some ⟨fld 14 14 w == 0 && fld 9 9 w == 0 && fld 4 4 w == 0, true,
      .vOr (Fin.ofNat 16 (fld 22 19 w)) (ElemType.ofCode (fld 18 15 w)) (Fin.ofNat 16 (fld 13 10 w)) (Fin.ofNat 16 (fld 8 5 w)) (Fin.ofNat 16 (fld 3 0 w))⟩
  | 20 => some ⟨fld 14 14 w == 0 && fld 9 9 w == 0 && fld 4 4 w == 0, true,
      .vXor (Fin.ofNat 16 (fld 22 19 w)) (ElemType.ofCode (fld 18 15 w)) (Fin.ofNat 16 (fld 13 10 w)) (Fin.ofNat 16 (fld 8 5 w)) (Fin.ofNat 16 (fld 3 0 w))⟩
  | 21 => some ⟨fld 14 14 w == 0 && fld 9 9 w == 0 && fld 4 4 w == 0, true,
      .vShl (Fin.ofNat 16 (fld 22 19 w)) (ElemType.ofCode (fld 18 15 w)) (Fin.ofNat 16 (fld 13 10 w)) (Fin.ofNat 16 (fld 8 5 w)) (Fin.ofNat 16 (fld 3 0 w))⟩
  | 22 => some ⟨fld 14 14 w == 0 && fld 9 9 w == 0 && fld 4 4 w == 0, true,
      .vShr (Fin.ofNat 16 (fld 22 19 w)) (ElemType.ofCode (fld 18 15 w)) (Fin.ofNat 16 (fld 13 10 w)) (Fin.ofNat 16 (fld 8 5 w)) (Fin.ofNat 16 (fld 3 0 w))⟩
  | 23 => some ⟨fld 14 14 w == 0 && fld 9 9 w == 0 && fld 4 4 w == 0, true,
      .vSra (Fin.ofNat 16 (fld 22 19 w)) (ElemType.ofCode (fld 18 15 w)) (Fin.ofNat 16 (fld 13 10 w)) (Fin.ofNat 16 (fld 8 5 w)) (Fin.ofNat 16 (fld 3 0 w))⟩
  | 24 => some ⟨fld 14 14 w == 0 && fld 9 9 w == 0 && fld 4 4 w == 0, true,
      .vMulh (Fin.ofNat 16 (fld 22 19 w)) (ElemType.ofCode (fld 18 15 w)) (Fin.ofNat 16 (fld 13 10 w)) (Fin.ofNat 16 (fld 8 5 w)) (Fin.ofNat 16 (fld 3 0 w))⟩
  | 25 => some ⟨fld 14 14 w == 0 && fld 9 9 w == 0 && fld 4 4 w == 0, true,
      .vCmpeq (Fin.ofNat 16 (fld 22 19 w)) (ElemType.ofCode (fld 18 15 w)) (Fin.ofNat 16 (fld 13 10 w)) (Fin.ofNat 16 (fld 8 5 w)) (Fin.ofNat 16 (fld 3 0 w))⟩
  | 26 => some ⟨fld 14 14 w == 0 && fld 9 9 w == 0 && fld 4 4 w == 0, true,
      .vCmpne (Fin.ofNat 16 (fld 22 19 w)) (ElemType.ofCode (fld 18 15 w)) (Fin.ofNat 16 (fld 13 10 w)) (Fin.ofNat 16 (fld 8 5 w)) (Fin.ofNat 16 (fld 3 0 w))⟩
  | 27 => some ⟨fld 14 14 w == 0 && fld 9 9 w == 0 && fld 4 4 w == 0, true,
      .vCmplt (Fin.ofNat 16 (fld 22 19 w)) (ElemType.ofCode (fld 18 15 w)) (Fin.ofNat 16 (fld 13 10 w)) (Fin.ofNat 16 (fld 8 5 w)) (Fin.ofNat 16 (fld 3 0 w))⟩
  | 28 => some ⟨fld 14 14 w == 0 && fld 9 9 w == 0 && fld 4 4 w == 0, true,
      .vCmple (Fin.ofNat 16 (fld 22 19 w)) (ElemType.ofCode (fld 18 15 w)) (Fin.ofNat 16 (fld 13 10 w)) (Fin.ofNat 16 (fld 8 5 w)) (Fin.ofNat 16 (fld 3 0 w))⟩
  | 29 => some ⟨fld 14 14 w == 0 && fld 9 9 w == 0 && fld 4 4 w == 0, true,
      .vSel (Fin.ofNat 16 (fld 22 19 w)) (ElemType.ofCode (fld 18 15 w)) (Fin.ofNat 16 (fld 13 10 w)) (Fin.ofNat 16 (fld 8 5 w)) (Fin.ofNat 16 (fld 3 0 w))⟩
  | 30 => some ⟨true, true,
      .vCvt (Fin.ofNat 16 (fld 22 19 w)) (ElemType.ofCode (fld 18 15 w)) (Rounding.ofCode (fld 14 14 w * 2 + fld 9 9 w)) (Fin.ofNat 16 (fld 13 10 w)) (Fin.ofNat 16 (fld 8 5 w)) (fld 4 4 w == 1) (Fin.ofNat 16 (fld 3 0 w))⟩
  | 31 => some ⟨fld 3 0 w == 0, true,
      .vRsum (Fin.ofNat 16 (fld 22 19 w)) (ElemType.ofCode (fld 18 15 w)) (Rounding.ofCode (fld 14 14 w * 2 + fld 9 9 w)) (Fin.ofNat 16 (fld 13 10 w)) (Fin.ofNat 16 (fld 8 5 w)) (fld 4 4 w == 1)⟩
  | 32 => some ⟨fld 14 14 w == 0 && fld 9 9 w == 0 && fld 4 0 w == 0, true,
      .vRmax (Fin.ofNat 16 (fld 22 19 w)) (ElemType.ofCode (fld 18 15 w)) (Fin.ofNat 16 (fld 13 10 w)) (Fin.ofNat 16 (fld 8 5 w))⟩
  | 33 => some ⟨fld 14 14 w == 0 && fld 9 9 w == 0 && fld 4 0 w == 0, true,
      .vRmin (Fin.ofNat 16 (fld 22 19 w)) (ElemType.ofCode (fld 18 15 w)) (Fin.ofNat 16 (fld 13 10 w)) (Fin.ofNat 16 (fld 8 5 w))⟩
  | 34 => some ⟨fld 14 14 w == 0 && fld 9 9 w == 0 && fld 4 0 w == 0, true,
      .vCopy (Fin.ofNat 16 (fld 22 19 w)) (ElemType.ofCode (fld 18 15 w)) (Fin.ofNat 16 (fld 13 10 w)) (Fin.ofNat 16 (fld 8 5 w))⟩
  | 35 => some ⟨fld 14 14 w == 0 && fld 9 0 w == 0, true,
      .vFill (Fin.ofNat 16 (fld 22 19 w)) (Fin.ofNat 16 (fld 18 15 w)) (Fin.ofNat 16 (fld 13 10 w))⟩
  | 36 => some ⟨fld 8 5 w == 0 && fld 3 0 w == 0, true,
      .vIota (Fin.ofNat 16 (fld 22 19 w)) (Fin.ofNat 16 (fld 18 15 w)) (Rounding.ofCode (fld 14 14 w * 2 + fld 9 9 w)) (Fin.ofNat 16 (fld 13 10 w)) (fld 4 4 w == 1)⟩
  | 37 => some ⟨fld 14 14 w == 0 && fld 9 9 w == 0 && fld 4 0 w == 0, true,
      .vClamp (Fin.ofNat 16 (fld 22 19 w)) (Fin.ofNat 16 (fld 18 15 w)) (Fin.ofNat 16 (fld 13 10 w)) (Fin.ofNat 16 (fld 8 5 w))⟩
  | 38 => some ⟨fld 3 0 w == 0, true,
      .vAddq (Fin.ofNat 16 (fld 22 19 w)) (Fin.ofNat 16 (fld 18 15 w)) (Rounding.ofCode (fld 14 14 w * 2 + fld 9 9 w)) (Fin.ofNat 16 (fld 13 10 w)) (Fin.ofNat 16 (fld 8 5 w)) (fld 4 4 w == 1)⟩
  | 39 => some ⟨fld 3 0 w == 0, true,
      .vMulq (Fin.ofNat 16 (fld 22 19 w)) (Fin.ofNat 16 (fld 18 15 w)) (Rounding.ofCode (fld 14 14 w * 2 + fld 9 9 w)) (Fin.ofNat 16 (fld 13 10 w)) (Fin.ofNat 16 (fld 8 5 w)) (fld 4 4 w == 1)⟩
  | 40 => some ⟨fld 3 0 w == 0, true,
      .vFmaq (Fin.ofNat 16 (fld 22 19 w)) (Fin.ofNat 16 (fld 18 15 w)) (Rounding.ofCode (fld 14 14 w * 2 + fld 9 9 w)) (Fin.ofNat 16 (fld 13 10 w)) (Fin.ofNat 16 (fld 8 5 w)) (fld 4 4 w == 1)⟩
  | 41 => some ⟨fld 14 14 w == 0 && fld 9 9 w == 0 && fld 4 4 w == 0, true,
      .vGather (Fin.ofNat 16 (fld 22 19 w)) (ElemType.ofCode (fld 18 15 w)) (Fin.ofNat 16 (fld 13 10 w)) (Fin.ofNat 16 (fld 8 5 w)) (Fin.ofNat 16 (fld 3 0 w))⟩
  | 42 => some ⟨fld 14 14 w == 0 && fld 9 9 w == 0 && fld 4 4 w == 0, true,
      .vScatter (Fin.ofNat 16 (fld 22 19 w)) (ElemType.ofCode (fld 18 15 w)) (Fin.ofNat 16 (fld 13 10 w)) (Fin.ofNat 16 (fld 8 5 w)) (Fin.ofNat 16 (fld 3 0 w))⟩
  | 43 => some ⟨fld 14 14 w == 0 && fld 9 9 w == 0 && fld 4 0 w == 0, true,
      .vCnt (Fin.ofNat 16 (fld 22 19 w)) (ElemType.ofCode (fld 18 15 w)) (Fin.ofNat 16 (fld 13 10 w)) (Fin.ofNat 16 (fld 8 5 w))⟩
  | _ => none

/-- Engine 2, MAT: the slots of R169. `w` is the head word. -/
def decodeMat (op w : Nat) : Option Slot :=
  match op with
  | 0 => some ⟨fld 14 13 w == 0 && fld 9 0 w == 0, true,
      .mSett (Fin.ofNat 16 (fld 22 19 w)) (Fin.ofNat 16 (fld 18 15 w)) (Fin.ofNat 8 (fld 12 10 w))⟩
  | 1 => some ⟨fld 18 13 w == 0 && fld 9 8 w == 0 && fld 4 3 w == 0, true,
      .mMma (Fin.ofNat 16 (fld 22 19 w)) (Fin.ofNat 8 (fld 12 10 w)) (Fin.ofNat 8 (fld 7 5 w)) (Fin.ofNat 8 (fld 2 0 w))⟩
  | 2 => some ⟨fld 18 13 w == 0 && fld 9 8 w == 0 && fld 4 3 w == 0, true,
      .mMmat (Fin.ofNat 16 (fld 22 19 w)) (Fin.ofNat 8 (fld 12 10 w)) (Fin.ofNat 8 (fld 7 5 w)) (Fin.ofNat 8 (fld 2 0 w))⟩
  | 3 => some ⟨fld 14 13 w == 0 && fld 9 0 w == 0, true,
      .mClr (Fin.ofNat 16 (fld 22 19 w)) (ElemType.ofCode (fld 18 15 w)) (Fin.ofNat 8 (fld 12 10 w))⟩
  | 4 => some ⟨fld 14 13 w == 0 && fld 9 8 w == 0 && fld 3 0 w == 0, true,
      .mCvt (Fin.ofNat 16 (fld 22 19 w)) (ElemType.ofCode (fld 18 15 w)) (Fin.ofNat 8 (fld 12 10 w)) (Fin.ofNat 8 (fld 7 5 w)) (fld 4 4 w == 1)⟩
  | 5 => some ⟨fld 18 13 w == 0 && fld 9 8 w == 0 && fld 4 0 w == 0, true,
      .mBias (Fin.ofNat 16 (fld 22 19 w)) (Fin.ofNat 8 (fld 12 10 w)) (Fin.ofNat 8 (fld 7 5 w))⟩
  | 6 => some ⟨fld 14 13 w == 0 && fld 9 8 w == 0 && fld 4 0 w == 0, true,
      .mTr (Fin.ofNat 16 (fld 22 19 w)) (ElemType.ofCode (fld 18 15 w)) (Fin.ofNat 8 (fld 12 10 w)) (Fin.ofNat 8 (fld 7 5 w))⟩
  | 7 => some ⟨fld 14 13 w == 0 && fld 9 0 w == 0, true,
      .mScl (Fin.ofNat 16 (fld 22 19 w)) (Fin.ofNat 16 (fld 18 15 w)) (Fin.ofNat 8 (fld 12 10 w))⟩
  | 8 => some ⟨fld 14 13 w == 0 && fld 9 8 w == 0 && fld 4 0 w == 0, true,
      .mCopy (Fin.ofNat 16 (fld 22 19 w)) (ElemType.ofCode (fld 18 15 w)) (Fin.ofNat 8 (fld 12 10 w)) (Fin.ofNat 8 (fld 7 5 w))⟩
  | 9 => some ⟨fld 18 0 w == 0, true,
      .mDrop (Fin.ofNat 16 (fld 22 19 w))⟩
  | 10 => some ⟨fld 18 13 w == 0 && fld 9 8 w == 0 && fld 4 0 w == 0, true,
      .mAdd (Fin.ofNat 16 (fld 22 19 w)) (Fin.ofNat 8 (fld 12 10 w)) (Fin.ofNat 8 (fld 7 5 w))⟩
  | 11 => some ⟨fld 18 13 w == 0 && fld 9 0 w == 0, true,
      .mRelu (Fin.ofNat 16 (fld 22 19 w)) (Fin.ofNat 8 (fld 12 10 w))⟩
  | _ => none

/-- Engine 3, ROW: the slots of R169. `w` is the head word. -/
def decodeRow (op w : Nat) : Option Slot :=
  match op with
  | 0 => some ⟨fld 14 13 w == 0 && fld 9 0 w == 0, true,
      .rowSeta (Fin.ofNat 16 (fld 22 19 w)) (Fin.ofNat 16 (fld 18 15 w)) (Fin.ofNat 8 (fld 12 10 w))⟩
  | 1 => some ⟨fld 14 13 w == 0 && fld 9 8 w == 0 && fld 4 0 w == 0, true,
      .rowMax (Fin.ofNat 16 (fld 22 19 w)) (Fin.ofNat 16 (fld 18 15 w)) (Fin.ofNat 8 (fld 12 10 w)) (Fin.ofNat 8 (fld 7 5 w))⟩
  | 2 => some ⟨fld 14 13 w == 0 && fld 9 8 w == 0 && fld 4 3 w == 0, true,
      .rowExpsum (Fin.ofNat 16 (fld 22 19 w)) (Fin.ofNat 16 (fld 18 15 w)) (Fin.ofNat 8 (fld 12 10 w)) (Fin.ofNat 8 (fld 7 5 w)) (Fin.ofNat 8 (fld 2 0 w))⟩
  | 3 => some ⟨fld 14 13 w == 0 && fld 9 8 w == 0 && fld 4 3 w == 0, true,
      .rowScale (Fin.ofNat 16 (fld 22 19 w)) (Fin.ofNat 16 (fld 18 15 w)) (Fin.ofNat 8 (fld 12 10 w)) (Fin.ofNat 8 (fld 7 5 w)) (Fin.ofNat 8 (fld 2 0 w))⟩
  | 4 => some ⟨fld 14 13 w == 0 && fld 9 8 w == 0 && fld 4 0 w == 0, true,
      .rowSoft (Fin.ofNat 16 (fld 22 19 w)) (Fin.ofNat 16 (fld 18 15 w)) (Fin.ofNat 8 (fld 12 10 w)) (Fin.ofNat 8 (fld 7 5 w))⟩
  | 5 => some ⟨fld 14 13 w == 0 && fld 9 8 w == 0 && fld 4 0 w == 0, true,
      .rowSum (Fin.ofNat 16 (fld 22 19 w)) (Fin.ofNat 16 (fld 18 15 w)) (Fin.ofNat 8 (fld 12 10 w)) (Fin.ofNat 8 (fld 7 5 w))⟩
  | 6 => some ⟨fld 14 13 w == 0 && fld 9 8 w == 0 && fld 4 0 w == 0, true,
      .rowNorm (Fin.ofNat 16 (fld 22 19 w)) (Fin.ofNat 16 (fld 18 15 w)) (Fin.ofNat 8 (fld 12 10 w)) (Fin.ofNat 8 (fld 7 5 w))⟩
  | 7 => some ⟨fld 14 13 w == 0 && fld 9 8 w == 0 && fld 4 3 w == 0, true,
      .rowRms (Fin.ofNat 16 (fld 22 19 w)) (Fin.ofNat 16 (fld 18 15 w)) (Fin.ofNat 8 (fld 12 10 w)) (Fin.ofNat 8 (fld 7 5 w)) (Fin.ofNat 8 (fld 2 0 w))⟩
  | _ => none

/-- Engine 4, SACC: the slots of R169. `w` is the head word. -/
def decodeSacc (op w : Nat) : Option Slot :=
  match op with
  | 0 => some ⟨fld 14 13 w == 0 && fld 9 0 w == 0, true,
      .saSeta (Fin.ofNat 16 (fld 22 19 w)) (Fin.ofNat 16 (fld 18 15 w)) (Fin.ofNat 8 (fld 12 10 w))⟩
  | 1 => some ⟨fld 8 8 w == 0 && fld 3 3 w == 0, true,
      .saAdd (Fin.ofNat 16 (fld 22 19 w)) (Fin.ofNat 16 (fld 18 15 w)) (Fin.ofNat 8 (fld 14 14 w * 4 + fld 9 9 w * 2 + fld 4 4 w)) (fld 13 13 w == 1) (Fin.ofNat 8 (fld 12 10 w)) (BitVec.ofNat 3 (fld 7 5 w)) (Fin.ofNat 8 (fld 2 0 w))⟩
  | 2 => some ⟨fld 8 8 w == 0 && fld 3 3 w == 0, true,
      .saMin (Fin.ofNat 16 (fld 22 19 w)) (Fin.ofNat 16 (fld 18 15 w)) (Fin.ofNat 8 (fld 14 14 w * 4 + fld 9 9 w * 2 + fld 4 4 w)) (fld 13 13 w == 1) (Fin.ofNat 8 (fld 12 10 w)) (BitVec.ofNat 3 (fld 7 5 w)) (Fin.ofNat 8 (fld 2 0 w))⟩
  | 3 => some ⟨fld 8 8 w == 0 && fld 3 3 w == 0, true,
      .saMax (Fin.ofNat 16 (fld 22 19 w)) (Fin.ofNat 16 (fld 18 15 w)) (Fin.ofNat 8 (fld 14 14 w * 4 + fld 9 9 w * 2 + fld 4 4 w)) (fld 13 13 w == 1) (Fin.ofNat 8 (fld 12 10 w)) (BitVec.ofNat 3 (fld 7 5 w)) (Fin.ofNat 8 (fld 2 0 w))⟩
  | 4 => some ⟨fld 8 8 w == 0 && fld 3 3 w == 0, true,
      .saAnd (Fin.ofNat 16 (fld 22 19 w)) (Fin.ofNat 16 (fld 18 15 w)) (Fin.ofNat 8 (fld 14 14 w * 4 + fld 9 9 w * 2 + fld 4 4 w)) (fld 13 13 w == 1) (Fin.ofNat 8 (fld 12 10 w)) (BitVec.ofNat 3 (fld 7 5 w)) (Fin.ofNat 8 (fld 2 0 w))⟩
  | 5 => some ⟨fld 8 8 w == 0 && fld 3 3 w == 0, true,
      .saOr (Fin.ofNat 16 (fld 22 19 w)) (Fin.ofNat 16 (fld 18 15 w)) (Fin.ofNat 8 (fld 14 14 w * 4 + fld 9 9 w * 2 + fld 4 4 w)) (fld 13 13 w == 1) (Fin.ofNat 8 (fld 12 10 w)) (BitVec.ofNat 3 (fld 7 5 w)) (Fin.ofNat 8 (fld 2 0 w))⟩
  | 6 => some ⟨fld 8 8 w == 0 && fld 3 3 w == 0, true,
      .saXor (Fin.ofNat 16 (fld 22 19 w)) (Fin.ofNat 16 (fld 18 15 w)) (Fin.ofNat 8 (fld 14 14 w * 4 + fld 9 9 w * 2 + fld 4 4 w)) (fld 13 13 w == 1) (Fin.ofNat 8 (fld 12 10 w)) (BitVec.ofNat 3 (fld 7 5 w)) (Fin.ofNat 8 (fld 2 0 w))⟩
  | 7 => some ⟨fld 8 8 w == 0 && fld 3 3 w == 0, true,
      .saSwap (Fin.ofNat 16 (fld 22 19 w)) (Fin.ofNat 16 (fld 18 15 w)) (Fin.ofNat 8 (fld 14 14 w * 4 + fld 9 9 w * 2 + fld 4 4 w)) (fld 13 13 w == 1) (Fin.ofNat 8 (fld 12 10 w)) (BitVec.ofNat 3 (fld 7 5 w)) (Fin.ofNat 8 (fld 2 0 w))⟩
  | 8 => some ⟨fld 8 8 w == 0 && fld 3 3 w == 0, fld 13 13 w == 1,
      .saCas (Fin.ofNat 16 (fld 22 19 w)) (Fin.ofNat 16 (fld 18 15 w)) (Fin.ofNat 8 (fld 14 14 w * 4 + fld 9 9 w * 2 + fld 4 4 w)) (Fin.ofNat 8 (fld 12 10 w)) (BitVec.ofNat 3 (fld 7 5 w)) (Fin.ofNat 8 (fld 2 0 w))⟩
  | 9 => some ⟨fld 8 8 w == 0 && fld 3 0 w == 0, true,
      .saCnt (Fin.ofNat 16 (fld 22 19 w)) (Fin.ofNat 16 (fld 18 15 w)) (Fin.ofNat 8 (fld 14 14 w * 4 + fld 9 9 w * 2 + fld 4 4 w)) (fld 13 13 w == 1) (Fin.ofNat 8 (fld 12 10 w)) (BitVec.ofNat 3 (fld 7 5 w))⟩
  | 10 => some ⟨fld 18 15 w == 0 && fld 13 10 w == 0 && fld 8 5 w == 0 && fld 3 0 w == 0, true,
      .saScope (Fin.ofNat 16 (fld 22 19 w)) (Fin.ofNat 8 (fld 14 14 w * 4 + fld 9 9 w * 2 + fld 4 4 w))⟩
  | 11 => some ⟨fld 18 0 w == 0, true,
      .saFlush (Fin.ofNat 16 (fld 22 19 w))⟩
  | _ => none

/-- Engine 5, XFER: the slots of R169. `w` is the head word. -/
def decodeXfer (op w : Nat) : Option Slot :=
  match op with
  | 0 => some ⟨fld 9 0 w == 0, true,
      .xLdshape (Fin.ofNat 16 (fld 22 19 w)) (Fin.ofNat 16 (fld 18 15 w)) (Fin.ofNat 32 (fld 14 10 w))⟩
  | 1 => some ⟨fld 9 0 w == 0, true,
      .xEvict (Fin.ofNat 16 (fld 22 19 w)) (Fin.ofNat 16 (fld 18 15 w)) (Fin.ofNat 32 (fld 14 10 w))⟩
  | 2 => some ⟨fld 9 0 w == 0, true,
      .xLd1 (Fin.ofNat 16 (fld 22 19 w)) (Fin.ofNat 16 (fld 18 15 w)) (Fin.ofNat 32 (fld 14 10 w))⟩
  | 3 => some ⟨fld 9 0 w == 0, true,
      .xSt1 (Fin.ofNat 16 (fld 22 19 w)) (Fin.ofNat 16 (fld 18 15 w)) (Fin.ofNat 32 (fld 14 10 w))⟩
  | 4 => some ⟨fld 14 0 w == 0, true,
      .xCp1 (Fin.ofNat 16 (fld 22 19 w)) (Fin.ofNat 16 (fld 18 15 w))⟩
  | 5 => some ⟨fld 9 0 w == 0, true,
      .xLd2 (Fin.ofNat 16 (fld 22 19 w)) (Fin.ofNat 16 (fld 18 15 w)) (Fin.ofNat 32 (fld 14 10 w))⟩
  | 6 => some ⟨fld 9 0 w == 0, true,
      .xSt2 (Fin.ofNat 16 (fld 22 19 w)) (Fin.ofNat 16 (fld 18 15 w)) (Fin.ofNat 32 (fld 14 10 w))⟩
  | 7 => some ⟨fld 14 0 w == 0, true,
      .xCp2 (Fin.ofNat 16 (fld 22 19 w)) (Fin.ofNat 16 (fld 18 15 w))⟩
  | 8 => some ⟨fld 9 0 w == 0, true,
      .xLd3 (Fin.ofNat 16 (fld 22 19 w)) (Fin.ofNat 16 (fld 18 15 w)) (Fin.ofNat 32 (fld 14 10 w))⟩
  | 9 => some ⟨fld 9 0 w == 0, true,
      .xSt3 (Fin.ofNat 16 (fld 22 19 w)) (Fin.ofNat 16 (fld 18 15 w)) (Fin.ofNat 32 (fld 14 10 w))⟩
  | 10 => some ⟨fld 14 0 w == 0, true,
      .xCp3 (Fin.ofNat 16 (fld 22 19 w)) (Fin.ofNat 16 (fld 18 15 w))⟩
  | 11 => some ⟨fld 9 0 w == 0, true,
      .xLd4 (Fin.ofNat 16 (fld 22 19 w)) (Fin.ofNat 16 (fld 18 15 w)) (Fin.ofNat 32 (fld 14 10 w))⟩
  | 12 => some ⟨fld 9 0 w == 0, true,
      .xSt4 (Fin.ofNat 16 (fld 22 19 w)) (Fin.ofNat 16 (fld 18 15 w)) (Fin.ofNat 32 (fld 14 10 w))⟩
  | 13 => some ⟨fld 14 0 w == 0, true,
      .xCp4 (Fin.ofNat 16 (fld 22 19 w)) (Fin.ofNat 16 (fld 18 15 w))⟩
  | 14 => some ⟨fld 14 0 w == 0, true,
      .xDact (Fin.ofNat 16 (fld 22 19 w)) (Fin.ofNat 16 (fld 18 15 w))⟩
  | 15 => some ⟨fld 14 0 w == 0, true,
      .xDpre (Fin.ofNat 16 (fld 22 19 w)) (Fin.ofNat 16 (fld 18 15 w))⟩
  | 16 => some ⟨fld 14 0 w == 0, true,
      .xDref (Fin.ofNat 16 (fld 22 19 w)) (Fin.ofNat 16 (fld 18 15 w))⟩
  | 17 => some ⟨fld 9 8 w == 0, true,
      .xFld (Fin.ofNat 16 (fld 22 19 w)) (Fin.ofNat 16 (fld 18 15 w)) (Fin.ofNat 32 (fld 14 10 w)) (Fin.ofNat 8 (fld 7 5 w)) (Fin.ofNat 32 (fld 4 0 w))⟩
  | 18 => some ⟨fld 9 0 w == 0, true,
      .xFst (Fin.ofNat 16 (fld 22 19 w)) (Fin.ofNat 16 (fld 18 15 w)) (Fin.ofNat 32 (fld 14 10 w))⟩
  | 19 => some ⟨fld 14 0 w == 0, true,
      .xTrun (Fin.ofNat 16 (fld 22 19 w)) (Fin.ofNat 16 (fld 18 15 w))⟩
  | 20 => some ⟨fld 18 15 w == 0 && fld 9 0 w == 0, fld 14 12 w == 0,
      .xTok (Fin.ofNat 16 (fld 22 19 w)) (Fin.ofNat 4 (fld 11 10 w))⟩
  | 21 => some ⟨fld 18 15 w == 0 && fld 9 6 w == 0 && fld 4 0 w == 0, true,
      .xLpow (Fin.ofNat 16 (fld 22 19 w)) (Fin.ofNat 32 (fld 14 10 w)) (fld 5 5 w == 1)⟩
  | _ => none

/-- Engine 6, LOOP: the slots of R169. `w` is the head word. -/
def decodeLoop (op w : Nat) : Option Slot :=
  match op with
  | 0 => some ⟨fld 14 0 w == 0, true,
      .lpLdtab (Fin.ofNat 16 (fld 22 19 w)) (Fin.ofNat 16 (fld 18 15 w))⟩
  | 1 => some ⟨fld 18 0 w == 0, true,
      .lpDone (Fin.ofNat 16 (fld 22 19 w))⟩
  | 2 => some ⟨fld 14 0 w == 0, true,
      .lpSchedw (Fin.ofNat 16 (fld 22 19 w)) (Fin.ofNat 16 (fld 18 15 w))⟩
  | 3 => some ⟨fld 9 6 w == 0 && fld 4 0 w == 0, true,
      .lpSchedr (Fin.ofNat 16 (fld 22 19 w)) (Fin.ofNat 16 (fld 18 15 w)) (fld 14 14 w == 1) (Fin.ofNat 16 (fld 13 10 w)) (fld 5 5 w == 1)⟩
  | 4 => some ⟨fld 9 0 w == 0, true,
      .lpCov (Fin.ofNat 16 (fld 22 19 w)) (Fin.ofNat 16 (fld 18 15 w)) (fld 14 14 w == 1) (Fin.ofNat 16 (fld 13 10 w))⟩
  | 5 => some ⟨fld 9 0 w == 0, true,
      .lpCovrd (Fin.ofNat 16 (fld 22 19 w)) (Fin.ofNat 16 (fld 18 15 w)) (fld 14 14 w == 1) (Fin.ofNat 16 (fld 13 10 w))⟩
  | 6 => some ⟨fld 18 15 w == 0 && fld 9 0 w == 0, true,
      .lpGen (Fin.ofNat 16 (fld 22 19 w)) (fld 14 14 w == 1) (Fin.ofNat 16 (fld 13 10 w))⟩
  | 7 => some ⟨fld 18 15 w == 0 && fld 9 0 w == 0, true,
      .lpStat (Fin.ofNat 16 (fld 22 19 w)) (fld 14 14 w == 1) (Fin.ofNat 16 (fld 13 10 w))⟩
  | 8 => some ⟨fld 14 0 w == 0, true,
      .lpAddp (Fin.ofNat 16 (fld 22 19 w)) (Fin.ofNat 16 (fld 18 15 w))⟩
  | 9 => some ⟨fld 18 15 w == 0 && fld 9 0 w == 0, true,
      .lpPend (Fin.ofNat 16 (fld 22 19 w)) (fld 14 14 w == 1) (Fin.ofNat 16 (fld 13 10 w))⟩
  | 10 => some ⟨fld 9 0 w == 0, true,
      .lpPos (Fin.ofNat 16 (fld 22 19 w)) (Fin.ofNat 16 (fld 18 15 w)) (fld 14 14 w == 1) (Fin.ofNat 16 (fld 13 10 w))⟩
  | 11 => some ⟨fld 18 0 w == 0, true,
      .lpDrain (Fin.ofNat 16 (fld 22 19 w))⟩
  | 12 => some ⟨fld 18 15 w == 0 && fld 9 0 w == 0, true,
      .lpPermits (Fin.ofNat 16 (fld 22 19 w)) (fld 14 14 w == 1) (Fin.ofNat 16 (fld 13 10 w))⟩
  | 13 => some ⟨fld 18 15 w == 0 && fld 9 0 w == 0, true,
      .lpRec (Fin.ofNat 16 (fld 22 19 w)) (fld 14 14 w == 1) (Fin.ofNat 16 (fld 13 10 w))⟩
  | _ => none

/-- Engine 7, SYNC: the slots of R169. `w` is the head word and `x` its extension word. -/
def decodeSync (op w : Nat) (x : Word32) : Option Slot :=
  match op with
  | 0 => some ⟨fld 14 6 w == 0 && fld 4 0 w == 0, true,
      .sArm (Fin.ofNat 16 (fld 22 19 w)) (Fin.ofNat 16 (fld 18 15 w)) (fld 5 5 w == 1)⟩
  | 1 => some ⟨fld 14 6 w == 0 && fld 4 0 w == 0, true,
      .sArmc (Fin.ofNat 16 (fld 22 19 w)) (Fin.ofNat 16 (fld 18 15 w)) (fld 5 5 w == 1)⟩
  | 2 => some ⟨fld 14 0 w == 0, true,
      .sDisarm (Fin.ofNat 16 (fld 22 19 w)) (Fin.ofNat 16 (fld 18 15 w))⟩
  | 3 => some ⟨fld 14 0 w == 0, true,
      .sSig (Fin.ofNat 16 (fld 22 19 w)) (Fin.ofNat 16 (fld 18 15 w))⟩
  | 4 => some ⟨fld 9 0 w == 0, true,
      .sWait (Fin.ofNat 16 (fld 22 19 w)) (Fin.ofNat 16 (fld 18 15 w)) (fld 14 14 w == 1) (Fin.ofNat 16 (fld 13 10 w))⟩
  | 5 => some ⟨fld 14 0 w == 0, true,
      .sWaitn (Fin.ofNat 16 (fld 22 19 w)) (Fin.ofNat 16 (fld 18 15 w))⟩
  | 6 => some ⟨fld 9 0 w == 0, true,
      .sBstat (Fin.ofNat 16 (fld 22 19 w)) (Fin.ofNat 16 (fld 18 15 w)) (fld 14 14 w == 1) (Fin.ofNat 16 (fld 13 10 w))⟩
  | 7 => some ⟨fld 14 0 w == 0, true,
      .sFnew (Fin.ofNat 16 (fld 22 19 w)) (Fin.ofNat 16 (fld 18 15 w))⟩
  | 8 => some ⟨fld 14 0 w == 0, true,
      .sFjoin (Fin.ofNat 16 (fld 22 19 w)) (Fin.ofNat 16 (fld 18 15 w))⟩
  | 9 => some ⟨fld 14 0 w == 0, true,
      .sFres (Fin.ofNat 16 (fld 22 19 w)) (Fin.ofNat 16 (fld 18 15 w))⟩
  | 10 => some ⟨fld 9 0 w == 0, true,
      .sFpeek (Fin.ofNat 16 (fld 22 19 w)) (Fin.ofNat 16 (fld 18 15 w)) (fld 14 14 w == 1) (Fin.ofNat 16 (fld 13 10 w))⟩
  | 11 => some ⟨fld 9 0 w == 0, true,
      .sLaunch (Fin.ofNat 16 (fld 22 19 w)) (Fin.ofNat 16 (fld 18 15 w)) (fld 14 14 w == 1) (Fin.ofNat 16 (fld 13 10 w))⟩
  | 12 => some ⟨fld 14 13 w == 0 && fld 9 0 w == 0, true,
      .sExit (Fin.ofNat 16 (fld 22 19 w)) (Fin.ofNat 16 (fld 18 15 w)) (Fin.ofNat 8 (fld 12 10 w))⟩
  | 13 => some ⟨fld 18 0 w == 0, true,
      .sHalt (Fin.ofNat 16 (fld 22 19 w))⟩
  | 14 => some ⟨fld 14 6 w == 0 && fld 4 0 w == 0, true,
      .sPhase (Fin.ofNat 16 (fld 22 19 w)) (Fin.ofNat 16 (fld 18 15 w)) (fld 5 5 w == 1)⟩
  | 15 => some ⟨fld 18 9 w == 0 && fld 4 0 w == 0, true,
      .sQopen (Fin.ofNat 16 (fld 22 19 w)) (Fin.ofNat 16 (fld 8 5 w))⟩
  | 16 => some ⟨fld 14 0 w == 0, true,
      .sQsplit (Fin.ofNat 16 (fld 22 19 w)) (Fin.ofNat 16 (fld 18 15 w))⟩
  | 17 => some ⟨fld 14 0 w == 0, true,
      .sQret (Fin.ofNat 16 (fld 22 19 w)) (Fin.ofNat 16 (fld 18 15 w))⟩
  | 18 => some ⟨fld 18 15 w == 0 && fld 9 9 w == 0 && fld 4 0 w == 0, true,
      .sWaitq (Fin.ofNat 16 (fld 22 19 w)) (fld 14 14 w == 1) (Fin.ofNat 16 (fld 13 10 w)) (Fin.ofNat 16 (fld 8 5 w))⟩
  | 19 => some ⟨fld 18 15 w == 0 && fld 9 9 w == 0 && fld 4 0 w == 0, true,
      .sQstat (Fin.ofNat 16 (fld 22 19 w)) (fld 14 14 w == 1) (Fin.ofNat 16 (fld 13 10 w)) (Fin.ofNat 16 (fld 8 5 w))⟩
  | 20 => some ⟨fld 18 9 w == 0 && fld 4 0 w == 0, true,
      .sQclose (Fin.ofNat 16 (fld 22 19 w)) (Fin.ofNat 16 (fld 8 5 w))⟩
  | 21 => some ⟨fld 18 0 w == 0, true,
      .sNpr (Fin.ofNat 16 (fld 22 19 w)) x⟩
  | 22 => some ⟨fld 18 0 w == 0, true,
      .sNprend (Fin.ofNat 16 (fld 22 19 w))⟩
  | 23 => some ⟨fld 18 16 w == 0, true,
      .sUev (Fin.ofNat 16 (fld 22 19 w)) (Fin.ofNat 4 (fld 15 14 w)) (Fin.ofNat 16384 (fld 13 0 w))⟩
  | 24 => some ⟨fld 18 15 w == 0 && fld 9 0 w == 0, fld 14 14 w == 1,
      .sTime (Fin.ofNat 16 (fld 22 19 w)) (Fin.ofNat 16 (fld 13 10 w))⟩
  | 25 => some ⟨fld 18 0 w == 0, true,
      .sYield (Fin.ofNat 16 (fld 22 19 w))⟩
  | _ => none

/-- The slot of a head word: ENG in [31:29], OP in [28:23] (R164). -/
def slotOf (w : Nat) (x : Word32) : Option Slot :=
  let op := fld 28 23 w
  match fld 31 29 w with
  | 0 => decodeCtrl op w x
  | 1 => decodeVec op w
  | 2 => decodeMat op w
  | 3 => decodeRow op w
  | 4 => decodeSacc op w
  | 5 => decodeXfer op w
  | 6 => decodeLoop op w
  | _ => decodeSync op w x

/-- A slot as an instruction, or the reason it is none; a word that breaks several rules has the reason R329 ranks
first. -/
def Slot.check (s : Slot) : Except Reject Instr :=
  if !(s.zeros && s.instr.zerosOk) then .error .requiredZero
  else if !(s.fixed && s.instr.limitsOk) then .error .outOfLimits
  else .ok s.instr

/-- A head word and its extension as an instruction of a core's program. -/
def decodeWord (w x : Word32) : Except Reject Instr :=
  match slotOf w.toNat x with
  | none => .error .unassignedSlot
  | some s => s.check

/-- The slots that take an extension word (R166, R169): `cmpx`, `lit`, `lith` and `s.npr`. -/
def takesExt (w : Word32) : Bool :=
  let eng := fld 31 29 w.toNat
  let op := fld 28 23 w.toNat
  (eng == 0 && (op == 0x1B || op == 0x24 || op == 0x25)) || (eng == 7 && op == 0x15)

/-- The instruction at the head of a list of words, with the words after it. -/
def decode (ws : List Word32) : Except Reject (Instr × List Word32) :=
  match ws with
  | [] => .error .short
  | w :: rest =>
    if takesExt w then
      match rest with
      | [] => .error .short
      | x :: rest' => (decodeWord w x).map fun i => (i, rest')
    else (decodeWord w 0).map fun i => (i, rest)

/-- The fault code of a word that is not an instruction (R315, R329). -/
def Reject.code : Reject → BitVec 16
  | .short => 0x0101
  | .unassignedSlot => 0x0101
  | .requiredZero => 0x0102
  | .outOfLimits => 0x0103

/-- The sixteen opcodes of the transform sequencer (R262). -/
def slotOfTs (w : Nat) : Option Slot :=
  match fld 31 28 w with
  | 0 => some ⟨fld 27 0 w == 0, true,
      .tsEnd⟩
  | 1 => some ⟨fld 24 19 w == 0, true,
      .tsSeti (Fin.ofNat 8 (fld 27 25 w)) (BitVec.ofNat 19 (fld 18 0 w))⟩
  | 2 => some ⟨fld 21 19 w == 0, true,
      .tsAddi (Fin.ofNat 8 (fld 27 25 w)) (Fin.ofNat 8 (fld 24 22 w)) (BitVec.ofNat 19 (fld 18 0 w))⟩
  | 3 => some ⟨fld 18 0 w == 0, true,
      .tsAdd (Fin.ofNat 8 (fld 27 25 w)) (Fin.ofNat 8 (fld 24 22 w)) (Fin.ofNat 8 (fld 21 19 w))⟩
  | 4 => some ⟨fld 27 27 w == 0 && fld 21 0 w == 0, true,
      .tsSetc (Fin.ofNat 4 (fld 26 25 w)) (Fin.ofNat 8 (fld 24 22 w))⟩
  | 5 => some ⟨fld 27 27 w == 0 && fld 24 19 w == 0, true,
      .tsLoop (Fin.ofNat 4 (fld 26 25 w)) (BitVec.ofNat 19 (fld 18 0 w))⟩
  | 6 => some ⟨fld 27 19 w == 0, true,
      .tsJmp (BitVec.ofNat 19 (fld 18 0 w))⟩
  | 7 => some ⟨fld 21 19 w == 0, true,
      .tsSetb (Fin.ofNat 8 (fld 27 25 w)) (Fin.ofNat 8 (fld 24 22 w)) (Fin.ofNat 524288 (fld 18 0 w))⟩
  | 8 => some ⟨fld 27 25 w == 0 && fld 18 0 w == 0, true,
      .tsZexp (Fin.ofNat 8 (fld 24 22 w)) (Fin.ofNat 8 (fld 21 19 w))⟩
  | 9 => some ⟨fld 18 0 w == 0, true,
      .tsZcmp (Fin.ofNat 8 (fld 27 25 w)) (Fin.ofNat 8 (fld 24 22 w)) (Fin.ofNat 8 (fld 21 19 w))⟩
  | 10 => some ⟨fld 27 25 w == 0, true,
      .tsMvlo (Fin.ofNat 8 (fld 24 22 w)) (Fin.ofNat 8 (fld 21 19 w)) (Fin.ofNat 524288 (fld 18 0 w))⟩
  | 11 => some ⟨fld 27 25 w == 0, true,
      .tsMvhi (Fin.ofNat 8 (fld 24 22 w)) (Fin.ofNat 8 (fld 21 19 w)) (Fin.ofNat 524288 (fld 18 0 w))⟩
  | 12 => some ⟨fld 27 27 w == 0 && fld 24 0 w == 0, true,
      .tsWaitt (Fin.ofNat 4 (fld 26 25 w))⟩
  | 13 => some ⟨fld 27 25 w == 0 && fld 21 4 w == 0, true,
      .tsPost (Fin.ofNat 8 (fld 24 22 w)) (Fin.ofNat 16 (fld 3 0 w))⟩
  | 14 => some ⟨fld 27 0 w == 0, true,
      .tsFence⟩
  | _ => some ⟨fld 27 25 w == 0 && fld 21 19 w == 0, true,
      .tsBnz (Fin.ofNat 8 (fld 24 22 w)) (BitVec.ofNat 19 (fld 18 0 w))⟩

/-- A transform-sequencer word as an instruction. The limits of R331 are checked where the word issues. -/
def decodeTs (w : Word32) : Except Reject Instr :=
  match slotOfTs w.toNat with
  | none => .error .unassignedSlot
  | some s => s.check

/-- The head word of an instruction as a number: ENG × 2^29 + OP × 2^23 + PRED × 2^19 and the operand fields at their
places (R164, R165); OPC × 2^28 and the fields for a transform-sequencer word (R262). A row that is a step of a unit
has no word. -/
def encodeNat : Instr → Nat
  | .trailerWord m => m.toNat
  | .nop p => 0x00800000 + p.val * 0x80000
  | .add p d a b => 0x01000000 + p.val * 0x80000 + d.val * 0x4000 + a.val * 0x200 + b.val * 0x10
  | .sub p d a b => 0x01800000 + p.val * 0x80000 + d.val * 0x4000 + a.val * 0x200 + b.val * 0x10
  | .mul p d a b => 0x02000000 + p.val * 0x80000 + d.val * 0x4000 + a.val * 0x200 + b.val * 0x10
  | .mulh p d a b u => 0x02800000 + p.val * 0x80000 + d.val * 0x4000 + a.val * 0x200 + b.val * 0x10 + u.toNat
  | .div p d a b u => 0x03000000 + p.val * 0x80000 + d.val * 0x4000 + a.val * 0x200 + b.val * 0x10 + u.toNat
  | .rem p d a b u => 0x03800000 + p.val * 0x80000 + d.val * 0x4000 + a.val * 0x200 + b.val * 0x10 + u.toNat
  | .and p d a b => 0x04000000 + p.val * 0x80000 + d.val * 0x4000 + a.val * 0x200 + b.val * 0x10
  | .or p d a b => 0x04800000 + p.val * 0x80000 + d.val * 0x4000 + a.val * 0x200 + b.val * 0x10
  | .xor p d a b => 0x05000000 + p.val * 0x80000 + d.val * 0x4000 + a.val * 0x200 + b.val * 0x10
  | .andn p d a b => 0x05800000 + p.val * 0x80000 + d.val * 0x4000 + a.val * 0x200 + b.val * 0x10
  | .shl p d a b => 0x06000000 + p.val * 0x80000 + d.val * 0x4000 + a.val * 0x200 + b.val * 0x10
  | .shr p d a b => 0x06800000 + p.val * 0x80000 + d.val * 0x4000 + a.val * 0x200 + b.val * 0x10
  | .sra p d a b => 0x07000000 + p.val * 0x80000 + d.val * 0x4000 + a.val * 0x200 + b.val * 0x10
  | .min p d a b u => 0x07800000 + p.val * 0x80000 + d.val * 0x4000 + a.val * 0x200 + b.val * 0x10 + u.toNat
  | .max p d a b u => 0x08000000 + p.val * 0x80000 + d.val * 0x4000 + a.val * 0x200 + b.val * 0x10 + u.toNat
  | .sel p d a b c => 0x08800000 + p.val * 0x80000 + d.val * 0x4000 + a.val * 0x200 + b.val * 0x10 + c.val
  | .addi p d a i => 0x09000000 + p.val * 0x80000 + d.val * 0x4000 + a.val * 0x200 + i.toNat
  | .andi p d a i => 0x09800000 + p.val * 0x80000 + d.val * 0x4000 + a.val * 0x200 + i.toNat
  | .ori p d a i => 0x0A000000 + p.val * 0x80000 + d.val * 0x4000 + a.val * 0x200 + i.toNat
  | .xori p d a i => 0x0A800000 + p.val * 0x80000 + d.val * 0x4000 + a.val * 0x200 + i.toNat
  | .shli p d a n => 0x0B000000 + p.val * 0x80000 + d.val * 0x4000 + a.val * 0x200 + n.val
  | .shri p d a n => 0x0B800000 + p.val * 0x80000 + d.val * 0x4000 + a.val * 0x200 + n.val
  | .srai p d a n => 0x0C000000 + p.val * 0x80000 + d.val * 0x4000 + a.val * 0x200 + n.val
  | .muli p d a i => 0x0C800000 + p.val * 0x80000 + d.val * 0x4000 + a.val * 0x200 + i.toNat
  | .cmp p d a b c => 0x0D000000 + p.val * 0x80000 + d.val * 0x4000 + a.val * 0x200 + b.val * 0x10 + c.val
  | .cmpx p d a c _ => 0x0D800000 + p.val * 0x80000 + d.val * 0x4000 + a.val * 0x200 + c.val
  | .pand p d a b => 0x0E000000 + p.val * 0x80000 + d.val * 0x4000 + a.val * 0x200 + b.val * 0x10
  | .por p d a b => 0x0E800000 + p.val * 0x80000 + d.val * 0x4000 + a.val * 0x200 + b.val * 0x10
  | .pxor p d a b => 0x0F000000 + p.val * 0x80000 + d.val * 0x4000 + a.val * 0x200 + b.val * 0x10
  | .pandn p d a b => 0x0F800000 + p.val * 0x80000 + d.val * 0x4000 + a.val * 0x200 + b.val * 0x10
  | .pset p d b => 0x10000000 + p.val * 0x80000 + d.val * 0x4000 + b.toNat
  | .prd p d => 0x10800000 + p.val * 0x80000 + d.val * 0x4000
  | .pwr p s => 0x11000000 + p.val * 0x80000 + s.val * 0x4000
  | .li p d i => 0x11800000 + p.val * 0x80000 + d.val * 0x4000 + i.toNat
  | .lit p d _ => 0x12000000 + p.val * 0x80000 + d.val * 0x4000
  | .lith p d _ => 0x12800000 + p.val * 0x80000 + d.val * 0x4000
  | .ld p d a i => 0x13000000 + p.val * 0x80000 + d.val * 0x4000 + a.val * 0x200 + i.toNat
  | .ldx p d a b e w => 0x13800000 + p.val * 0x80000 + d.val * 0x4000 + a.val * 0x200 + b.val * 0x10 + e.toNat * 0x4 + w.val
  | .st p s a i => 0x14000000 + p.val * 0x80000 + s.val * 0x4000 + a.val * 0x200 + i.toNat
  | .stx p s a b e w => 0x14800000 + p.val * 0x80000 + s.val * 0x4000 + a.val * 0x200 + b.val * 0x10 + e.toNat * 0x4 + w.val
  | .cvta p d a w => 0x15000000 + p.val * 0x80000 + d.val * 0x4000 + a.val * 0x200 + w.code.val
  | .isap p d a w => 0x15800000 + p.val * 0x80000 + d.val * 0x4000 + a.val * 0x200 + w.code.val
  | .br p o => 0x16000000 + p.val * 0x80000 + o.toNat
  | .call p o => 0x16800000 + p.val * 0x80000 + o.toNat
  | .jr p a => 0x17000000 + p.val * 0x80000 + a.val * 0x200
  | .loopb p o => 0x17800000 + p.val * 0x80000 + o.toNat
  | .push p q s => 0x18000000 + p.val * 0x80000 + q.val * 0x8000 + s.val * 0x400
  | .pop p q d => 0x18800000 + p.val * 0x80000 + q.val * 0x8000 + d.val * 0x400
  | .peek p q d => 0x19000000 + p.val * 0x80000 + q.val * 0x8000 + d.val * 0x400
  | .qfence p m => 0x19800000 + p.val * 0x80000 + m.toNat
  | .mfsr p d n => 0x1A000000 + p.val * 0x80000 + d.val * 0x4000 + n.val
  | .mtsr p s n => 0x1A800000 + p.val * 0x80000 + s.val * 0x4000 + n.val
  | .uret p => 0x1B000000 + p.val * 0x80000
  | .sext p d a e w => 0x1B800000 + p.val * 0x80000 + d.val * 0x4000 + a.val * 0x200 + e.toNat * 0x4 + w.val
  | .zext p d a e w => 0x1C000000 + p.val * 0x80000 + d.val * 0x4000 + a.val * 0x200 + e.toNat * 0x4 + w.val
  | .clz p d a => 0x1C800000 + p.val * 0x80000 + d.val * 0x4000 + a.val * 0x200
  | .popc p d a => 0x1D000000 + p.val * 0x80000 + d.val * 0x4000 + a.val * 0x200
  | .setlc p s i => 0x1D800000 + p.val * 0x80000 + s.val * 0x4000 + i.toNat
  | .setec p s i => 0x1E000000 + p.val * 0x80000 + s.val * 0x4000 + i.toNat
  | .setrot p s i => 0x1E800000 + p.val * 0x80000 + s.val * 0x4000 + i.toNat
  | .vSeta p q d => 0x20000000 + p.val * 0x80000 + q.val * 0x8000 + d.val * 0x400
  | .vAdd p t r d a s b => 0x20800000 + p.val * 0x80000 + t.code.val * 0x8000 + r.code.val / 2 % 2 * 0x4000 + r.code.val % 2 * 0x200 + d.val * 0x400 + a.val * 0x20 + s.toNat * 0x10 + b.val
  | .vSub p t r d a s b => 0x21000000 + p.val * 0x80000 + t.code.val * 0x8000 + r.code.val / 2 % 2 * 0x4000 + r.code.val % 2 * 0x200 + d.val * 0x400 + a.val * 0x20 + s.toNat * 0x10 + b.val
  | .vMul p t r d a s b => 0x21800000 + p.val * 0x80000 + t.code.val * 0x8000 + r.code.val / 2 % 2 * 0x4000 + r.code.val % 2 * 0x200 + d.val * 0x400 + a.val * 0x20 + s.toNat * 0x10 + b.val
  | .vDiv p t r d a s b => 0x22000000 + p.val * 0x80000 + t.code.val * 0x8000 + r.code.val / 2 % 2 * 0x4000 + r.code.val % 2 * 0x200 + d.val * 0x400 + a.val * 0x20 + s.toNat * 0x10 + b.val
  | .vFma p t r d a s b => 0x22800000 + p.val * 0x80000 + t.code.val * 0x8000 + r.code.val / 2 % 2 * 0x4000 + r.code.val % 2 * 0x200 + d.val * 0x400 + a.val * 0x20 + s.toNat * 0x10 + b.val
  | .vFms p t r d a s b => 0x23000000 + p.val * 0x80000 + t.code.val * 0x8000 + r.code.val / 2 % 2 * 0x4000 + r.code.val % 2 * 0x200 + d.val * 0x400 + a.val * 0x20 + s.toNat * 0x10 + b.val
  | .vFnma p t r d a s b => 0x23800000 + p.val * 0x80000 + t.code.val * 0x8000 + r.code.val / 2 % 2 * 0x4000 + r.code.val % 2 * 0x200 + d.val * 0x400 + a.val * 0x20 + s.toNat * 0x10 + b.val
  | .vMin p t r d a s b => 0x24000000 + p.val * 0x80000 + t.code.val * 0x8000 + r.code.val / 2 % 2 * 0x4000 + r.code.val % 2 * 0x200 + d.val * 0x400 + a.val * 0x20 + s.toNat * 0x10 + b.val
  | .vMax p t r d a s b => 0x24800000 + p.val * 0x80000 + t.code.val * 0x8000 + r.code.val / 2 % 2 * 0x4000 + r.code.val % 2 * 0x200 + d.val * 0x400 + a.val * 0x20 + s.toNat * 0x10 + b.val
  | .vAbs p t r d a s => 0x25000000 + p.val * 0x80000 + t.code.val * 0x8000 + r.code.val / 2 % 2 * 0x4000 + r.code.val % 2 * 0x200 + d.val * 0x400 + a.val * 0x20 + s.toNat * 0x10
  | .vNeg p t r d a s => 0x25800000 + p.val * 0x80000 + t.code.val * 0x8000 + r.code.val / 2 % 2 * 0x4000 + r.code.val % 2 * 0x200 + d.val * 0x400 + a.val * 0x20 + s.toNat * 0x10
  | .vSqrt p t r d a => 0x26000000 + p.val * 0x80000 + t.code.val * 0x8000 + r.code.val / 2 % 2 * 0x4000 + r.code.val % 2 * 0x200 + d.val * 0x400 + a.val * 0x20
  | .vExp2 p t r d a => 0x26800000 + p.val * 0x80000 + t.code.val * 0x8000 + r.code.val / 2 % 2 * 0x4000 + r.code.val % 2 * 0x200 + d.val * 0x400 + a.val * 0x20
  | .vLog2 p t r d a => 0x27000000 + p.val * 0x80000 + t.code.val * 0x8000 + r.code.val / 2 % 2 * 0x4000 + r.code.val % 2 * 0x200 + d.val * 0x400 + a.val * 0x20
  | .vRecip p t r d a => 0x27800000 + p.val * 0x80000 + t.code.val * 0x8000 + r.code.val / 2 % 2 * 0x4000 + r.code.val % 2 * 0x200 + d.val * 0x400 + a.val * 0x20
  | .vRsqrt p t r d a => 0x28000000 + p.val * 0x80000 + t.code.val * 0x8000 + r.code.val / 2 % 2 * 0x4000 + r.code.val % 2 * 0x200 + d.val * 0x400 + a.val * 0x20
  | .vTanh p t r d a => 0x28800000 + p.val * 0x80000 + t.code.val * 0x8000 + r.code.val / 2 % 2 * 0x4000 + r.code.val % 2 * 0x200 + d.val * 0x400 + a.val * 0x20
  | .vAnd p t d a b => 0x29000000 + p.val * 0x80000 + t.code.val * 0x8000 + d.val * 0x400 + a.val * 0x20 + b.val
  | .vOr p t d a b => 0x29800000 + p.val * 0x80000 + t.code.val * 0x8000 + d.val * 0x400 + a.val * 0x20 + b.val
  | .vXor p t d a b => 0x2A000000 + p.val * 0x80000 + t.code.val * 0x8000 + d.val * 0x400 + a.val * 0x20 + b.val
  | .vShl p t d a b => 0x2A800000 + p.val * 0x80000 + t.code.val * 0x8000 + d.val * 0x400 + a.val * 0x20 + b.val
  | .vShr p t d a b => 0x2B000000 + p.val * 0x80000 + t.code.val * 0x8000 + d.val * 0x400 + a.val * 0x20 + b.val
  | .vSra p t d a b => 0x2B800000 + p.val * 0x80000 + t.code.val * 0x8000 + d.val * 0x400 + a.val * 0x20 + b.val
  | .vMulh p t d a b => 0x2C000000 + p.val * 0x80000 + t.code.val * 0x8000 + d.val * 0x400 + a.val * 0x20 + b.val
  | .vCmpeq p t d a b => 0x2C800000 + p.val * 0x80000 + t.code.val * 0x8000 + d.val * 0x400 + a.val * 0x20 + b.val
  | .vCmpne p t d a b => 0x2D000000 + p.val * 0x80000 + t.code.val * 0x8000 + d.val * 0x400 + a.val * 0x20 + b.val
  | .vCmplt p t d a b => 0x2D800000 + p.val * 0x80000 + t.code.val * 0x8000 + d.val * 0x400 + a.val * 0x20 + b.val
  | .vCmple p t d a b => 0x2E000000 + p.val * 0x80000 + t.code.val * 0x8000 + d.val * 0x400 + a.val * 0x20 + b.val
  | .vSel p t d a b => 0x2E800000 + p.val * 0x80000 + t.code.val * 0x8000 + d.val * 0x400 + a.val * 0x20 + b.val
  | .vCvt p t r d a s b => 0x2F000000 + p.val * 0x80000 + t.code.val * 0x8000 + r.code.val / 2 % 2 * 0x4000 + r.code.val % 2 * 0x200 + d.val * 0x400 + a.val * 0x20 + s.toNat * 0x10 + b.val
  | .vRsum p t r d a s => 0x2F800000 + p.val * 0x80000 + t.code.val * 0x8000 + r.code.val / 2 % 2 * 0x4000 + r.code.val % 2 * 0x200 + d.val * 0x400 + a.val * 0x20 + s.toNat * 0x10
  | .vRmax p t d a => 0x30000000 + p.val * 0x80000 + t.code.val * 0x8000 + d.val * 0x400 + a.val * 0x20
  | .vRmin p t d a => 0x30800000 + p.val * 0x80000 + t.code.val * 0x8000 + d.val * 0x400 + a.val * 0x20
  | .vCopy p t d a => 0x31000000 + p.val * 0x80000 + t.code.val * 0x8000 + d.val * 0x400 + a.val * 0x20
  | .vFill p q d => 0x31800000 + p.val * 0x80000 + q.val * 0x8000 + d.val * 0x400
  | .vIota p q r d s => 0x32000000 + p.val * 0x80000 + q.val * 0x8000 + r.code.val / 2 % 2 * 0x4000 + r.code.val % 2 * 0x200 + d.val * 0x400 + s.toNat * 0x10
  | .vClamp p q d a => 0x32800000 + p.val * 0x80000 + q.val * 0x8000 + d.val * 0x400 + a.val * 0x20
  | .vAddq p q r d a s => 0x33000000 + p.val * 0x80000 + q.val * 0x8000 + r.code.val / 2 % 2 * 0x4000 + r.code.val % 2 * 0x200 + d.val * 0x400 + a.val * 0x20 + s.toNat * 0x10
  | .vMulq p q r d a s => 0x33800000 + p.val * 0x80000 + q.val * 0x8000 + r.code.val / 2 % 2 * 0x4000 + r.code.val % 2 * 0x200 + d.val * 0x400 + a.val * 0x20 + s.toNat * 0x10
  | .vFmaq p q r d a s => 0x34000000 + p.val * 0x80000 + q.val * 0x8000 + r.code.val / 2 % 2 * 0x4000 + r.code.val % 2 * 0x200 + d.val * 0x400 + a.val * 0x20 + s.toNat * 0x10
  | .vGather p t d a b => 0x34800000 + p.val * 0x80000 + t.code.val * 0x8000 + d.val * 0x400 + a.val * 0x20 + b.val
  | .vScatter p t d a b => 0x35000000 + p.val * 0x80000 + t.code.val * 0x8000 + d.val * 0x400 + a.val * 0x20 + b.val
  | .vCnt p t d a => 0x35800000 + p.val * 0x80000 + t.code.val * 0x8000 + d.val * 0x400 + a.val * 0x20
  | .mSett p q d => 0x40000000 + p.val * 0x80000 + q.val * 0x8000 + d.val * 0x400
  | .mMma p d a b => 0x40800000 + p.val * 0x80000 + d.val * 0x400 + a.val * 0x20 + b.val
  | .mMmat p d a b => 0x41000000 + p.val * 0x80000 + d.val * 0x400 + a.val * 0x20 + b.val
  | .mClr p t d => 0x41800000 + p.val * 0x80000 + t.code.val * 0x8000 + d.val * 0x400
  | .mCvt p t d a s => 0x42000000 + p.val * 0x80000 + t.code.val * 0x8000 + d.val * 0x400 + a.val * 0x20 + s.toNat * 0x10
  | .mBias p d a => 0x42800000 + p.val * 0x80000 + d.val * 0x400 + a.val * 0x20
  | .mTr p t d a => 0x43000000 + p.val * 0x80000 + t.code.val * 0x8000 + d.val * 0x400 + a.val * 0x20
  | .mScl p q d => 0x43800000 + p.val * 0x80000 + q.val * 0x8000 + d.val * 0x400
  | .mCopy p t d a => 0x44000000 + p.val * 0x80000 + t.code.val * 0x8000 + d.val * 0x400 + a.val * 0x20
  | .mDrop p => 0x44800000 + p.val * 0x80000
  | .mAdd p d a => 0x45000000 + p.val * 0x80000 + d.val * 0x400 + a.val * 0x20
  | .mRelu p d => 0x45800000 + p.val * 0x80000 + d.val * 0x400
  | .rowSeta p q d => 0x60000000 + p.val * 0x80000 + q.val * 0x8000 + d.val * 0x400
  | .rowMax p q d a => 0x60800000 + p.val * 0x80000 + q.val * 0x8000 + d.val * 0x400 + a.val * 0x20
  | .rowExpsum p q d a b => 0x61000000 + p.val * 0x80000 + q.val * 0x8000 + d.val * 0x400 + a.val * 0x20 + b.val
  | .rowScale p q d a b => 0x61800000 + p.val * 0x80000 + q.val * 0x8000 + d.val * 0x400 + a.val * 0x20 + b.val
  | .rowSoft p q d a => 0x62000000 + p.val * 0x80000 + q.val * 0x8000 + d.val * 0x400 + a.val * 0x20
  | .rowSum p q d a => 0x62800000 + p.val * 0x80000 + q.val * 0x8000 + d.val * 0x400 + a.val * 0x20
  | .rowNorm p q d a => 0x63000000 + p.val * 0x80000 + q.val * 0x8000 + d.val * 0x400 + a.val * 0x20
  | .rowRms p q d a b => 0x63800000 + p.val * 0x80000 + q.val * 0x8000 + d.val * 0x400 + a.val * 0x20 + b.val
  | .saSeta p q d => 0x80000000 + p.val * 0x80000 + q.val * 0x8000 + d.val * 0x400
  | .saAdd p q s e w i v => 0x80800000 + p.val * 0x80000 + q.val * 0x8000 + s.val / 4 % 2 * 0x4000 + s.val / 2 % 2 * 0x200 + s.val % 2 * 0x10 + e.toNat * 0x2000 + w.val * 0x400 + i.toNat * 0x20 + v.val
  | .saMin p q s e w i v => 0x81000000 + p.val * 0x80000 + q.val * 0x8000 + s.val / 4 % 2 * 0x4000 + s.val / 2 % 2 * 0x200 + s.val % 2 * 0x10 + e.toNat * 0x2000 + w.val * 0x400 + i.toNat * 0x20 + v.val
  | .saMax p q s e w i v => 0x81800000 + p.val * 0x80000 + q.val * 0x8000 + s.val / 4 % 2 * 0x4000 + s.val / 2 % 2 * 0x200 + s.val % 2 * 0x10 + e.toNat * 0x2000 + w.val * 0x400 + i.toNat * 0x20 + v.val
  | .saAnd p q s e w i v => 0x82000000 + p.val * 0x80000 + q.val * 0x8000 + s.val / 4 % 2 * 0x4000 + s.val / 2 % 2 * 0x200 + s.val % 2 * 0x10 + e.toNat * 0x2000 + w.val * 0x400 + i.toNat * 0x20 + v.val
  | .saOr p q s e w i v => 0x82800000 + p.val * 0x80000 + q.val * 0x8000 + s.val / 4 % 2 * 0x4000 + s.val / 2 % 2 * 0x200 + s.val % 2 * 0x10 + e.toNat * 0x2000 + w.val * 0x400 + i.toNat * 0x20 + v.val
  | .saXor p q s e w i v => 0x83000000 + p.val * 0x80000 + q.val * 0x8000 + s.val / 4 % 2 * 0x4000 + s.val / 2 % 2 * 0x200 + s.val % 2 * 0x10 + e.toNat * 0x2000 + w.val * 0x400 + i.toNat * 0x20 + v.val
  | .saSwap p q s e w i v => 0x83800000 + p.val * 0x80000 + q.val * 0x8000 + s.val / 4 % 2 * 0x4000 + s.val / 2 % 2 * 0x200 + s.val % 2 * 0x10 + e.toNat * 0x2000 + w.val * 0x400 + i.toNat * 0x20 + v.val
  | .saCas p q s w i v => 0x84002000 + p.val * 0x80000 + q.val * 0x8000 + s.val / 4 % 2 * 0x4000 + s.val / 2 % 2 * 0x200 + s.val % 2 * 0x10 + w.val * 0x400 + i.toNat * 0x20 + v.val
  | .saCnt p q s e w i => 0x84800000 + p.val * 0x80000 + q.val * 0x8000 + s.val / 4 % 2 * 0x4000 + s.val / 2 % 2 * 0x200 + s.val % 2 * 0x10 + e.toNat * 0x2000 + w.val * 0x400 + i.toNat * 0x20
  | .saScope p s => 0x85000000 + p.val * 0x80000 + s.val / 4 % 2 * 0x4000 + s.val / 2 % 2 * 0x200 + s.val % 2 * 0x10
  | .saFlush p => 0x85800000 + p.val * 0x80000
  | .xLdshape p q s => 0xA0000000 + p.val * 0x80000 + q.val * 0x8000 + s.val * 0x400
  | .xEvict p q s => 0xA0800000 + p.val * 0x80000 + q.val * 0x8000 + s.val * 0x400
  | .xLd1 p q s => 0xA1000000 + p.val * 0x80000 + q.val * 0x8000 + s.val * 0x400
  | .xSt1 p q s => 0xA1800000 + p.val * 0x80000 + q.val * 0x8000 + s.val * 0x400
  | .xCp1 p q => 0xA2000000 + p.val * 0x80000 + q.val * 0x8000
  | .xLd2 p q s => 0xA2800000 + p.val * 0x80000 + q.val * 0x8000 + s.val * 0x400
  | .xSt2 p q s => 0xA3000000 + p.val * 0x80000 + q.val * 0x8000 + s.val * 0x400
  | .xCp2 p q => 0xA3800000 + p.val * 0x80000 + q.val * 0x8000
  | .xLd3 p q s => 0xA4000000 + p.val * 0x80000 + q.val * 0x8000 + s.val * 0x400
  | .xSt3 p q s => 0xA4800000 + p.val * 0x80000 + q.val * 0x8000 + s.val * 0x400
  | .xCp3 p q => 0xA5000000 + p.val * 0x80000 + q.val * 0x8000
  | .xLd4 p q s => 0xA5800000 + p.val * 0x80000 + q.val * 0x8000 + s.val * 0x400
  | .xSt4 p q s => 0xA6000000 + p.val * 0x80000 + q.val * 0x8000 + s.val * 0x400
  | .xCp4 p q => 0xA6800000 + p.val * 0x80000 + q.val * 0x8000
  | .xDact p q => 0xA7000000 + p.val * 0x80000 + q.val * 0x8000
  | .xDpre p q => 0xA7800000 + p.val * 0x80000 + q.val * 0x8000
  | .xDref p q => 0xA8000000 + p.val * 0x80000 + q.val * 0x8000
  | .xFld p q s c k => 0xA8800000 + p.val * 0x80000 + q.val * 0x8000 + s.val * 0x400 + c.val * 0x20 + k.val
  | .xFst p q s => 0xA9000000 + p.val * 0x80000 + q.val * 0x8000 + s.val * 0x400
  | .xTrun p q => 0xA9800000 + p.val * 0x80000 + q.val * 0x8000
  | .xTok p k => 0xAA000000 + p.val * 0x80000 + k.val * 0x400
  | .xLpow p l u => 0xAA800000 + p.val * 0x80000 + l.val * 0x400 + u.toNat * 0x20
  | .lpLdtab p q => 0xC0000000 + p.val * 0x80000 + q.val * 0x8000
  | .lpDone p => 0xC0800000 + p.val * 0x80000
  | .lpSchedw p q => 0xC1000000 + p.val * 0x80000 + q.val * 0x8000
  | .lpSchedr p q u r s => 0xC1800000 + p.val * 0x80000 + q.val * 0x8000 + u.toNat * 0x4000 + r.val * 0x400 + s.toNat * 0x20
  | .lpCov p q u r => 0xC2000000 + p.val * 0x80000 + q.val * 0x8000 + u.toNat * 0x4000 + r.val * 0x400
  | .lpCovrd p q u r => 0xC2800000 + p.val * 0x80000 + q.val * 0x8000 + u.toNat * 0x4000 + r.val * 0x400
  | .lpGen p u r => 0xC3000000 + p.val * 0x80000 + u.toNat * 0x4000 + r.val * 0x400
  | .lpStat p u r => 0xC3800000 + p.val * 0x80000 + u.toNat * 0x4000 + r.val * 0x400
  | .lpAddp p q => 0xC4000000 + p.val * 0x80000 + q.val * 0x8000
  | .lpPend p u r => 0xC4800000 + p.val * 0x80000 + u.toNat * 0x4000 + r.val * 0x400
  | .lpPos p q u r => 0xC5000000 + p.val * 0x80000 + q.val * 0x8000 + u.toNat * 0x4000 + r.val * 0x400
  | .lpDrain p => 0xC5800000 + p.val * 0x80000
  | .lpPermits p u r => 0xC6000000 + p.val * 0x80000 + u.toNat * 0x4000 + r.val * 0x400
  | .lpRec p u r => 0xC6800000 + p.val * 0x80000 + u.toNat * 0x4000 + r.val * 0x400
  | .sArm p q f => 0xE0000000 + p.val * 0x80000 + q.val * 0x8000 + f.toNat * 0x20
  | .sArmc p q f => 0xE0800000 + p.val * 0x80000 + q.val * 0x8000 + f.toNat * 0x20
  | .sDisarm p q => 0xE1000000 + p.val * 0x80000 + q.val * 0x8000
  | .sSig p q => 0xE1800000 + p.val * 0x80000 + q.val * 0x8000
  | .sWait p q u r => 0xE2000000 + p.val * 0x80000 + q.val * 0x8000 + u.toNat * 0x4000 + r.val * 0x400
  | .sWaitn p q => 0xE2800000 + p.val * 0x80000 + q.val * 0x8000
  | .sBstat p q u r => 0xE3000000 + p.val * 0x80000 + q.val * 0x8000 + u.toNat * 0x4000 + r.val * 0x400
  | .sFnew p q => 0xE3800000 + p.val * 0x80000 + q.val * 0x8000
  | .sFjoin p q => 0xE4000000 + p.val * 0x80000 + q.val * 0x8000
  | .sFres p q => 0xE4800000 + p.val * 0x80000 + q.val * 0x8000
  | .sFpeek p q u r => 0xE5000000 + p.val * 0x80000 + q.val * 0x8000 + u.toNat * 0x4000 + r.val * 0x400
  | .sLaunch p q u r => 0xE5800000 + p.val * 0x80000 + q.val * 0x8000 + u.toNat * 0x4000 + r.val * 0x400
  | .sExit p q k => 0xE6000000 + p.val * 0x80000 + q.val * 0x8000 + k.val * 0x400
  | .sHalt p => 0xE6800000 + p.val * 0x80000
  | .sPhase p q n => 0xE7000000 + p.val * 0x80000 + q.val * 0x8000 + n.toNat * 0x20
  | .sQopen p s => 0xE7800000 + p.val * 0x80000 + s.val * 0x20
  | .sQsplit p q => 0xE8000000 + p.val * 0x80000 + q.val * 0x8000
  | .sQret p q => 0xE8800000 + p.val * 0x80000 + q.val * 0x8000
  | .sWaitq p u r s => 0xE9000000 + p.val * 0x80000 + u.toNat * 0x4000 + r.val * 0x400 + s.val * 0x20
  | .sQstat p u r s => 0xE9800000 + p.val * 0x80000 + u.toNat * 0x4000 + r.val * 0x400 + s.val * 0x20
  | .sQclose p s => 0xEA000000 + p.val * 0x80000 + s.val * 0x20
  | .sNpr p _ => 0xEA800000 + p.val * 0x80000
  | .sNprend p => 0xEB000000 + p.val * 0x80000
  | .sUev p c e => 0xEB800000 + p.val * 0x80000 + c.val * 0x4000 + e.val
  | .sTime p r => 0xEC004000 + p.val * 0x80000 + r.val * 0x400
  | .sYield p => 0xEC800000 + p.val * 0x80000
  | .tsEnd => 0
  | .tsSeti d i => 0x10000000 + d.val * 0x2000000 + i.toNat
  | .tsAddi d a i => 0x20000000 + d.val * 0x2000000 + a.val * 0x400000 + i.toNat
  | .tsAdd d a b => 0x30000000 + d.val * 0x2000000 + a.val * 0x400000 + b.val * 0x80000
  | .tsSetc c a => 0x40000000 + c.val * 0x2000000 + a.val * 0x400000
  | .tsLoop c o => 0x50000000 + c.val * 0x2000000 + o.toNat
  | .tsJmp o => 0x60000000 + o.toNat
  | .tsSetb e b x => 0x70000000 + e.val * 0x2000000 + b.val * 0x400000 + x.val
  | .tsZexp a b => 0x80000000 + a.val * 0x400000 + b.val * 0x80000
  | .tsZcmp d a b => 0x90000000 + d.val * 0x2000000 + a.val * 0x400000 + b.val * 0x80000
  | .tsMvlo a b n => 0xA0000000 + a.val * 0x400000 + b.val * 0x80000 + n.val
  | .tsMvhi a b n => 0xB0000000 + a.val * 0x400000 + b.val * 0x80000 + n.val
  | .tsWaitt k => 0xC0000000 + k.val * 0x2000000
  | .tsPost a q => 0xD0000000 + a.val * 0x400000 + q.val
  | .tsFence => 0xE0000000
  | .tsBnz a o => 0xF0000000 + a.val * 0x400000 + o.toNat
  | .unassignedWord _ => 0
  | .powerOn => 0
  | .bridgeClaim => 0
  | .bridgeClaimTimeout => 0
  | .reset => 0
  | .enabled => 0
  | .nonce => 0
  | .faultact => 0
  | .tlbinv => 0
  | .refwinWrite => 0
  | .bankbudgetWrite => 0
  | .bustimingWrite => 0
  | .registerWrite => 0
  | .hostMemoryRead => 0
  | .hostMemoryWrite => 0
  | .hostEnqueueWrite => 0
  | .launchEnqueue => 0
  | .dealerChoice => 0
  | .gangReservation => 0
  | .gangStart => 0
  | .taskBoundary => 0
  | .taskStart => 0
  | .launchCompletion => 0
  | .donenextDeferred => 0
  | .taskStop => 0
  | .imageSaveComplete => 0
  | .taskResume => 0
  | .waitingTaskReady => 0
  | .fillerCollectiveWait => 0
  | .fillerReturn => 0
  | .futureCreate => 0
  | .futureJoin => 0
  | .futureResolve => 0
  | .futurePoison => 0
  | .entrySatisfaction => 0
  | .borrowDebit => 0
  | .borrowGrant => 0
  | .weightReturn => 0
  | .waitqComplete => 0
  | .implicitExit => 0
  | .barrierArm => 0
  | .barrierDisarm => 0
  | .barrierCount => 0
  | .barrierWait => 0
  | .syncAnswer => 0
  | .notifyEventArrival => 0
  | .eventTake => 0
  | .phaseBoundary => 0
  | .columnPowerDown => 0
  | .columnPowerUp => 0
  | .columnReset => 0
  | .lpDealRecord => 0
  | .coverageRegistration => 0
  | .registrationAnswer => 0
  | .coverageClaim => 0
  | .claimAnswer => 0
  | .rewriteWrite => 0
  | .pendingNotice => 0
  | .rewriteCommit => 0
  | .commitNotice => 0
  | .dealingComplete => 0
  | .completionNotice => 0
  | .endRecordPush => 0
  | .copyCompletion => 0
  | .passAccumulation => 0
  | .saHomeUpdate => 0
  | .tsProgramTurn => 0
  | .tsProgramEnd => 0
  | .bankPeriodStart => 0
  | .forcedRefresh => 0
  | .forcedRefreshEnd => 0
  | .dramSensorReading => 0
  | .layerWakeComplete => 0
  | .layerPowerOff => 0
  | .migrationService => 0
  | .migrationComplete => 0
  | .walkFill => 0
  | .correctedRewrite => 0
  | .deferredFault => 0
  | .faultHandlerEnd => 0
  | .faultTaken => 0
  | .queueDeadlock => 0
  | .formatUnderflow => 0
  | .trapStreamTimeout => 0
  | .regionOverrun => 0
  | .repairWindow => 0
  | .laneReplacement => 0
  | .laneReplacementEnd => 0
  | .talonReplacement => 0
  | .talonReplacementEnd => 0
  | .sliceRetired => 0
  | .coreWithdrawn => 0
  | .governorSample => 0
  | .tokenPeriod => 0
  | .thermalManagerAction => 0
  | .thermalTrip => 0
  | .throttleEnd => 0
  | .telemetryRecord => 0
  | .telemetryHostCopy => 0
  | .ptpSyncSend => 0
  | .ptpSyncArrival => 0
  | .linkDelayMeasure => 0
  | .todMessage => 0
  | .ppsEdge => 0
  | .ptmSteer => 0
  | .timeSourceLoss => 0
  | .flitReceive => 0
  | .portDown => 0
  | .portTrained => 0
  | .routeRecompute => 0
  | .engineWordStart => 0
  | .resultLanding => 0
  | .accessPoint => 0
  | .microStep => 0
  | .elementWriteLands => 0
  | .dramCommandIssue => 0
  | .tsDataPosting => 0
  | .pcieLinkLoss => 0

/-- The extension word of an instruction that takes one (R166). -/
def encodeExt : Instr → Option Word32
  | .cmpx _ _ _ _ x => some x
  | .lit _ _ x => some x
  | .lith _ _ x => some x
  | .sNpr _ x => some x
  | _ => none

/-- The words of an instruction: its head word, then its extension word if its slot takes one. -/
def encode (i : Instr) : List Word32 :=
  match encodeExt i with
  | some x => [BitVec.ofNat 32 (encodeNat i), x]
  | none => [BitVec.ofNat 32 (encodeNat i)]

/-- A word as the decoder of the core's engines reads it, an instruction or the word that is none (R328). -/
def fetchInstr (w x : Word32) : Instr :=
  match decodeWord w x with
  | .ok i => i
  | .error _ => .unassignedWord w

/-- A transform-sequencer word as the sequencer reads it. -/
def fetchTs (w : Word32) : Instr :=
  match decodeTs w with
  | .ok i => i
  | .error _ => .unassignedWord w

/-- The instruction whose bits are w, numbered as the opcode table numbers them: the head word in bits 31 to 0 and its
extension word in bits 63 to 32. A word that no engine of a core takes is read as a transform-sequencer word. -/
def decodeTableWord (nbits w : Nat) : Option Instr :=
  let v := w % 2 ^ nbits
  let h := BitVec.ofNat 32 v
  let x := BitVec.ofNat 32 (v / 2 ^ 32)
  match decodeWord h x with
  | .ok i => some i
  | .error _ =>
    match decodeTs h with
    | .ok i => some i
    | .error _ => none

end Sys2Proof
end

