-- ==== Sys2Proof/Config.lean ====
section
/-! DEFINITION. What the spec leaves open, as constants without a body: nothing in a proof can see a value of one. -/

namespace Sys2Proof.Config

/-- The choice that one of the spec's "one of:" lists leaves to the hardware, for each use of the machine's free-value
counter: which of two operations of one cycle comes first (R118, R363). -/
opaque freeChoice : Nat → Bool

/-- A latency that the spec does not fix, for each use of the counter: far memory (R72), the host and the bridge
(R304), writing and reading a snapshot (R96), the fault handler's duration (R322), a packet's way (R269). -/
opaque freeLatency : Nat → Nat

/-- What TRAPADDR and a fault record's ADDR hold for a fault that concerns no address (R319), for each use of the
counter. -/
opaque freeAddr : Nat → BitVec 64

/-- The SLH-DSA signature of the device identity over the first 336 bytes of a report (R314), as double words: the
key is the device's own. -/
opaque signature : List (BitVec 64) → List (BitVec 64)

/-- The public key of the device identity (R314), as double words. -/
opaque identityKey : Nat → BitVec 64

/-- The bytes of the package's firmware images that the boot measures (R314): the value of M0 to M7 after the boot. -/
opaque bootMeasure : Nat → BitVec 256

/-- The program that the driver's and firmware's choices leave open in physical memory: the free far-memory frame that
the migration service takes for a page (R77, R352), none when its pool is empty. -/
opaque freeFrame : Nat → Option Nat

/-- A page table entry that stands at a physical address of another package's memory (R75). -/
opaque otherEntry : Nat → BitVec 64

/-- How many of every 65,536 issue tokens the ramp governor withholds in a microsecond, for each use of the counter (R310):
the spec spreads the delays in proportion to the issue of all cores, and gives no amount. -/
opaque withheldShare : Nat → Nat

/-- Operations that the barrier backing store of a die holds for powered-down columns (R368): the spec gives its place,
and not the size of an operation in it. -/
opaque backingRoom : Nat

/-- The place to which firmware moves a live allocation before it switches a layer off (R66), a DIE-window address in a
layer below, for each use of the counter. -/
opaque freePlace : Nat → BitVec 64

/-- By how many nanoseconds a slewed clock has been moved, a number of nanoseconds after its source came back; the model
takes no more of it than the 1 µs per ms that R377 allows. -/
opaque slewed : Nat → Nat

end Sys2Proof.Config
end

