-- ==== Sys2Proof/Machine/Event.lean ====
section
/-! DEFINITION. What a unit, or the world outside, brings to a step that is a row of the opcode table: one constructor
for each such row, with the operands of the step. -/

namespace Sys2Proof.Machine

open Sys2Proof

/-- A Sprinwell port SW0 to SW11 (R14). -/
abbrev Port := Fin 12
/-- A column of the package: 8 × die + column (R14). -/
abbrev ColIx := Fin 32
/-- A package core index (R14). -/
abbrev CoreIx := Fin 256
/-- A die of the package (R14). -/
abbrev DieIx := Fin 4
/-- One of a core's two banks (R92). -/
abbrev BankIx := Fin 2

/-- A quiescence scope of a die of a package (R119, R120). -/
structure ScopeRef where
  pkg : Nat
  die : DieIx
  s : Fin 16
  deriving DecidableEq, Repr

/-- Why a task is stopped (R93, R92, R322, R285, R372). -/
inductive StopWhy where
  | preempt | pageWait | fault (code : BitVec 16) | yield | thermal | withdrawn
  deriving DecidableEq, Repr

/-- The word that awaits an answer: a queue of a context of a task, and the result queue its answer goes to. -/
structure Asker where
  tid : Nat
  q : Fin 13
  ctx : Ctx
  push : Option (Fin 16)
  /-- its micro-PC, as a record of R367 or R369 names it -/
  mpc : Nat
  /-- the package whose word asked, when it is another -/
  via : Option Nat := none
  deriving DecidableEq, Repr

/-- What enqueues a launch block (R103, R104, R279, R280). -/
inductive EnqSource where
  /-- `s.launch`: a root enqueue -/
  | launch (a : Asker)
  /-- successor number `i` of an `s.exit` -/
  | successor (a : Asker) (i : Nat)
  /-- a launch that completes at a dealer (R105) -/
  | doneNext (die : DieIx)
  /-- the host, at an offset of BAR2: a root enqueue -/
  | host (off : Nat)
  /-- the firmware's fault handler (R322) -/
  | handler
  deriving DecidableEq, Repr

/-- What borrows weight (R121), and waits for the grant: the enqueue of a block that carries weight w, an `s.exit`, an
`s.qsplit`, or a word that issues a detached item (R120). Each names the die of the requester. -/
inductive WeightNeed where
  | enqueue (die : DieIx) (blk : List (BitVec 64)) (src : EnqSource) (w : Nat) (first : Bool)
  /-- a root enqueue in a scope of another package, which draws w there -/
  | root (die : DieIx) (blk : List (BitVec 64)) (src : EnqSource) (w : Nat)
  | exit (die : DieIx) (a : Asker)
  | split (die : DieIx) (ref : BitVec 32) (u : Nat) (a : Asker)
  | item (die : DieIx) (core : CoreIx) (bank : BankIx) (a : Asker)
  deriving DecidableEq, Repr

/-- The die of the requester. -/
def WeightNeed.die : WeightNeed → DieIx
  | .enqueue d _ _ _ _ => d
  | .root d _ _ _ => d
  | .exit d _ => d
  | .split d _ _ _ => d
  | .item d _ _ _ => d

/-- An operation on a future word (R117, R278, R363). -/
inductive FutOp where
  | create (a : Option Asker)
  | join (ref : BitVec 32) (a : Option Asker)
  | resolve (v : BitVec 32) (a : Option Asker)
  | poison (code : BitVec 16)
  | peek (a : Asker)
  deriving DecidableEq, Repr

/-- The weight that a need borrows (R121). -/
def WeightNeed.amount : WeightNeed → Nat
  | .root _ _ _ w => w
  | _ => 2 ^ 32

/-- What reaches a dealer beside launch blocks and weight in transit: the requests of SYNC words, operations on futures, and
the arrivals of members at an `s.phase` (R118, R278, R281, R282). -/
inductive DealerMsg where
  /-- `s.fjoin`, sent in a cycle, at the record's dealer -/
  | join (sent : Nat) (ref : BitVec 32) (name : BitVec 64) (a : Asker)
  /-- an operation on a future, sent in a cycle, reaches its bank -/
  | reach (sent : Nat) (name : BitVec 64) (op : FutOp)
  /-- a bank of future words turns to its next operation -/
  | turn (bank : Nat)
  /-- `s.fpeek` is performed -/
  | peek (name : BitVec 64) (a : Asker)
  | qopen (s : Fin 16) (a : Asker)
  | qclose (s : Fin 16) (a : Asker)
  | qstat (s : Fin 16) (a : Asker)
  | waitq (s : Fin 16) (a : Asker)
  | qsplit (ref : BitVec 32) (u : Nat) (a : Asker)
  | qret (u : Nat) (a : Asker)
  /-- u units moved by an `s.qsplit` reach the record of another die; they are the scope's -/
  | moved (ref : BitVec 32) (u : Nat) (scope : Option ScopeRef)
  /-- a member of the launch in a slot has arrived -/
  | arrive (slot : Nat) (tid : Nat)
  deriving DecidableEq, Repr

/-- What waits at a barrier (R273): a wait or notification of a task, a continuation entry of a record, or a named
phase (R281). -/
inductive Waiter where
  | wait (a : Asker)
  | notify (a : Asker)
  | entry (ref : BitVec 32)
  | phase (a : Asker)
  /-- a status read (`s.bstat`), answered at once -/
  | status (a : Asker)
  deriving DecidableEq, Repr

/-- An operation on a barrier (R274). -/
inductive BarOp where
  | arm (target : BitVec 32) (coll auto : Bool) (fut : BitVec 64) (asker : Option Asker)
  | disarm (asker : Option Asker)
  | count (c : Nat) (asker : Option Asker)
  | wait (who : Waiter)
  deriving DecidableEq, Repr

/-- A box of cells of a coverage map: a low corner and a count in each dimension (R130, R134). -/
structure Box where
  lo : List Nat
  cnt : List Nat
  deriving DecidableEq, Repr

/-- What reaches a coverage unit beside claims, registrations and rewrites (R135, R270): an LP's report, and the reads of
the LOOP words. -/
inductive CovMsg where
  /-- a boundary report, or an exhaustion report -/
  | report (sched : BitVec 64) (tid : Nat) (exhausted : Bool)
  /-- `lp.schedr` -/
  | readSched (sched : BitVec 64) (pending : Bool) (a : Asker)
  /-- `lp.cov`: the keys of the map bits of a box -/
  | countBox (bits : List (Nat × Nat)) (a : Asker)
  /-- `lp.covrd` -/
  | readMap (key : Nat) (a : Asker)
  /-- the layer 1 port accepts a line of the unit's operation; the operation ends -/
  | served (line : Nat)
  | finished
  deriving DecidableEq, Repr

/-- One scatter-accumulate update on its way to its home (R240, R242). -/
structure Update where
  tid : Nat
  ctx : Ctx
  /-- the bank whose SA sent it, and its word's place -/
  core : CoreIx
  bank : BankIx
  pc : BitVec 15
  trap : Bool
  /-- operation slot of the SACC engine -/
  op : Nat
  /-- the target's key in the machine's memory (R78) -/
  key : Nat
  /-- the address through which its word reached it -/
  addr : BitVec 64
  ty : ElemType
  val : Nat
  expect : Nat
  /-- where the old value is returned: a layer 0 offset -/
  ret : Option Nat
  /-- cycles from the operation to the old value's write -/
  back : Nat
  scope : Nat
  /-- once its home has answered: the old value, or the fault it raised there -/
  old : Option Nat
  bad : Option (BitVec 16 × BitVec 64)
  /-- its bank or port has accepted it, or the bank that its old value is returned to has -/
  ready : Bool
  /-- the package that sent it, when it is another -/
  via : Option Nat := none
  deriving DecidableEq, Repr

/-- The word that made a scalar access: its task and context, its place, the address it named, and whether it belongs
to the trap stream (R339); and the package cycle in which it issued. -/
structure AccessOf where
  tid : Nat
  core : CoreIx
  ctx : Fin 3
  pc : BitVec 15
  addr : BitVec 64
  trap : Bool
  born : Nat
  deriving DecidableEq, Repr

/-- A scalar access of a context at its access point (R146, R198): memory or a system register, read or written. A
read's result lands in register `dst` at task cycle `land`. -/
inductive Access where
  | load (of : AccessOf) (key : Nat) (bytes : Nat) (sext : Bool) (land : Nat) (dst : Nat) (shadow : Bool)
  | store (of : AccessOf) (key : Nat) (bytes : Nat) (val : BitVec 64)
  | mfsr (of : AccessOf) (n : Nat) (land : Nat) (dst : Nat) (shadow : Bool)
  | mtsr (of : AccessOf) (n : Nat) (val : BitVec 64)
  deriving DecidableEq, Repr

/-- A DRAM-layer command at CE4 (R63, R257). -/
structure DramCmd where
  /-- 0 activate, 1 precharge, 2 refresh -/
  kind : Fin 3
  col : ColIx
  bank : Fin 32
  row : Nat
  who : Option Asker
  deriving DecidableEq, Repr

/-- What a copy does next (R70 to R72): it waits for the turn of its engine, asks for the source lines of its next n
destination sectors, is granted one of them, has read what it now asks to write, is granted a destination line, posts its
count, or writes a shape slot. A byte moved carries whether its source granule is poisoned (R337); what is to be written
names the task cycle in which its word started. -/
inductive CopyPart where
  | turn
  | fetch (n : Nat)
  | line (l : Nat)
  | land (word : Nat) (cells : List (Nat × BitVec 8 × Bool))
  | put (word : Nat) (cells : List (Nat × BitVec 8 × Bool))
  | post
  /-- the recovery point of a slice has come (R346) -/
  | check
  | slot (n : Fin 32) (d : BitVec 512)
  deriving DecidableEq, Repr

/-- What a data instruction of the transform sequencer does next (R263): it asks for source lines, is granted one, asks for
the lines that bytes go to, is granted one of them, or posts its count. `op` names the instruction's group of reads. -/
inductive TsPart where
  | read (op : Nat) (lines : List Nat)
  | got (op : Nat) (l : Nat)
  | write (cells : List (Nat × BitVec 8 × Bool))
  | put (cells : List (Nat × BitVec 8 × Bool))
  | check
  | post (bar : BitVec 64) (n : Nat)
  deriving DecidableEq, Repr

/-- The data instruction of a program: its column, its task, its starting core and context. -/
structure TsPost where
  col : ColIx
  tid : Nat
  core : CoreIx
  ctx : Ctx
  pc : Nat
  part : TsPart
  deriving DecidableEq, Repr

/-- A link of the group: a port of one package joined to a port of another (R300). -/
structure Link where
  a : Nat
  pa : Nat
  b : Nat
  pb : Nat
  deriving DecidableEq, Repr

/-- A host access that the bridge forwards (R24, R304). -/
inductive HostReq where
  | read (bar : Fin 3) (off n : Nat)
  | write (pa : Nat) (bytes : List (BitVec 8)) (ep : Bool)
  | enqueue (off : Nat) (bytes : List (BitVec 8))
  | reg (off : Nat) (v : BitVec 64)
  deriving DecidableEq, Repr

/-- A packet between packages (R299, R300, R374). Addresses are device physical addresses (R74). -/
inductive Packet where
  /-- the answer to a request, or its refusal, to the word that asked -/
  | answer (a : Asker) (vals : List (BitVec 64)) (bad : Option (BitVec 16))
  /-- an operation for a barrier -/
  | bar (name : BitVec 64) (op : BarOp)
  /-- a barrier is lost with the launch that was to signal it (R362) -/
  | lose (name : BitVec 64) (code : Option (BitVec 16))
  /-- a continuation's registration is withdrawn (R364) -/
  | unwait (name : BitVec 64) (ref : BitVec 32)
  /-- a notification that a fire has satisfied -/
  | notify (tid : Nat) (ctx : Ctx) (name : BitVec 64)
  /-- a request for a dealer -/
  | dealer (die : DieIx) (x : DealerMsg)
  /-- an entry is satisfied -/
  | satisfy (ref : BitVec 32) (v : BitVec 32) (poison : Bool)
  /-- a launch record (R103) -/
  | launch (die : DieIx) (blk : List (BitVec 64)) (src : EnqSource) (weight : Nat) (scope : Option ScopeRef)
  /-- weight returned to a scope; a Borrow's debit request, its grant, its refusal, and the word that the grant has come -/
  | weight (die : DieIx) (scope : Fin 16) (u : Nat)
  | borrow (die : DieIx) (scope : Fin 16) (need : WeightNeed)
  | grant (scope : ScopeRef) (need : WeightNeed)
  | noGrant (need : WeightNeed) (code : BitVec 16)
  | granted (die : DieIx) (scope : Fin 16)
  /-- a read of memory by a copy, its data, each byte with whether its granule is poisoned (R337), or the code of the fault
  that it met -/
  | read (a : Asker) (pa : Nat) (n : Nat)
  | data (a : Asker) (pa : Nat) (cells : List (BitVec 8 × Bool))
  | readBad (a : Asker) (pa : Nat) (code : BitVec 16)
  /-- data for memory -/
  | write (pa : Nat) (cells : List (BitVec 8 × Bool))
  /-- a rewrite for a coverage unit, and another request for one -/
  | rewrite (a : Asker) (pa : Nat) (body : List (BitVec 64))
  | cov (col : ColIx) (x : CovMsg)
  /-- an update for a home, and its answer -/
  | update (u : Update)
  | updated (u : Update)
  /-- the time packets: a sync message, a delay request, and its answer with the nanoseconds that it was held -/
  | sync (sec : BitVec 48) (ns : BitVec 32)
  | delayAsk
  | delayAnswer (held : Nat)
  /-- a bridge claim (R376) -/
  | claim (claimant : Nat)
  /-- what enumeration gives a package: its number, the packages of the group and their links (R301); a start of the group;
  links that have changed (R373) -/
  | enumerate (num group : Nat) (links : List Link)
  | restart
  | routes (links : List Link)
  /-- a host access, and its completion -/
  | host (x : HostReq)
  | hostDone (bytes : List (BitVec 8)) (ep abort : Bool)
  /-- an error that a read of far memory found, for FARECC (R339) -/
  | ecc (uncorr : Bool)
  /-- one more in TELELOST or in HOSTREFUSED, which the bridge keeps (R359, R377) -/
  | counted (tele : Bool)
  /-- a fault record for the fault ring, the host's act on one, and a telemetry record for the host ring -/
  | fault (rec : List (BitVec 64))
  | act (rec : List (BitVec 64)) (action : Nat)
  | tele (seq time ring : Nat) (bytes : List (BitVec 8))
  /-- the host can be reached again, or no more (R375) -/
  | hostLink (up : Bool)
  deriving DecidableEq, Repr

/-- The traffic class of a packet (R299). An answer travels in the class of its request. A host launch record travels with the
host's writes, so that it keeps its place among them (R160, R300). -/
def Packet.cls : Packet → Nat
  | .read _ _ _ | .data _ _ _ | .readBad _ _ _ | .hostDone _ _ _ => 0
  | .write _ _ | .ecc _ | .counted _ | .fault _ | .act _ _ | .tele _ _ _ _ | .hostLink _ | .enumerate _ _ _ | .restart | .routes _ => 1
  | .host x => match x with
    | .read _ _ _ => 0
    | _ => 1
  | .update _ | .updated _ => 2
  | .answer _ _ _ | .bar _ _ | .lose _ _ | .unwait _ _ | .notify _ _ _ | .dealer _ _ | .satisfy _ _ _ | .rewrite _ _ _ | .cov _ _ => 3
  | .launch _ _ _ _ _ => 4
  | .weight _ _ _ | .borrow _ _ _ | .grant _ _ | .noGrant _ _ | .granted _ _ => 5
  | .sync _ _ | .delayAsk | .delayAnswer _ | .claim _ => 6

/-- The steps of the units, with what each brings. -/
inductive Event where
  /-- POWER_ON (R301): the bridge-select strap, and whether every firmware image verifies (R314) -/
  | powerOn (strap : Bool) (verified : Bool)
  /-- BRIDGE_CLAIM (R376) -/
  | bridgeClaim (port : Port) (claimant : Nat)
  /-- BRIDGE_CLAIM_TIMEOUT (R376) -/
  | bridgeClaimTimeout
  /-- RESET (R301) -/
  | reset
  /-- ENABLED (R306) -/
  | enabled (v : BitVec 64)
  /-- NONCE (R314) -/
  | nonce (v : List (BitVec 64))
  /-- FAULTACT (R323) -/
  | faultact (v : BitVec 64)
  /-- TLBINV (R76) -/
  | tlbinv (v : BitVec 64)
  /-- REFWIN_WRITE (R64) -/
  | refwinWrite (col : ColIx) (v : BitVec 64)
  /-- BANKBUDGET_WRITE (R60) -/
  | bankbudgetWrite (core : CoreIx) (g : Fin 4) (v : BitVec 64)
  /-- BUSTIMING_WRITE (R341) -/
  | bustimingWrite (col : ColIx) (l : Fin 4) (v : BitVec 64)
  /-- REGISTER_WRITE (R198): a host write at an offset of BAR0 -/
  | registerWrite (off : Nat) (v : BitVec 64)
  /-- HOST_MEMORY_READ (R304): a host read of BAR0, BAR2 or BAR4 -/
  | hostMemoryRead (bar : Fin 3) (off : Nat) (n : Nat)
  /-- HOST_MEMORY_WRITE (R304) -/
  | hostMemoryWrite (pa : Nat) (bytes : List (BitVec 8)) (ep : Bool)
  /-- HOST_ENQUEUE_WRITE (R104) -/
  | hostEnqueueWrite (off : Nat) (bytes : List (BitVec 8))
  /-- LAUNCH_ENQUEUE (R103) -/
  | launchEnqueue (die : DieIx) (blk : List (BitVec 64)) (src : EnqSource)
      (own : Option (Nat × Option ScopeRef)) (first : Bool)
  /-- DEALER_CHOICE (R108) -/
  | dealerChoice (die : DieIx)
  /-- GANG_RESERVATION (R109) -/
  | gangReservation (die : DieIx) (slot : Nat)
  /-- GANG_START (R108) -/
  | gangStart (die : DieIx) (slot : Nat) (first : Nat)
  /-- TASK_BOUNDARY (R97) -/
  | taskBoundary (core : CoreIx) (bank : BankIx)
  /-- TASK_START (R98) -/
  | taskStart (core : CoreIx)
  /-- LAUNCH_COMPLETION (R105) -/
  | launchCompletion (die : DieIx) (slot : Nat)
  /-- DONENEXT_DEFERRED (R359) -/
  | donenextDeferred (die : DieIx) (slot : Nat)
  /-- TASK_STOP (R93) -/
  | taskStop (core : CoreIx) (bank : BankIx) (why : StopWhy)
  /-- IMAGE_SAVE_COMPLETE (R96) -/
  | imageSaveComplete (die : DieIx) (tid : Nat)
  /-- TASK_RESUME (R96) -/
  | taskResume (core : CoreIx) (bank : BankIx) (tid : Nat)
  /-- WAITING_TASK_READY (R92) -/
  | waitingTaskReady (core : CoreIx) (bank : BankIx)
  /-- FILLER_COLLECTIVE_WAIT (R123) -/
  | fillerCollectiveWait (core : CoreIx)
  /-- FILLER_RETURN (R123) -/
  | fillerReturn (core : CoreIx)
  /-- FUTURE_CREATE (R117) -/
  | futureCreate (name : BitVec 64) (asker : Option Asker)
  /-- FUTURE_JOIN (R117) -/
  | futureJoin (name : BitVec 64) (waiter : BitVec 32) (asker : Option Asker)
  /-- FUTURE_RESOLVE (R117) -/
  | futureResolve (name : BitVec 64) (v : BitVec 32) (asker : Option Asker)
  /-- FUTURE_POISON (R363) -/
  | futurePoison (name : BitVec 64) (code : BitVec 16)
  /-- ENTRY_SATISFACTION (R117) -/
  | entrySatisfaction (waiter : BitVec 32) (v : BitVec 32) (poison : Bool)
  /-- BORROW_DEBIT (R121) -/
  | borrowDebit (die : DieIx) (scope : Fin 16) (need : WeightNeed) (via : Option Nat)
  /-- BORROW_GRANT (R121) -/
  | borrowGrant (scope : ScopeRef) (need : WeightNeed)
  /-- WEIGHT_RETURN (R121) -/
  | weightReturn (die : DieIx) (scope : Fin 16) (u : Nat)
  /-- WAITQ_COMPLETE (R122) -/
  | waitqComplete (die : DieIx) (scope : Fin 16)
  /-- IMPLICIT_EXIT (R366) -/
  | implicitExit (core : CoreIx) (bank : BankIx)
  /-- BARRIER_ARM (R274) -/
  | barrierArm (name : BitVec 64) (target : BitVec 32) (coll : Bool) (auto : Bool) (fut : BitVec 64) (asker : Option Asker)
  /-- BARRIER_DISARM (R274) -/
  | barrierDisarm (name : BitVec 64) (asker : Option Asker)
  /-- BARRIER_COUNT (R274) -/
  | barrierCount (name : BitVec 64) (c : Nat) (asker : Option Asker)
  /-- BARRIER_WAIT (R274) -/
  | barrierWait (name : BitVec 64) (who : Waiter)
  /-- SYNC_ANSWER (R268) -/
  | syncAnswer (asker : Asker) (vals : List (BitVec 64)) (bad : Option (BitVec 16))
  /-- NOTIFY_EVENT_ARRIVAL (R277) -/
  | notifyEventArrival (tid : Nat) (ctx : Ctx) (name : BitVec 64)
  /-- EVENT_TAKE (R284) -/
  | eventTake (core : CoreIx) (bank : BankIx) (ctx : Ctx)
  /-- PHASE_BOUNDARY (R154) -/
  | phaseBoundary (tids : List Nat)
  /-- COLUMN_POWER_DOWN (R368) -/
  | columnPowerDown (col : ColIx)
  /-- COLUMN_POWER_UP (R368) -/
  | columnPowerUp (col : ColIx)
  /-- COLUMN_RESET (R369) -/
  | columnReset (col : ColIx)
  /-- LP_DEAL_RECORD (R131) -/
  | lpDealRecord (core : CoreIx) (bank : BankIx)
  /-- COVERAGE_REGISTRATION (R136) -/
  | coverageRegistration (sched : BitVec 64) (tid : Nat)
  /-- REGISTRATION_ANSWER (R136) -/
  | registrationAnswer (tid : Nat) (ok : Bool) (active : List (BitVec 64))
  /-- COVERAGE_CLAIM (R133) -/
  | coverageClaim (sched : BitVec 64) (tid : Nat) (box : Box)
  /-- CLAIM_ANSWER (R133) -/
  | claimAnswer (tid : Nat) (box : Box) (cells : List Nat)
  /-- REWRITE_WRITE (R137) -/
  | rewriteWrite (sched : BitVec 64) (body : List (BitVec 64)) (asker : Asker)
  /-- PENDING_NOTICE (R138) -/
  | pendingNotice (tid : Nat)
  /-- REWRITE_COMMIT (R139) -/
  | rewriteCommit (sched : BitVec 64)
  /-- COMMIT_NOTICE (R139) -/
  | commitNotice (tid : Nat) (active : List (BitVec 64))
  /-- DEALING_COMPLETE (R141) -/
  | dealingComplete (sched : BitVec 64)
  /-- COMPLETION_NOTICE (R141) -/
  | completionNotice (tid : Nat)
  /-- END_RECORD_PUSH (R141) -/
  | endRecordPush (core : CoreIx) (bank : BankIx)
  /-- COPY_COMPLETION (R71) -/
  | copyCompletion (core : CoreIx) (bank : BankIx) (q : Fin 13) (ctx : Ctx) (part : CopyPart)
  /-- PASS_ACCUMULATION (R234) -/
  | passAccumulation (core : CoreIx) (bank : BankIx)
  /-- SA_HOME_UPDATE (R242) -/
  | saHomeUpdate (upd : Update)
  /-- TS_PROGRAM_TURN (R260) -/
  | tsProgramTurn (col : ColIx)
  /-- TS_PROGRAM_END (R263) -/
  | tsProgramEnd (col : ColIx)
  /-- BANK_PERIOD_START (R60) -/
  | bankPeriodStart
  /-- FORCED_REFRESH (R64) -/
  | forcedRefresh (col : ColIx) (bank : Fin 32)
  /-- FORCED_REFRESH_END (R64) -/
  | forcedRefreshEnd (col : ColIx) (bank : Fin 32)
  /-- DRAM_SENSOR_READING (R64) -/
  | dramSensorReading (col : ColIx) (layer : Fin 5) (temp : Nat)
  /-- LAYER_WAKE_COMPLETE (R66) -/
  | layerWakeComplete (die : DieIx) (layer : Fin 5)
  /-- LAYER_POWER_OFF (R66) -/
  | layerPowerOff (die : DieIx) (layer : Fin 5)
  /-- MIGRATION_SERVICE (R77) -/
  | migrationService (who : Asker) (va : BitVec 64)
  /-- MIGRATION_COMPLETE (R332) -/
  | migrationComplete (who : Asker) (pages : List Nat)
  /-- WALK_FILL (R76, R353): for an engine of a core -/
  | walkFill (core : CoreIx) (q : Fin 13) (va : BitVec 64) (wr : Bool) (gen : BitVec 64)
  /-- CORRECTED_REWRITE (R336) -/
  | correctedRewrite (granule : Nat)
  /-- DEFERRED_FAULT (R339) -/
  | deferredFault (core : CoreIx) (bank : BankIx) (ctx : Ctx) (code : BitVec 16) (addr : BitVec 64) (pc : BitVec 15)
      (trap : Bool)
  /-- FAULT_HANDLER_END (R322) -/
  | faultHandlerEnd (die : DieIx) (rec : Nat) (action : Fin 4)
  /-- FAULT_TAKEN (R320) -/
  | faultTaken (core : CoreIx) (bank : BankIx) (ctx : Ctx)
  /-- QUEUE_DEADLOCK (R324) -/
  | queueDeadlock (core : CoreIx) (bank : BankIx)
  /-- FORMAT_UNDERFLOW (R325) -/
  | formatUnderflow (core : CoreIx) (bank : BankIx) (ctx : Ctx)
  /-- TRAP_STREAM_TIMEOUT (R333) -/
  | trapStreamTimeout (core : CoreIx) (bank : BankIx) (ctx : Ctx)
  /-- REGION_OVERRUN (R371) -/
  | regionOverrun (core : CoreIx) (bank : BankIx)
  /-- REPAIR_WINDOW (R342) -/
  | repairWindow
  /-- LANE_REPLACEMENT (R343) -/
  | laneReplacement (col : ColIx) (l : Fin 4) (bus granule : Nat)
  /-- LANE_REPLACEMENT_END (R343) -/
  | laneReplacementEnd (col : ColIx) (l : Fin 4) (bus : Nat)
  /-- TALON_REPLACEMENT (R343) -/
  | talonReplacement (col : ColIx) (l : Fin 4) (granule : Nat)
  /-- TALON_REPLACEMENT_END (R343) -/
  | talonReplacementEnd (col : ColIx) (l : Fin 4) (bank : Nat)
  /-- SLICE_RETIRED (R345) -/
  | sliceRetired (col : ColIx) (l : Fin 4)
  /-- CORE_WITHDRAWN (R348) -/
  | coreWithdrawn (core : CoreIx)
  /-- GOVERNOR_SAMPLE (R310) -/
  | governorSample (power : Nat) (valid : Bool)
  /-- TOKEN_PERIOD (R311) -/
  | tokenPeriod
  /-- THERMAL_MANAGER_ACTION (R312) -/
  | thermalManagerAction (col : ColIx)
  /-- THERMAL_TRIP (R372) -/
  | thermalTrip (col : ColIx)
  /-- THROTTLE_END (R372) -/
  | throttleEnd (core : CoreIx) (bank : BankIx)
  /-- TELEMETRY_RECORD (R313) -/
  | telemetryRecord (power : Nat) (icore : Nat) (isram : Nat) (idram : Nat) (board : Nat)
  /-- TELEMETRY_HOST_COPY (R313) -/
  | telemetryHostCopy
  /-- PTP_SYNC_SEND (R307) -/
  | ptpSyncSend
  /-- PTP_SYNC_ARRIVAL (R307) -/
  | ptpSyncArrival (port : Port) (sec : BitVec 48) (ns : BitVec 32)
  /-- LINK_DELAY_MEASURE (R307) -/
  | linkDelayMeasure (port : Port)
  /-- TOD_MESSAGE (R308) -/
  | todMessage (bytes : List (BitVec 8))
  /-- PPS_EDGE (R308) -/
  | ppsEdge
  /-- PTM_STEER (R308) -/
  | ptmSteer (sec : BitVec 48) (ns : BitVec 32)
  /-- TIME_SOURCE_LOSS (R377) -/
  | timeSourceLoss
  /-- FLIT_RECEIVE (R373) -/
  | flitReceive (port : Port) (ok : Bool) (src : Nat) (dest : Option Nat) (pkt : Packet)
  /-- PORT_DOWN (R373) -/
  | portDown (port : Port)
  /-- PORT_TRAINED (R373) -/
  | portTrained (port : Port)
  /-- ROUTE_RECOMPUTE (R373) -/
  | routeRecompute (links : List Link)
  /-- ENGINE_WORD_START (R287) -/
  | engineWordStart (core : CoreIx) (bank : BankIx) (q : Fin 13) (ctx : Ctx)
  /-- RESULT_LANDING (R88) -/
  | resultLanding (core : CoreIx) (bank : BankIx)
  /-- ACCESS_POINT (R146) -/
  | accessPoint (acc : Access)
  /-- MICRO_STEP (R207) -/
  | microStep (core : CoreIx) (bank : BankIx) (q : Fin 13) (ctx : Ctx)
  /-- ELEMENT_WRITE_LANDS (R89) -/
  | elementWriteLands (core : CoreIx) (bank : BankIx)
  /-- DRAM_COMMAND_ISSUE (R63) -/
  | dramCommandIssue (cmd : DramCmd)
  /-- TS_DATA_POSTING (R263) -/
  | tsDataPosting (post : TsPost)
  /-- PCIE_LINK_LOSS (R375) -/
  | pcieLinkLoss
  deriving DecidableEq, Repr

/-- The row of the opcode table that a step is. -/
def Event.row : Event → Instr
  | .powerOn _ _ => .powerOn
  | .bridgeClaim _ _ => .bridgeClaim
  | .bridgeClaimTimeout => .bridgeClaimTimeout
  | .reset => .reset
  | .enabled _ => .enabled
  | .nonce _ => .nonce
  | .faultact _ => .faultact
  | .tlbinv _ => .tlbinv
  | .refwinWrite _ _ => .refwinWrite
  | .bankbudgetWrite _ _ _ => .bankbudgetWrite
  | .bustimingWrite _ _ _ => .bustimingWrite
  | .registerWrite _ _ => .registerWrite
  | .hostMemoryRead _ _ _ => .hostMemoryRead
  | .hostMemoryWrite _ _ _ => .hostMemoryWrite
  | .hostEnqueueWrite _ _ => .hostEnqueueWrite
  | .launchEnqueue _ _ _ _ _ => .launchEnqueue
  | .dealerChoice _ => .dealerChoice
  | .gangReservation _ _ => .gangReservation
  | .gangStart _ _ _ => .gangStart
  | .taskBoundary _ _ => .taskBoundary
  | .taskStart _ => .taskStart
  | .launchCompletion _ _ => .launchCompletion
  | .donenextDeferred _ _ => .donenextDeferred
  | .taskStop _ _ _ => .taskStop
  | .imageSaveComplete _ _ => .imageSaveComplete
  | .taskResume _ _ _ => .taskResume
  | .waitingTaskReady _ _ => .waitingTaskReady
  | .fillerCollectiveWait _ => .fillerCollectiveWait
  | .fillerReturn _ => .fillerReturn
  | .futureCreate _ _ => .futureCreate
  | .futureJoin _ _ _ => .futureJoin
  | .futureResolve _ _ _ => .futureResolve
  | .futurePoison _ _ => .futurePoison
  | .entrySatisfaction _ _ _ => .entrySatisfaction
  | .borrowDebit _ _ _ _ => .borrowDebit
  | .borrowGrant _ _ => .borrowGrant
  | .weightReturn _ _ _ => .weightReturn
  | .waitqComplete _ _ => .waitqComplete
  | .implicitExit _ _ => .implicitExit
  | .barrierArm _ _ _ _ _ _ => .barrierArm
  | .barrierDisarm _ _ => .barrierDisarm
  | .barrierCount _ _ _ => .barrierCount
  | .barrierWait _ _ => .barrierWait
  | .syncAnswer _ _ _ => .syncAnswer
  | .notifyEventArrival _ _ _ => .notifyEventArrival
  | .eventTake _ _ _ => .eventTake
  | .phaseBoundary _ => .phaseBoundary
  | .columnPowerDown _ => .columnPowerDown
  | .columnPowerUp _ => .columnPowerUp
  | .columnReset _ => .columnReset
  | .lpDealRecord _ _ => .lpDealRecord
  | .coverageRegistration _ _ => .coverageRegistration
  | .registrationAnswer _ _ _ => .registrationAnswer
  | .coverageClaim _ _ _ => .coverageClaim
  | .claimAnswer _ _ _ => .claimAnswer
  | .rewriteWrite _ _ _ => .rewriteWrite
  | .pendingNotice _ => .pendingNotice
  | .rewriteCommit _ => .rewriteCommit
  | .commitNotice _ _ => .commitNotice
  | .dealingComplete _ => .dealingComplete
  | .completionNotice _ => .completionNotice
  | .endRecordPush _ _ => .endRecordPush
  | .copyCompletion _ _ _ _ _ => .copyCompletion
  | .passAccumulation _ _ => .passAccumulation
  | .saHomeUpdate _ => .saHomeUpdate
  | .tsProgramTurn _ => .tsProgramTurn
  | .tsProgramEnd _ => .tsProgramEnd
  | .bankPeriodStart => .bankPeriodStart
  | .forcedRefresh _ _ => .forcedRefresh
  | .forcedRefreshEnd _ _ => .forcedRefreshEnd
  | .dramSensorReading _ _ _ => .dramSensorReading
  | .layerWakeComplete _ _ => .layerWakeComplete
  | .layerPowerOff _ _ => .layerPowerOff
  | .migrationService _ _ => .migrationService
  | .migrationComplete _ _ => .migrationComplete
  | .walkFill _ _ _ _ _ => .walkFill
  | .correctedRewrite _ => .correctedRewrite
  | .deferredFault _ _ _ _ _ _ _ => .deferredFault
  | .faultHandlerEnd _ _ _ => .faultHandlerEnd
  | .faultTaken _ _ _ => .faultTaken
  | .queueDeadlock _ _ => .queueDeadlock
  | .formatUnderflow _ _ _ => .formatUnderflow
  | .trapStreamTimeout _ _ _ => .trapStreamTimeout
  | .regionOverrun _ _ => .regionOverrun
  | .repairWindow => .repairWindow
  | .laneReplacement _ _ _ _ => .laneReplacement
  | .laneReplacementEnd _ _ _ => .laneReplacementEnd
  | .talonReplacement _ _ _ => .talonReplacement
  | .talonReplacementEnd _ _ _ => .talonReplacementEnd
  | .sliceRetired _ _ => .sliceRetired
  | .coreWithdrawn _ => .coreWithdrawn
  | .governorSample _ _ => .governorSample
  | .tokenPeriod => .tokenPeriod
  | .thermalManagerAction _ => .thermalManagerAction
  | .thermalTrip _ => .thermalTrip
  | .throttleEnd _ _ => .throttleEnd
  | .telemetryRecord _ _ _ _ _ => .telemetryRecord
  | .telemetryHostCopy => .telemetryHostCopy
  | .ptpSyncSend => .ptpSyncSend
  | .ptpSyncArrival _ _ _ => .ptpSyncArrival
  | .linkDelayMeasure _ => .linkDelayMeasure
  | .todMessage _ => .todMessage
  | .ppsEdge => .ppsEdge
  | .ptmSteer _ _ => .ptmSteer
  | .timeSourceLoss => .timeSourceLoss
  | .flitReceive _ _ _ _ _ => .flitReceive
  | .portDown _ => .portDown
  | .portTrained _ => .portTrained
  | .routeRecompute _ => .routeRecompute
  | .engineWordStart _ _ _ _ => .engineWordStart
  | .resultLanding _ _ => .resultLanding
  | .accessPoint _ => .accessPoint
  | .microStep _ _ _ _ => .microStep
  | .elementWriteLands _ _ => .elementWriteLands
  | .dramCommandIssue _ => .dramCommandIssue
  | .tsDataPosting _ => .tsDataPosting
  | .pcieLinkLoss => .pcieLinkLoss

end Sys2Proof.Machine
end

