-- ==== Sys2Proof/Machine/Map.lean ====
section
/-! DEFINITION. Sparse stores keyed by a number: a list of (key, value) pairs with rising keys. A key that is not
listed holds the default that the reader names. -/

namespace Sys2Proof.Machine

open Sys2Proof

/-- A store from numbers to values; keys rise strictly. -/
abbrev Store (α : Type) := List (Nat × α)

/-- The value stored at k, or d. -/
def Store.get {α : Type} (m : Store α) (d : α) (k : Nat) : α :=
  match m with
  | [] => d
  | (k', v) :: rest => if k' = k then v else if k < k' then d else Store.get rest d k

/-- The store with v at k. -/
def Store.put {α : Type} (m : Store α) (k : Nat) (v : α) : Store α :=
  match m with
  | [] => [(k, v)]
  | (k', v') :: rest =>
    if k < k' then (k, v) :: (k', v') :: rest
    else if k = k' then (k, v) :: rest
    else (k', v') :: Store.put rest k v

/-- The store without k. -/
def Store.del {α : Type} (m : Store α) (k : Nat) : Store α := m.filter fun x => x.1 != k

/-- The value listed at k, if any. -/
def Store.find {α : Type} (m : Store α) (k : Nat) : Option α :=
  match m with
  | [] => none
  | (k', v) :: rest => if k' = k then some v else if k < k' then none else Store.find rest k

end Sys2Proof.Machine
end

