-- ==== Sys2Proof/Machine/State.lean ====
section
/-! DEFINITION. The state of one package: everything the spec gives the machine, as plain data, and the state after
reset (R301, R302). Stores that are sparse list only what differs from the value after reset. -/

namespace Sys2Proof.Machine

open Sys2Proof

/-! ### Contexts -/

/-- The shadow registers of a context in its trap stream (R320): copies of g1–g15 and p1–p7. -/
structure Shadow where
  g : Vector Word 16
  p : BitVec 16
  deriving DecidableEq, Repr

/-- A held event (R284, R333). -/
structure Held where
  code : Word
  addr : Word
  deriving DecidableEq, Repr

/-- An unresolved fault of one queue of a context (R317, R321). -/
structure QFault where
  q : Fin 13
  code : BitVec 16
  addr : Word
  mpc : Nat
  pc : BitVec 15
  /-- the task cycle in which it was raised -/
  raised : Nat
  taken : Bool
  /-- it takes the user route (R318) -/
  user : Bool
  deriving DecidableEq, Repr

/-- A context of a control core (R79, R319, R320). -/
structure Context where
  /-- g0–g31 in physical order -/
  g : Vector Word 32
  /-- p15–p0 -/
  p : BitVec 16
  lc : BitVec 32
  ec : BitVec 32
  rot : BitVec 4
  pc : BitVec 15
  vstatus : Word
  /-- IQ, q15 -/
  iq : List Word
  ended : Bool
  blocked : Bool
  trapCode : Word
  trapPc : Word
  trapMpc : Word
  trapAddr : Word
  shadow : Option Shadow
  /-- the task cycle in which the trap stream was entered -/
  trapOpen : Nat
  /-- a CTRL fault of this context that stands until it is ended (R317) -/
  faults : List QFault
  events : List Held
  /-- notifications registered or delivered and not yet taken (R277) -/
  notes : Nat
  /-- scalar accesses issued that have not reached their access point (R148, R196) -/
  accesses : Nat
  deriving DecidableEq, Repr

/-- A context that holds no task: every register of R79 zero (R302), p0 reading 1, and no stream. -/
def Context.reset : Context :=
  { g := Vector.replicate 32 0, p := 1, lc := 0, ec := 0, rot := 0, pc := 0, vstatus := 0, iq := [], ended := true,
    blocked := false, trapCode := 0, trapPc := 0, trapMpc := 0, trapAddr := 0, shadow := none, trapOpen := 0,
    faults := [], events := [], notes := 0, accesses := 0 }

/-! ### Engine queues -/

/-- One row phase of the row engine that is still to run (R222). -/
structure RowItem where
  row : Nat
  /-- 0 the reduction, 1 EXPSUM, 2 the writing phase -/
  phase : Fin 3
  /-- its first cycle, in task cycles -/
  start : Nat
  deriving DecidableEq, Repr

/-- The first row, phase and chunk of a row word that faults (R316, R327): its code and address. -/
structure RowHalt where
  row : Nat
  phase : Nat
  chunk : Nat
  code : BitVec 16
  addr : Word
  deriving DecidableEq, Repr

/-- A copy that its engine runs (R71, R252): the slots it read at its start, while it runs on them (`bound`); its barrier;
the destination sectors whose turn has come, and those whose sources it asks for; and the destination lines that are read
and not written yet. -/
structure CopyRun where
  slot : BitVec 512
  scale : BitVec 512
  bound : Bool
  bar : Word
  served : Nat
  asked : Nat
  writes : Nat
  /-- the 4 KiB pages that it has touched (R76) -/
  pages : List Nat
  deriving DecidableEq, Repr

/-- The progress of a word that its engine has started (R91). -/
structure Cur where
  /-- the task cycle of its start -/
  started : Nat
  /-- the entries it popped, first entry first -/
  popped : List Word
  /-- micro-PC -/
  mpc : Nat
  /-- the task cycle of its next event -/
  next : Nat
  /-- partial state: sectors counted, running maximum or sum, successors enqueued -/
  part : List Nat
  /-- its last micro-step has issued; the engine holds it up to `next` -/
  lastDone : Bool
  /-- row phases that run at a time of their own, and the first row of the timetable of R222 with its first cycle -/
  rows : List RowItem
  fromRow : Nat
  fromAt : Nat
  /-- the row engine's running values: key 4 × row + phase, FP32 code -/
  acc : List (Nat × Nat)
  /-- the row and phase a row word will fault at, once the rows before it are complete -/
  halt : Option RowHalt
  /-- the meld window: address, home and merged value, oldest first (R241) -/
  window : List (Word × Nat × Nat)
  /-- the lines its engine is still to read, the first list those it asks for now (R207, R233, R241); `opened`: its next
  micro-step, pass or element has asked for its lines -/
  reads : List (List Nat)
  opened : Bool
  /-- lines it has read, each by the number of its 256 bytes in memory, with what it found -/
  lines : Store (List Host.Cell)
  /-- the cycle after the last in which a line of it was not granted (R60) -/
  heldAt : Nat
  /-- bytes of other packages that have arrived for it, by key (R374) -/
  held : Store Nat
  copy : Option CopyRun
  /-- updates or data writes under way -/
  sent : Nat
  /-- the unit of weight it holds as a detached item: its scope (R120) -/
  item : Option ScopeRef
  /-- its request has been sent and its answer has not arrived -/
  waiting : Bool
  /-- the answer, once it has arrived, for a word whose push is held (R268) -/
  answer : Option (List Word)
  deriving DecidableEq, Repr

/-- A word in an engine queue, with the task and the place it came from (R82, R84). -/
structure EngWord where
  tid : Nat
  instr : Instr
  pc : BitVec 15
  /-- entries it occupies: 2 with an extension word -/
  len : Nat
  /-- a word issued by the trap stream (R318) -/
  trap : Bool
  /-- the package cycle of its issue -/
  born : Nat
  /-- the package cycle in which its task started -/
  view : Nat
  /-- its progress, for a word of a resumed task that stands behind words which run on in its bank -/
  kept : Option Cur
  /-- the scope of the unit of weight that it holds, and whether it waits for one to be granted (R120) -/
  item : Option ScopeRef
  owed : Bool
  deriving DecidableEq, Repr

/-- One per-context engine queue: its words, head first, and the progress of the head word (R84, R91). -/
structure EngQueue where
  words : List EngWord
  cur : Option Cur
  deriving DecidableEq, Repr

/-- What an engine of a bank keeps between words (R85, R206, R249). -/
structure EngState where
  /-- the context it served last -/
  last : Fin 3
  /-- the task cycle from which it may start its next word -/
  free : Nat
  /-- the context whose word occupies it -/
  act : Option (Fin 3)
  deriving DecidableEq, Repr

/-- A fault record of 32 bytes (R322), as four double words. -/
abbrev FaultRec := Vector Word 4

/-- A pending register write (R88, R93). -/
structure PendWrite where
  ctx : Fin 3
  /-- 0 g, 1 p, 2 LC, 3 EC, 4 ROT -/
  file : Nat
  idx : Nat
  val : Word
  /-- the task cycle in which it lands -/
  due : Nat
  /-- bound to the shadow registers (R320) -/
  shadow : Bool
  /-- the package cycle of its word's issue -/
  born : Nat
  deriving DecidableEq, Repr

/-- One byte of a pending element write, under a mask of the bits it changes. -/
structure ByteWrite where
  off : Nat
  val : Nat
  mask : Nat
  deriving DecidableEq, Repr

/-- The elements of a micro-step's write as the image lists them (R95): the layer 0 offset of the first, the stride and
number of the elements, and their type. -/
structure ElemSlot where
  first : Nat
  stride : Int
  count : Nat
  ty : ElemType
  deriving DecidableEq, Repr

/-- The element writes of one micro-step that have not landed (R89, R95). -/
structure ElemWrite where
  tid : Nat
  q : Fin 13
  ctx : Fin 3
  /-- the task cycle in which its word started -/
  word : Nat
  /-- the task cycle in which its lines are requested -/
  due : Nat
  bytes : List ByteWrite
  /-- the flags its elements raise, by the line in which the element lies: set in the cycle the line is written (R39) -/
  flags : Store (BitVec 6)
  slot : ElemSlot
  /-- it counts as a micro-step of VE or RE (R89, R222) -/
  step : Bool
  deriving DecidableEq, Repr

/-- A line of a pass's accumulator: the task cycle from which its next access is requested, and once it has been read,
what will be written: offsets and FP32 codes (R234). -/
structure AccLine where
  line : Nat
  due : Nat
  out : Option (List (Nat × Nat))
  deriving DecidableEq, Repr

/-- A matrix pass between the array and its accumulator (R94, R95, R234). -/
structure Pass where
  tid : Nat
  ctx : Fin 3
  pc : BitVec 15
  trap : Bool
  /-- its blocks: the micro-PC once its values are formed -/
  nb : Nat
  /-- the task cycle in which its values are formed -/
  formed : Nat
  acc : Nat
  m : Nat
  n : Nat
  clear : Bool
  sat : Bool
  /-- pass values, FP32, output (i, j) at n × i + j; none for a special output (R48) -/
  vals : List (Option Nat)
  lines : List AccLine
  /-- the task cycle of its last write so far -/
  wrote : Nat
  count : Nat
  bar : Option Nat
  /-- its last write is granted, and its count is posted in this task cycle (R234) -/
  post : Option Nat
  /-- a poisoned accumulator granule it has read (R338) -/
  bad : Option Word
  deriving DecidableEq, Repr

/-- The open non-pre-emptible region (R283). -/
structure Npr where
  opened : Nat
  limit : Nat
  ctx : Fin 3
  deriving DecidableEq, Repr

/-- A phase word that holds the task's three contexts (R154, R281). -/
structure PhaseWait where
  named : Bool
  name : Word
  arrived : Bool
  /-- the task cycle from which the contexts issue again, once the answer has come -/
  open? : Option Nat
  deriving DecidableEq, Repr

/-- A tile of a walk: its box in cells and the outer tile it belongs to (R128). -/
structure Tile where
  box : Box
  outer : Nat
  pos : List Nat
  deriving DecidableEq, Repr

/-- The LP's dealing state (R143). -/
structure Lp where
  /-- the loop table as loaded, 64 bytes -/
  table : BitVec 512
  pos : List Nat
  permits : Nat
  /-- STATE: 0 not loaded, 1 dealing, 2 at its boundary point, 3 exhausted, 4 end record pushed -/
  st : Nat
  gen : BitVec 16
  last : Word
  /-- byte 88: pending notice, commit notice, completion notice, current outer tile entered -/
  notice : BitVec 8
  /-- the schedule being dealt, 32 bytes -/
  sched : BitVec 256
  /-- REMAIN: the claimed cells of the current tile that are still to be dealt, by index in the tile -/
  remain : List Nat
  tile : Option Box
  /-- the tiles of the walk that are still to be dealt -/
  walk : List Tile
  outer : Nat
  /-- a registration or claim has been sent and not answered -/
  inFlight : Bool
  /-- the task cycle at which the loop table is held, while it is being read -/
  loadAt : Option Nat
  /-- the coverage unit refused the registration (R136) -/
  refused : Bool
  deriving DecidableEq, Repr

def Lp.reset : Lp :=
  { table := 0, pos := [], permits := 0, st := 0, gen := 0, last := 0, notice := 0, sched := 0, remain := [],
    tile := none, walk := [], outer := 0, inFlight := false, loadAt := none, refused := false }

/-! ### Tasks and banks -/

/-- What a task is: one group of a launch (R99, R101, R111, R120, R361). -/
structure Task where
  /-- the model's own name of the task -/
  tid : Nat
  die : Fin 4
  slot : Nat
  group : Nat
  /-- the launch block, sixteen double words -/
  blk : List Word
  cls : Nat
  weight : Nat
  scope : Option ScopeRef
  irrev : Bool
  replays : Nat
  /-- the package cycle in which it started -/
  started : Nat
  /-- the firmware's fault handler or another system task (R197) -/
  system : Bool
  /-- the number of its package, as its record's references name it (R116) -/
  pkg : Nat
  /-- futures it created and has not resolved (R362) -/
  futures : List Word
  deriving DecidableEq, Repr

/-- A transform program accepted by the column's TS (R259, R260, R264). -/
structure TsProg where
  tid : Nat
  core : CoreIx
  bank : BankIx
  ctx : Fin 3
  /-- its `x.trun` word: place, and whether the trap stream issued it -/
  wpc : BitVec 15
  trap : Bool
  h : Vector (BitVec 32) 8
  c : Vector (BitVec 16) 4
  /-- log2 of the element size, B and PAD of the last `setb` -/
  geom : Option (Nat × Nat × Nat)
  pc : Nat
  bar : Word
  entry : Nat
  loadLen : Nat
  image : Word
  /-- the package cycle in which its task started -/
  view : Nat
  /-- the package cycle up to which writes of its earlier instructions are under way, and counts to post -/
  wrBusy : Nat
  postBusy : Nat
  /-- its turn has come; it has run before, so that its turn clears nothing (R260, R264) -/
  begun : Bool
  resumed : Bool
  /-- it faulted, and waits for its fault to be ended (R331) -/
  faulted : Bool
  /-- the package cycle of its acceptance (R259, R264) -/
  accepted : Nat
  deriving DecidableEq, Repr

/-- What the lines that a data instruction of TS reads become (R261): whole lines, each from a line to a line; a block
expanded, or compressed (register rd takes what is dropped), between a key of layer 1 and one of layer 0, of e-byte elements, B of them, in PAD bytes. -/
inductive TsWork where
  | move (lines : List (Nat × Nat))
  | expand (k1 k0 e b pad : Nat)
  | compress (rd : Fin 8) (k1 k0 e b pad : Nat)
  deriving DecidableEq, Repr

/-- Lines that TS is reading (R263). -/
structure TsOp where
  /-- the cycle of its first read -/
  id : Nat
  /-- the program as it stood before the instruction -/
  prog : TsProg
  work : TsWork
  /-- lines still to be read, and those read -/
  left : List Nat
  lines : Store (List Host.Cell)
  /-- the first cycle of its writes, and how many cycles they take -/
  due : Nat
  span : Nat
  /-- the sectors that it posts -/
  post : Option Nat
  deriving DecidableEq, Repr

/-- The image of a task in its bank: all that the snapshot of R95 holds, and the progress of its engines. -/
structure Image where
  task : Option Task
  /-- cycles of the bank; the task's first cycle on this count, none before it: the task cycle is their difference (R81) -/
  cyc : Nat
  base : Option Nat
  ctx : Vector Context 3
  /-- q0–q14 -/
  q : Vector (List Word) 15
  /-- the thirteen engine queues, three contexts each: 3 × index + context -/
  eq : Vector EngQueue 39
  eng : Vector EngState 13
  va : Vector Word 16
  ra : Vector Word 8
  sa : Vector Word 8
  td : Vector Word 8
  ts : Vector (BitVec 512) 32
  lp : Lp
  pend : List PendWrite
  elems : List ElemWrite
  passes : List Pass
  /-- the task cycle from which the matrix array is free (R233) -/
  arrayFree : Nat
  npr : Option Npr
  stopReq : Option StopWhy
  phase : Option PhaseWait
  /-- an `s.exit` of the task has issued, and one has started (R97, R365) -/
  exited : Bool
  exitRun : Bool
  tk : Vector Nat 4
  /-- transform programs that a stop or a fault has taken from TS (R264, R331) -/
  progs : List TsProg
  /-- consecutive cycles of queue deadlock (R324) and of collective waiting (R123) -/
  deadCount : Nat
  collCount : Nat
  /-- slices of the tower the task has accessed: 4 × column + layer − 1 (R344) -/
  touched : List Nat
  /-- the record of a fault that took the system route and stops the task (R322) -/
  sysFault : Option FaultRec
  /-- the code of a fault ended with ACTION abandon: the task fails (R321, R362) -/
  abandon : Option (BitVec 16)
  deriving DecidableEq, Repr

def EngQueue.reset : EngQueue := { words := [], cur := none }
def EngState.reset : EngState := { last := 2, free := 0, act := none }

def Image.reset : Image :=
  { task := none, cyc := 0, base := none, ctx := Vector.replicate 3 Context.reset, q := Vector.replicate 15 [],
    eq := Vector.replicate 39 EngQueue.reset, eng := Vector.replicate 13 EngState.reset, va := Vector.replicate 16 0,
    ra := Vector.replicate 8 0, sa := Vector.replicate 8 0, td := Vector.replicate 8 0, ts := Vector.replicate 32 0,
    lp := Lp.reset, pend := [], elems := [], passes := [], arrayFree := 0, npr := none, stopReq := none, phase := none,
    exited := false, exitRun := false, tk := Vector.replicate 4 0, progs := [], deadCount := 0, collCount := 0, touched := [], sysFault := none, abandon := none }

/-- Whether the image in a bank runs. -/
inductive BankStatus where
  /-- no task -/
  | idle
  /-- a task whose first word has not issued yet -/
  | starting
  | running
  /-- stopped in its bank, waiting for an answer from outside the core (R92) -/
  | waiting
  /-- stopped in its bank, runnable again in its record's order (R111) -/
  | stopped
  /-- its answer has come: it runs in the bank's next turn (R92, R123) -/
  | ready
  deriving DecidableEq, Repr

/-- One bank of a core: the image it holds, and its half of the overlay memory with the residency tag (R92, R98). -/
structure Bank where
  status : BankStatus
  /-- the cycle of a starting task's first issue -/
  startAt : Nat
  img : Image
  /-- the words of the half; a word not listed is zero -/
  overlay : List Word32
  /-- PROG and IMGLEN of the image last copied into it -/
  tag : Option (Word × Nat)
  deriving DecidableEq, Repr

def Bank.reset : Bank := { status := .idle, startAt := 0, img := Image.reset, overlay := [], tag := none }

/-- A dealt group in a core's hand (R107): a group of a record, or a stopped task that resumes. -/
structure HandEntry where
  slot : Nat
  group : Nat
  weight : Nat
  replays : Nat
  cls : Nat
  /-- the stopped task it resumes -/
  tid : Option Nat
  /-- the first cycle from which the first word of an idle core's task counts (R113) -/
  ready : Nat
  deriving DecidableEq, Repr

/-- What asks for a line of a layer 0 bank or of a slice (R59 to R61): the read step of a started word, an element write
or an accumulator line by its place in the image, or a unit's step. -/
inductive LineAsker where
  | step (bank : BankIx) (q : Fin 13) (ctx : Fin 3)
  | elem (bank : BankIx) (i : Nat)
  | acc (bank : BankIx) (pass i : Nat)
  | unit (e : Event)
  | msg (die : DieIx) (x : DealerMsg)
  /-- a line of the operation that a coverage unit performs -/
  | cov (col : ColIx) (x : CovMsg)
  /-- the loop table that an LP reads -/
  | lp (core : CoreIx) (bank : BankIx)
  /-- a line that belongs to the step of another -/
  | part
  deriving DecidableEq, Repr

/-- A request for one 256-byte line, by the number of its line in memory: its class (R59), the cycle in which it arrived,
and the place of its requester in the order of its engines (R60, R61). -/
structure LineReq where
  line : Nat
  wr : Bool
  cls : Fin 5
  since : Nat
  ord : Nat
  who : LineAsker
  deriving DecidableEq, Repr

/-- The bank credits of one layer 0 bank in the current period (R60). -/
structure Credit where
  credit : Vector Nat 5
  lend : Fin 5
  deriving DecidableEq, Repr

/-- A core (R13). -/
structure Core where
  banks : Vector Bank 2
  front : Fin 2
  hand : List HandEntry
  /-- BANKBUDGET[0]–[3] as written, and as in force this period -/
  budget : Vector Word 4
  budgetNow : Vector Word 4
  /-- the layer 0 banks whose credits differ from a fresh period's -/
  credits : Store Credit
  /-- requests of copies, TS and scatter updates for lines of the core's layer 0 that are not granted yet (R60) -/
  reqs : List LineReq
  /-- the requests that the banks have granted in this cycle -/
  granted : List LineReq
  /-- the banks that control accesses have taken, with the cycle (R59) -/
  taken : List (Nat × Nat)
  /-- issue tokens used this microsecond: micro-steps and pass cycles (R311) -/
  tokVe : Nat
  tokMe : Nat
  /-- tokens asked for in this microsecond, those that were withheld among them (R310) -/
  asked : Nat
  throttled : Bool
  ineligible : Bool
  withdrawn : Bool
  /-- the record of the gang that reserves the core (R109) -/
  reserved : Option Nat
  /-- corrected errors of this window by layer 0 bank (R342) -/
  bankErr : Store Nat
  deriving DecidableEq, Repr

def budgetReset : Word := 0x000000040C100818

def Core.reset : Core :=
  { banks := Vector.replicate 2 Bank.reset, front := 0, hand := [], budget := Vector.replicate 4 budgetReset,
    budgetNow := Vector.replicate 4 budgetReset, credits := [], reqs := [], granted := [], taken := [], tokVe := 0, tokMe := 0, asked := 0, throttled := false,
    ineligible := false, withdrawn := false, reserved := none, bankErr := [] }

/-! ### Columns -/

/-- An error in a stored granule (R335): whether it is uncorrectable, and the lane of its slice it is due to, 128 × bus +
lane of the bus, or none when a bank is (R342). -/
structure Latent where
  uncorr : Bool
  lane : Option Nat
  deriving DecidableEq, Repr

/-- STATE of a barrier (R273). -/
inductive BarState where
  | idle | armed | fired
  deriving DecidableEq, Repr

/-- A barrier of a column's BU (R273), with the marks of R346 and R369. -/
structure Barrier where
  st : BarState
  target : BitVec 32
  got : BitVec 32
  gen : BitVec 16
  coll : Bool
  auto : Bool
  fut : Word
  waiters : List Waiter
  lost : Bool
  stale : Bool
  deriving DecidableEq, Repr

def Barrier.reset : Barrier :=
  { st := .idle, target := 0, got := 0, gen := 0, coll := false, auto := false, fut := 0, waiters := [], lost := false,
    stale := false }

/-- A bank of a DRAM-layer slice (R62 to R64, R343). -/
structure DramBank where
  row : Option Nat
  /-- cycles of the last activate, of the last read or write command, of the last write, and the first cycle after
  the last precharge's or refresh's occupancy -/
  actAt : Nat
  rwAt : Nat
  wrAt : Nat
  readyAt : Nat
  /-- the cycle in which its refresh window started -/
  window : Nat
  /-- the cycle up to which a forced refresh or a replacement occupies it -/
  busy : Nat
  deriving DecidableEq, Repr

def DramBank.reset : DramBank :=
  { row := none, actAt := 0, rwAt := 0, wrAt := 0, readyAt := 0, window := 0, busy := 0 }

/-- One slice of layers 1 to 4 of a column: its repair state (R342 to R345). -/
structure Slice where
  condemned : Option Nat
  retired : Bool
  /-- corrected errors of this window by lane (of the slice) and by bank, and uncorrectable errors by bank -/
  laneErr : Store Nat
  bankErr : Store Nat
  /-- spare lanes in use, by bus -/
  spares : Store Nat
  /-- banks a repair holds, and 1000 + bus group for a group, with the cycle up to which it does -/
  held : Store Nat
  /-- lines asked of its port, or read and write commands asked of its CE4, that are not accepted yet, in order of arrival
  (R61, R63) -/
  reqs : List LineReq
  /-- the requester that stands first in the port's next turn (R61) -/
  next : Nat
  deriving DecidableEq, Repr

def Slice.reset : Slice :=
  { condemned := none, retired := false, laneErr := [], bankErr := [], spares := [], held := [], reqs := [], next := 0 }

/-- A member of a kernel at a coverage unit (R136, R139). -/
structure Member where
  tid : Nat
  index : Nat
  exhausted : Bool
  boundary : Bool
  claimOut : Bool
  deriving DecidableEq, Repr

/-- A kernel's entry at its coverage unit (R136). -/
structure CovEntry where
  /-- the key of the schedule block in memory -/
  sched : Nat
  groups : Nat
  /-- the loop table of the first member that registered -/
  table : BitVec 512
  members : List Member
  pending : Bool
  deriving DecidableEq, Repr

/-- An operation of a coverage unit (R135): its lines that the layer 1 port has still to accept, the cycles from the last of
them to its end, and what the unit then sends, each to a task of this package or to a word of another. -/
structure CovJob where
  lines : List Nat
  tail : Nat
  outs : List (Option Nat × Nat × Event)
  deriving DecidableEq, Repr

/-- A column (R13): its barrier unit, slices, coverage unit, transform sequencer and registers. -/
structure Column where
  barriers : Store Barrier
  powered : Bool
  refwin : Word
  rfstall : Word
  /-- the cycle up to which RFSTALL.CYCLES has counted (R64) -/
  stallTo : Nat
  thermal : Word
  busTiming : Vector Word 4
  lostsig : Word
  slices : Vector Slice 4
  dram : Store DramBank
  cov : List CovEntry
  /-- the cycle up to which the coverage unit is occupied -/
  covJobs : List CovJob
  /-- launches whose registrations are refused (R136), by 4 × sequence number + die -/
  covRefused : List Nat
  tsMem : Store Word32
  tsRun : Option TsProg
  tsWait : List TsProg
  /-- what TS is reading, and the cycle after the last in which a line of it was held (R263) -/
  tsOps : List TsOp
  tsHeld : Nat
  /-- sensor readings of layers 0 to 4, °C -/
  temps : Vector Nat 5
  /-- by copy engine: the core that stands first in its next turn, and the cycle after its last turn (R70) -/
  ceNext : Vector (Fin 8) 4
  ceAt : Vector Nat 4
  /-- the task whose stop the thermal manager has requested and that has not been taken (R312) -/
  stopFor : Option Nat
  deriving DecidableEq, Repr

def Column.reset : Column :=
  { barriers := [], powered := true, refwin := 8775, rfstall := 0, stallTo := 0, thermal := 2250, busTiming := Vector.replicate 4 0,
    lostsig := 0, slices := Vector.replicate 4 Slice.reset, dram := [], cov := [], covJobs := [], covRefused := [],
    tsMem := [], tsRun := none, tsWait := [], tsOps := [], tsHeld := 0, temps := Vector.replicate 5 0
    ceNext := Vector.replicate 4 0, ceAt := Vector.replicate 4 0, stopFor := none }

/-! ### Dies -/

/-- One WAIT entry of a record (R99, R115 to R117). -/
structure WaitEntry where
  name : Word
  /-- the value it was satisfied with, and whether it is poison -/
  sat : Option (BitVec 32 × Bool)
  /-- the link of R116 -/
  link : BitVec 32
  /-- it stands on a future's list -/
  listed : Bool
  deriving DecidableEq, Repr

/-- A group of a record that returns to the runnable order (R107, R111, R362). -/
structure Redeal where
  group : Nat
  weight : Nat
  replays : Nat
  /-- the stopped task it resumes -/
  tid : Option Nat
  /-- the core it failed on, and the last cycle in which another core was eligible for it (R362) -/
  avoid : Option (CoreIx × Nat)
  deriving DecidableEq, Repr

/-- A launch record (R99, R103, R104). -/
structure Record where
  seq : Nat
  blk : List Word
  scope : Option ScopeRef
  /-- the completion share, and the share of each group not dealt yet -/
  compShare : Nat
  groupShare : Nat
  waits : List WaitEntry
  runnable : Bool
  runnableAt : Nat
  /-- the next group to deal, and groups that return -/
  next : Nat
  again : List Redeal
  /-- groups that reached their boundary, and groups that arrived at the current phase (R281) -/
  done : Nat
  arrived : List Nat
  failed : Option (BitVec 16)
  husk : Bool
  /-- first core of the gang's reserved run -/
  reserved : Option Nat
  /-- the cycle from which the 22 cycles of R113 count -/
  ready : Nat
  /-- it completed but its DONENEXT finds no slot (R359) -/
  stuck : Bool
  /-- the fault handler's record (R322) -/
  system : Bool
  deriving DecidableEq, Repr

/-- A quiescence scope (R119). -/
structure Scope where
  kitty : Nat
  ret : Nat
  opened : Bool
  borrows : Nat
  /-- the words that wait for the scope to be quiet (R122) -/
  waiters : List Asker
  deriving DecidableEq, Repr

def Scope.reset : Scope := { kitty := 0, ret := 0, opened := false, borrows := 0, waiters := [] }

/-- A task out of its core, or stopped in its bank under the dealer's hand (R111, R114, R322). -/
structure Saved where
  /-- the save slot; none for an image that waits for a free slot in its bank -/
  slot : Option Nat
  task : Task
  img : Image
  /-- the copy of the task's layer 0 window, a listing of its bytes -/
  window : List Host.Cell
  /-- the fault record of a task stopped on the system route; zero otherwise -/
  fault : FaultRec
  /-- stopped on the system route and not ended yet -/
  faulted : Bool
  /-- the image is whole in its slot -/
  complete : Bool
  deriving DecidableEq, Repr

/-- A fault case of the die's firmware (R322): the fault handler runs for it, or the host decides it (R323). -/
structure FaultCase where
  /-- the model's own name of the case -/
  id : Nat
  record : FaultRec
  tid : Option Nat
  /-- MODES as it stood when the case was opened: it ends in that mode (R306) -/
  modes : Word
  /-- the number of its record in the fault ring, once the handler has left it to the host -/
  num : Option Nat
  /-- the failed group that the dealer holds until the host decides its replay, with the core it failed on and the code of
  the fault that ended it (R362) -/
  failed : Option (Task × CoreIx × BitVec 16)
  deriving DecidableEq, Repr

/-- A core's task that waits collectively in a bank, while fillers run in the other (R123): the core, the bank, and the save
slot reserved for the filler that runs, none once a filler has been written to it. -/
structure Filling where
  core : CoreIx
  bank : BankIx
  slot : Option Nat
  deriving DecidableEq, Repr

/-- A die (R13): its dealer, its layers, and its firmware's cases. -/
structure Die where
  records : Store Record
  seq : Nat
  scopes : Store Scope
  saved : List Saved
  /-- of each bank of future words, the cycle from which it performs its next operation, and those that it has received, the
  first of them asking for its line (R118) -/
  futBusy : Store Nat
  futQ : Store (List (Word × FutOp))
  /-- the links of entries of other packages that stand on lists of futures here (R116) -/
  farLinks : Store (BitVec 32)
  saveBase : Word
  saveCount : Word
  allocBase : Word
  fillwait : Word
  /-- layers 2 and 3 are powered -/
  on : Vector Bool 2
  /-- the cycle in which a power-up of the layer completes -/
  waking : Vector (Option Nat) 2
  /-- a down hint stands for the layer (R258) -/
  down : Vector Bool 2
  /-- operations appended to the barrier backing store (R368), each with its column and its barrier's index -/
  backing : List (Nat × Nat × BarOp)
  /-- the column that holds the die's stores (R62, R347), and the columns announced to hold them, newest first, each with the
  cycle from which the tasks that start see it there -/
  storesCol : Nat
  storesSeen : List (Nat × Nat)
  cases : List FaultCase
  /-- the collective waits that the dealer fills (R123) -/
  fillers : List Filling
  /-- fault records that wait for room in the fault ring (R323) -/
  waitRing : List FaultRec
  /-- the core that FS serves next, and the cycle after its last turn (R72) -/
  fsNext : Fin 64
  fsAt : Nat
  deriving DecidableEq, Repr

def Die.reset : Die :=
  { records := [], seq := 0, scopes := [], saved := [], futBusy := [], futQ := [], farLinks := [], saveBase := 0, saveCount := 0, allocBase := 0,
    fillwait := 0x101000, on := Vector.replicate 2 true, waking := Vector.replicate 2 none, down := Vector.replicate 2 false, backing := [],
    storesCol := 7, storesSeen := [], cases := [], fillers := [], waitRing := [], fsNext := 0, fsAt := 0 }

/-! ### The package -/

/-- A translation held in a buffer (R76). -/
structure Tlb where
  va : Nat
  size : Nat
  frame : Nat
  w : Bool
  deriving DecidableEq, Repr

/-- A Sprinwell port (R299, R307, R373): trained, consecutive flits discarded, its link's delay in nanoseconds, and the cycle
in which a delay request left that is not answered. -/
structure PortState where
  trained : Bool
  fails : Nat
  delay : Nat
  asked : Option Nat
  deriving DecidableEq, Repr

def PortState.reset : PortState := { trained := false, fails := 0, delay := 0, asked := none }

/-- A packet that leaves the package (R299, R300): the package it comes from and the one it is for, none for the neighbour on
its port; its port, none while it is held because no route leads there (R374); and its class. -/
structure Sent where
  src : Nat
  dest : Option Nat
  port : Option Nat
  cls : Nat
  pkt : Packet
  deriving DecidableEq, Repr

/-- A completion that the host receives for a read (R304, R338, R374): its data, EP, or Completer Abort. -/
structure HostAnswer where
  bytes : List (BitVec 8)
  ep : Bool
  abort : Bool
  deriving DecidableEq, Repr

/-- The registers of the bridge block (R304, R323, R339, R359, R376). -/
structure BridgeBlock where
  hostRing : Word
  hostSize : Word
  hostHead : Word
  hostTail : Word
  hostThr : Word
  nonce : List Word
  /-- REPORT, 8,192 bytes as double words -/
  report : List Word
  hostRefused : Word
  teleLost : Word
  startStat : Word
  farEcc : Store Word
  ring : Store FaultRec
  faultHead : Word
  faultTail : Word
  deriving DecidableEq, Repr

def BridgeBlock.reset : BridgeBlock :=
  { hostRing := 0, hostSize := 0, hostHead := 0, hostTail := 0, hostThr := 0, nonce := [], report := [],
    hostRefused := 0, teleLost := 0, startStat := 0, farEcc := [], ring := [], faultHead := 0, faultTail := 0 }

/-- The power governor's account (R309, R310). -/
structure Governor where
  /-- mean of the samples of the last window, in µW; none while the window under way is a first one -/
  prev : Option Nat
  sum : Nat
  count : Nat
  /-- the last valid sample, and consecutive samples that were not -/
  lastGood : Nat
  invalid : Nat
  /-- issue tokens withheld, of every 65,536 that a core asks for (R310) -/
  share : Nat
  /-- the window of group time under way, in milliseconds (R309) -/
  window : Nat
  deriving DecidableEq, Repr

def Governor.reset : Governor := { prev := none, sum := 0, count := 0, lastGood := 0, invalid := 0, share := 0, window := 0 }

/-- The clock of the package (R26, R307, R308). -/
structure Clock where
  sec : BitVec 48
  ns : BitVec 32
  /-- the package cycle at which it held those values -/
  at? : Nat
  /-- seconds announced for the next 1PPS edge -/
  next : Option (BitVec 48)
  /-- the source is lost (R377) -/
  lost : Bool
  /-- nanoseconds by which it is still to be slewed since then (R377) -/
  slew : Int
  deriving DecidableEq, Repr

/-- A telemetry record that the bridge is to copy (R313): its package, its number, the group time that it is stamped with,
the size of its ring, and its bytes, which a record of the bridge's own ring has in memory. -/
structure TeleRec where
  pkg : Nat
  seq : Nat
  time : Nat
  ring : Nat
  bytes : List Byte
  deriving DecidableEq, Repr

/-- Telemetry's account (R313). -/
structure Telemetry where
  /-- THERMALLOW has refused a token in the interval -/
  refused : Bool
  /-- at the bridge: records to be copied, by time and package, and of each package the time and the number past that of
  its last record -/
  wait : List TeleRec
  times : Store Nat
  nexts : Store Nat
  deriving DecidableEq, Repr

/-- Package-scope state (R305, R306, R309, R313, R75 to R77, R299 to R304). -/
structure Package where
  /-- the step of the start sequence it stands in (R301, R376); 6: step 3 has found a second strap; 7: it has heard no claim -/
  phase : Nat
  features : Word
  enabled : Word
  modes : Word
  rampUp : Word
  rampDown : Word
  ptbase : Word
  tgen : Word
  /-- accesses under way when a generation began, translated under an older one: the generation, and of each access its
  source and the number of its line or its target (R353) -/
  older : List (Word × List (Nat × Nat))
  pfblock : Word
  pfthresh : Word
  telebase : Word
  telectl : Word
  /-- the translation buffers by number (R76): of a core its second level, of an engine its stream buffer -/
  tlbs : Store (List Tlb)
  bridge : BridgeBlock
  gov : Governor
  clock : Clock
  tele : Telemetry
  /-- far-memory frames that the migration service has taken from firmware's pool (R352) -/
  taken : List Nat
  /-- measurement registers M0–M7 (R314) -/
  meas : Vector (BitVec 256) 8
  ports : Store PortState
  /-- its number in the group, the packages of the group, and their links, as enumeration gave them (R15, R300, R301) -/
  num : Nat
  group : Nat
  links : List Link
  /-- bridge claims heard, and the cycle in which port training ended -/
  claims : List Nat
  /-- the host can be reached: over the package's own PCIe port on the bridge, through the bridge elsewhere (R375) -/
  pcieUp : Bool
  /-- scatter updates sent to other packages whose answers have not arrived -/
  away : List Update
  /-- outputs: packets to other packages, oldest first, and MSI-X vectors sent -/
  sentPackets : List Sent
  msix : List Nat
  /-- completions of host reads, oldest first -/
  hostAnswers : List HostAnswer
  /-- fault records that wait for the bridge to be reachable (R375) -/
  faultsHeld : List FaultRec
  deriving DecidableEq, Repr

/-- FEATURES[0] after reset on the bridge of a group of one, with the build's fields zero but BALLAST, HWMIG and PTM
(R305): BRIDGE 1, MODULE 0, PINRATE 0, FARCAP 0, PTM 1, PPS 0. -/
def featuresReset : Word := 0x341

def Package.reset : Package :=
  { phase := 5, features := featuresReset, enabled := 0, modes := 0, rampUp := 200, rampDown := 200, ptbase := 0, tgen := 0, older := [],
    pfblock := 0, pfthresh := 128, telebase := 0, telectl := 0x803E8, tlbs := [], bridge := BridgeBlock.reset,
    gov := Governor.reset, clock := { sec := 0, ns := 0, at? := 0, next := none, lost := false, slew := 0 },
    tele := { refused := false, wait := [], times := [], nexts := [] }, taken := [], meas := Vector.replicate 8 0, ports := [], num := 0, group := 1, links := [], claims := [],
    pcieUp := true, away := [], sentPackets := [], msix := [], hostAnswers := [], faultsHeld := [] }

/-! ### The machine -/

/-- The phases of one cycle of a running bank, in the order the model runs them. -/
inductive Phase where
  | land | issueEarly | engine (q : Fin 13) | loop | push | issueLate | elems | endCycle
  deriving DecidableEq, Repr

/-- What one agenda entry does. -/
inductive Act where
  /-- a phase of the cycle of a core's bank -/
  | bank (core : CoreIx) (bank : BankIx) (ph : Phase)
  /-- an engine performs the word it has started -/
  | perform (core : CoreIx) (bank : BankIx) (q : Fin 13) (ctx : Fin 3)
  /-- the transform sequencer of a column issues its next instruction -/
  | ts (col : ColIx)
  /-- a request reaches a dealer -/
  | dealer (die : DieIx) (x : DealerMsg)
  /-- the banks of a core's layer 0 grant their lines (R60) -/
  | grant (core : CoreIx)
  /-- an error that a read has found at a granule is counted (R335) -/
  | ecc (key : Nat) (uncorr : Bool)
  /-- a cycle in which an access waited on a forced refresh of a column's slice is counted (R64) -/
  | stall (col : ColIx)
  /-- the port of a slice accepts its lines (R61), or CE4 issues read and write commands (R63) -/
  | port (col : ColIx) (layer : Fin 4)
  /-- a report or a read reaches a coverage unit -/
  | cov (col : ColIx) (x : CovMsg)
  /-- a step of a unit, or what the world outside brings -/
  | ev (e : Event)
  deriving DecidableEq, Repr

/-- An entry of the agenda: when it is due, its rank within that cycle, and what it does. -/
structure Entry where
  due : Nat
  rank : Nat
  act : Act
  deriving DecidableEq, Repr

/-- Whether the acting unit issues a word of a context, performs a started word, or is a unit of its own. -/
inductive Role where
  | issue | perform | unit
  deriving DecidableEq, Repr

/-- The unit that acts in this step. -/
structure Focus where
  role : Role
  core : CoreIx
  bank : BankIx
  ctx : Fin 3
  q : Fin 13
  col : ColIx
  /-- what the unit, or the world outside, brings to this step -/
  event : Option Event
  deriving DecidableEq, Repr

/-- The state of the package. -/
structure State where
  /-- the package's cycle: CYCLE of R200 -/
  now : Nat
  agenda : List Entry
  focus : Focus
  /-- the model's own: the index of the next free value of Config -/
  free : Nat
  /-- the model's own: the next task name -/
  nextTid : Nat
  cores : Store Core
  cols : Store Column
  dies : Store Die
  pkg : Package
  /-- every byte of layers 0 to 4, of far memory and of host memory; a byte not listed is zero -/
  mem : List Host.Cell
  /-- poisoned granules, by the key of their first byte (R337) -/
  poison : List Nat
  /-- granules whose stored bits hold an error that reads find (R335) -/
  latent : Store Latent
  deriving DecidableEq, Repr

def Focus.reset : Focus :=
  { role := .unit, core := 0, bank := 0, ctx := 0, q := 0, col := 0, event := none }

/-- The ranks of one cycle: reads and registrations come before the writes of the cycle (R146, R209, R274). Within a
rank, the acts of the 256 cores come in ascending core index (R198). -/
abbrev rankLand : Nat := 0
abbrev rankRead : Nat := 256
abbrev rankEarly : Nat := 512
abbrev rankEngine : Nat := 768
abbrev rankLoop : Nat := 1024
abbrev rankAnswer : Nat := 1280
/-- The LOOP and SYNC engines push once every answer of the cycle has come (R87, R268). -/
abbrev rankPush : Nat := 1408
abbrev rankLate : Nat := 1536
abbrev rankArm : Nat := 1792
abbrev rankCount : Nat := 2048
abbrev rankWait : Nat := 2304
abbrev rankUnit : Nat := 2560
/-- Lines are accepted and granted once every request of the cycle has been made, before any write of the cycle. -/
abbrev rankPort : Nat := 2800
abbrev rankGrant : Nat := 2816
abbrev rankMemory : Nat := 3072
abbrev rankRefresh : Nat := 3327
abbrev rankEnd : Nat := 3328
/-- A task stops once the cycle of its bank is over. -/
abbrev rankStop : Nat := 3583
abbrev rankDealer : Nat := 3584

/-- Cycles of 1 µs (R4). -/
abbrev usCycles : Nat := 2250

/-- What the package does by itself from the start on: the periods of R60 and R311, the refresh windows of R64, the
thermal manager of R312, the clock's sync of R307 and the repair windows of R342. -/
def agendaReset : List Entry :=
  [⟨64, rankLand, .ev .bankPeriodStart⟩, ⟨usCycles, rankLand, .ev .tokenPeriod⟩] ++
  ((List.finRange 32).flatMap fun c => (List.finRange 32).map fun b =>
    (⟨8775, rankRefresh, .ev (.forcedRefresh c b)⟩ : Entry)) ++
  ((List.finRange 32).map fun c => (⟨100 * usCycles, rankUnit, .ev (.thermalManagerAction c)⟩ : Entry)) ++
  [⟨125 * usCycles, rankUnit, .ev .ptpSyncSend⟩, ⟨2 ^ 24, rankUnit, .ev .repairWindow⟩]

/-- The machine right after reset: step 2 of R301 has left every store as R302 says, enumeration has found a group of
one package, and the driver has written nothing. Only what the package does by itself is due. -/
def State.reset : State :=
  { now := 0, agenda := agendaReset, focus := Focus.reset, free := 0, nextTid := 1, cores := [], cols := [], dies := [],
    pkg := Package.reset, mem := [], poison := [], latent := [] }

/-- Why the machine stops: an event of the agenda names what is not there. -/
inductive Fault where
  /-- Raised by a unit's step whose operands name a record, task, entry or unit that the state does not hold, so that
  the spec gives the step nothing to act on. Safe: the machine stops where no step of the spec applies. -/
  | nothingThere (what : String)
  deriving DecidableEq, Repr

/-- Why a step is refused. -/
inductive Refusal where
  /-- Raised by the arm of an instruction that has no meaning yet. Safe: nothing is claimed of it. -/
  | notModelled (mnemonic : String)
  deriving DecidableEq, Repr

end Sys2Proof.Machine
end

