-- ==== Sys2Proof/Machine/Base.lean ====
section
/-! DEFINITION. Readers and writers of the parts of the state: the one way to each core, bank, context, column and
die, and the agenda. -/

namespace Sys2Proof.Machine

open Sys2Proof

/-- The outcome type of every meaning. -/
abbrev Out := Host.Outcome State Fault Refusal

/-! ### Numbering (R14) -/

def coreDie (c : CoreIx) : DieIx := Fin.ofNat 4 (c.val / 64)
/-- The column of a core, numbered 8 × die + column. -/
def coreCol (c : CoreIx) : ColIx := Fin.ofNat 32 (c.val / 8)
def colDie (c : ColIx) : DieIx := Fin.ofNat 4 (c.val / 8)
/-- Core k of a column. -/
def colCore (c : ColIx) (k : Nat) : CoreIx := Fin.ofNat 256 (8 * c.val + k % 8)
/-- Die core index k of a die. -/
def dieCore (d : DieIx) (k : Nat) : CoreIx := Fin.ofNat 256 (64 * d.val + k % 64)

def ctxIx : Ctx → Fin 3
  | .ld => 0
  | .cm => 1
  | .st => 2

def ixCtx (c : Fin 3) : Ctx :=
  match c.val with
  | 0 => .ld
  | 1 => .cm
  | _ => .st

/-! ### Cores, banks and contexts -/

def State.core (s : State) (c : CoreIx) : Core := s.cores.get Core.reset c.val
def State.setCore (s : State) (c : CoreIx) (v : Core) : State := { s with cores := s.cores.put c.val v }
def State.modCore (s : State) (c : CoreIx) (f : Core → Core) : State := s.setCore c (f (s.core c))

def State.bank (s : State) (c : CoreIx) (b : BankIx) : Bank := (s.core c).banks[b.val]
def State.modBank (s : State) (c : CoreIx) (b : BankIx) (f : Bank → Bank) : State :=
  s.modCore c fun k => { k with banks := k.banks.set b.val (f k.banks[b.val]) }

def State.img (s : State) (c : CoreIx) (b : BankIx) : Image := (s.bank c b).img
def State.modImg (s : State) (c : CoreIx) (b : BankIx) (f : Image → Image) : State :=
  s.modBank c b fun k => { k with img := f k.img }

/-- The image of the bank in focus. -/
def State.cur (s : State) : Image := s.img s.focus.core s.focus.bank
def State.modCur (s : State) (f : Image → Image) : State := s.modImg s.focus.core s.focus.bank f

def Image.modCtx (m : Image) (c : Fin 3) (f : Context → Context) : Image :=
  { m with ctx := m.ctx.set c.val (f m.ctx[c.val]) }

/-- The context in focus. -/
def State.cx (s : State) : Context := s.cur.ctx[s.focus.ctx.val]
def State.modCx (s : State) (f : Context → Context) : State := s.modCur fun m => m.modCtx s.focus.ctx f

/-- The engine queue of index q of context c (R84). -/
def eqIx (q : Fin 13) (c : Fin 3) : Fin 39 := Fin.ofNat 39 (3 * q.val + c.val)
def Image.eqAt (m : Image) (q : Fin 13) (c : Fin 3) : EngQueue := m.eq[(eqIx q c).val]
def Image.modEq (m : Image) (q : Fin 13) (c : Fin 3) (f : EngQueue → EngQueue) : Image :=
  { m with eq := m.eq.set (eqIx q c).val (f (m.eqAt q c)) }
def Image.modEng (m : Image) (q : Fin 13) (f : EngState → EngState) : Image :=
  { m with eng := m.eng.set q.val (f m.eng[q.val]) }

/-- The started word in focus: its queue entry and its progress. -/
def State.curQ (s : State) : EngQueue := s.cur.eqAt s.focus.q s.focus.ctx
def State.modQ (s : State) (f : EngQueue → EngQueue) : State := s.modCur fun m => m.modEq s.focus.q s.focus.ctx f
/-- The package cycle in which the task of an image started. -/
def Image.startedAt (m : Image) : Nat :=
  match m.task with
  | some t => t.started
  | none => 0

/-- The package cycle in which the task of the word in focus started: its view of condemned slices is that task's (R344). -/
def State.view (s : State) : Nat :=
  match s.curQ.words with
  | w :: _ => w.view
  | [] => s.cur.startedAt

/-- Whether an image holds the task of a name. -/
def Image.holds (m : Image) (tid : Nat) : Bool :=
  match m.task with
  | some t => t.tid == tid
  | none => false

/-- Whether the task of the word in focus is in the bank: the word does not run on after its task's boundary (R97). -/
def State.wordLive (s : State) : Bool :=
  match s.curQ.words with
  | w :: _ => s.cur.holds w.tid
  | [] => true

def Cur.fresh (now : Nat) (popped : List Word) : Cur :=
  { started := now, popped, mpc := 0, next := now, part := [], lastDone := false, rows := [], fromRow := 0,
    fromAt := now, acc := [], halt := none, window := [], reads := [], opened := false, lines := [], heldAt := 0, held := [], copy := none, sent := 0, item := none, waiting := false,
    answer := none }
/-- The barrier of the copy that a word in progress runs. -/
def Cur.bar (k : Cur) : Word := (k.copy.map (·.bar)).getD 0

def State.prog (s : State) : Cur := s.curQ.cur.getD (Cur.fresh s.cur.cyc [])
def State.setProg (s : State) (c : Cur) : State := s.modQ fun q => { q with cur := some c }

/-- The focus on a context of a bank. -/
def State.focusOn (s : State) (role : Role) (core : CoreIx) (bank : BankIx) (ctx : Fin 3) (q : Fin 13) : State :=
  { s with focus := { s.focus with role, core, bank, ctx, q, event := none } }

/-! ### Tasks -/

/-- The task cycle (R81). -/
def Image.taskCycle (m : Image) : Nat := m.cyc - m.base.getD m.cyc

/-- The bank of a core that holds a task. -/
def Core.bankOf (k : Core) (tid : Nat) : Option BankIx :=
  if k.banks[0].img.holds tid then some 0 else if k.banks[1].img.holds tid then some 1 else none

/-- The core and bank that hold a task. -/
def bankOfIn (l : Store Core) (tid : Nat) : Option (CoreIx × BankIx) :=
  match l with
  | [] => none
  | (c, k) :: rest =>
    match k.bankOf tid with
    | some b => some (Fin.ofNat 256 c, b)
    | none => bankOfIn rest tid

def State.bankOf (s : State) (tid : Nat) : Option (CoreIx × BankIx) := bankOfIn s.cores tid

/-- The image of a task out of its core, among those of a die. -/
def Saved.holds (x : Saved) (tid : Nat) : Bool := x.task.tid == tid

/-- The image of a task, in its bank or out of its core. -/
def State.taskImg (s : State) (tid : Nat) : Option Image :=
  match s.bankOf tid with
  | some (c, b) => some (s.img c b)
  | none => (s.dies.flatMap fun d => d.2.saved).findSome? fun x => if x.holds tid then some x.img else none

/-- A task's image changed where it is; nothing when the task has ended. -/
def State.modTask (s : State) (tid : Nat) (f : Image → Image) : State :=
  match s.bankOf tid with
  | some (c, b) => s.modImg c b f
  | none =>
    { s with
      dies := s.dies.map fun d =>
        (d.1, { d.2 with saved := d.2.saved.map fun x => if x.holds tid then { x with img := f x.img } else x }) }

/-! ### Columns and dies -/

def State.col (s : State) (c : ColIx) : Column := s.cols.get Column.reset c.val
def State.setCol (s : State) (c : ColIx) (v : Column) : State := { s with cols := s.cols.put c.val v }
def State.modCol (s : State) (c : ColIx) (f : Column → Column) : State := s.setCol c (f (s.col c))

def State.die (s : State) (d : DieIx) : Die := s.dies.get Die.reset d.val
def State.setDie (s : State) (d : DieIx) (v : Die) : State := { s with dies := s.dies.put d.val v }
def State.modDie (s : State) (d : DieIx) (f : Die → Die) : State := s.setDie d (f (s.die d))

def State.modPkg (s : State) (f : Package → Package) : State := { s with pkg := f s.pkg }
def State.modBridge (s : State) (f : BridgeBlock → BridgeBlock) : State :=
  s.modPkg fun p => { p with bridge := f p.bridge }

def State.dram (s : State) (c : ColIx) (b : Fin 32) : DramBank := (s.col c).dram.get DramBank.reset b.val
def State.modDram (s : State) (c : ColIx) (b : Fin 32) (f : DramBank → DramBank) : State :=
  s.modCol c fun k => { k with dram := k.dram.put b.val (f (k.dram.get DramBank.reset b.val)) }

def State.slice (s : State) (c : ColIx) (l : Fin 4) : Slice := (s.col c).slices[l.val]
def State.modSlice (s : State) (c : ColIx) (l : Fin 4) (f : Slice → Slice) : State :=
  s.modCol c fun k => { k with slices := k.slices.set l.val (f k.slices[l.val]) }

/-! ### The agenda -/

/-- An entry placed after every entry that is due no later. -/
def agendaAdd (e : Entry) (l : List Entry) : List Entry :=
  match l with
  | [] => [e]
  | x :: rest =>
    if e.due < x.due ∨ (e.due = x.due ∧ e.rank < x.rank) then e :: x :: rest else x :: agendaAdd e rest

def State.schedule (s : State) (due rank : Nat) (a : Act) : State :=
  { s with agenda := agendaAdd ⟨due, rank, a⟩ s.agenda }

/-- What comes next at once, before everything else that is due: the acts listed, in order. -/
def State.soon (s : State) (rank : Nat) (l : List Act) : State :=
  { s with agenda := (l.map fun a => ⟨s.now, rank, a⟩) ++ s.agenda }

/-- A unit's step, due in `n` cycles. -/
def State.after (s : State) (n rank : Nat) (e : Event) : State := s.schedule (s.now + n) rank (.ev e)

/-- The dealer's choice is made in this cycle, if it is not yet due (R108). -/
def State.wantChoice (s : State) (d : DieIx) : State :=
  if s.agenda.any fun e => e.due == s.now && e.act == .ev (.dealerChoice d) then s
  else s.schedule s.now (rankDealer + 200) (.ev (.dealerChoice d))

/-- Firmware tries to switch off the layers of a die for which a hint stands, layer 3 first (R66, R258). -/
def State.offAsked (s : State) (d : DieIx) : State :=
  let k := s.die d
  let s1 := if k.down[1] then s.after 0 (rankDealer + 170) (.layerPowerOff d 3) else s
  if k.down[0] then s1.after 0 (rankDealer + 170) (.layerPowerOff d 2) else s1

/-- The requests for lines that are not those of a withdrawn step. -/
def keptReqs (p : Act → Bool) (l : List LineReq) : List LineReq :=
  l.filter fun r => match r.who with
    | .unit e => !(p (.ev e))
    | .msg d x => !(p (.dealer d x))
    | _ => true

/-- Every entry of the agenda that `p` names is withdrawn, with every request for a line that a step it names has made. -/
def State.withdraw (s : State) (p : Act → Bool) : State :=
  { s with
    agenda := s.agenda.filter fun e => !(p e.act)
    cores := s.cores.map fun k => (k.1, { k.2 with reqs := keptReqs p k.2.reqs })
    cols := s.cols.map fun k =>
      (k.1, { k.2 with slices := k.2.slices.map fun x => { x with reqs := keptReqs p x.reqs } }) }

/-- The steps that wait for lines. -/
def reqActs (l : List LineReq) : List Act :=
  l.filterMap fun r => match r.who with
    | .unit e => some (.ev e)
    | .msg d x => some (.dealer d x)
    | _ => none

/-- Everything that is to come: what is due, and what waits for a line of a bank or a slice. -/
def State.pendingActs (s : State) : List Act :=
  (s.agenda.map fun e => e.act) ++ (s.cores.flatMap fun k => reqActs k.2.reqs) ++
    (s.cols.flatMap fun k => k.2.slices.toList.flatMap fun x => reqActs x.reqs)

/-- The next value of the free-value counter, and the state past it. -/
def State.nextFree (s : State) : Nat × State := (s.free, { s with free := s.free + 1 })

/-- Work done for every element of a list, one after the other. -/
def State.each {α : Type} (s : State) (l : List α) (f : State → α → State) : State := l.foldl f s

end Sys2Proof.Machine
end

