-- ==== Sys2Proof/Machine/Route.lean ====
section
/-! DEFINITION. The group (R15, R24, R299 to R301, R373, R374): the links between packages, the numbers that enumeration
gives, the routes, and the packets that leave the package. -/

namespace Sys2Proof.Machine

open Sys2Proof

/-! ### Links, numbers and routes (R300, R301) -/

/-- A port and the package behind it, placed by ascending port. -/
def portAdd (x : Nat × Nat) : List (Nat × Nat) → List (Nat × Nat)
  | [] => [x]
  | y :: rest => if x.1 < y.1 then x :: y :: rest else y :: portAdd x rest

/-- The ports of a package that are joined to others, ascending, each with the package behind it. -/
def linksOf (links : List Link) (me : Nat) : List (Nat × Nat) :=
  links.foldl (fun l x =>
    let l1 := if x.a = me then portAdd (x.pa, x.b) l else l
    if x.b = me then portAdd (x.pb, x.a) l1 else l1) []

/-- A package that is found: the port by which the first package reaches it, and the package and port through which it was
found. -/
structure Found where
  pkg : Nat
  first : Nat
  parent : Nat
  port : Nat
  deriving DecidableEq, Repr

/-- The neighbours of a package that are newly found, by ascending port; `first`: the first port of the way to it, none for
the package where the search begins. -/
def newFound (links : List Link) (me p : Nat) (first : Option Nat) (found : List Found) : List Found :=
  (linksOf links p).foldl (fun l x =>
    if x.2 = me ∨ ((found ++ l).any fun y => y.pkg == x.2) = true then l
    else l ++ [{ pkg := x.2, first := first.getD x.1, parent := p, port := x.1 }]) []

/-- Packages breadth first (R301). -/
def findPackages (links : List Link) (me : Nat) : Nat → List Found → List Found → List Found
  | 0, _, found => found
  | _, [], found => found
  | n + 1, x :: rest, found =>
    let new := newFound links me x.pkg (some x.first) found
    findPackages links me n (rest ++ new) (found ++ new)

/-- The packages that a package reaches, in the order in which they are found: the first ports of shortest routes, ties
broken towards the lowest port (R300). -/
def routesOf (links : List Link) (me : Nat) : List Found :=
  let first := newFound links me me none []
  findPackages links me 64 first first

/-- The PKG number of a package that the bridge, itself 0, has found (R301). -/
def pkgNumber (links : List Link) (raw : Nat) : Nat :=
  if raw = 0 then 0 else 1 + ((routesOf links 0).map (·.pkg)).idxOf raw

/-- The ports through which enumeration, from the bridge, found packages beyond a package (R307). -/
def childPorts (links : List Link) (me : Nat) : List Nat :=
  ((routesOf links 0).filter fun x => x.parent == me).map (·.port)

/-- Links by the numbers of their packages. -/
def numbered (links : List Link) : List Link :=
  links.map fun x => { x with a := pkgNumber links x.a, b := pkgNumber links x.b }

/-- The first port of the route to a package. -/
def State.routeTo (s : State) (p : Nat) : Option Nat :=
  ((routesOf s.pkg.links s.pkg.num).find? fun x => x.pkg == p).map (·.first)

/-- Whether a route leads to a package. -/
def State.reaches (s : State) (p : Nat) : Bool := (s.routeTo p).isSome

/-- The package is the bridge of its group (R24). -/
def State.isBridge (s : State) : Bool := bitAt 0 s.pkg.features.toNat

/-! ### Numbers of packages in names and addresses -/

/-- The other packages of the group, as enumeration numbered them. -/
def State.others (s : State) : List Nat := (List.range s.pkg.group).filter fun p => p != s.pkg.num

/-- A key of memory of a device physical address, and the other way round: keys number packages from this one, by exclusive
or, so that the package's own memory has package 0 (R74). -/
def State.pkgKey (s : State) (pa : Nat) : Nat := if bitAt 51 pa then pa else pa ^^^ (s.pkg.num * 2 ^ 45)

/-- The number of the package of a key's package field. -/
def State.pkgOfKey (s : State) (p : Nat) : Nat := p ^^^ s.pkg.num

/-- A package number beyond those of the group (R358). -/
def State.beyond (s : State) (p : Nat) : Bool := decide (s.pkg.group ≤ p)

/-! ### Packets that leave (R299, R300, R374) -/

/-- A packet from a package sets out for another, on the first port of its route; without a route it is held. -/
def State.forward (s : State) (src dest : Nat) (x : Packet) : State :=
  s.modPkg fun p =>
    { p with sentPackets := p.sentPackets ++ [{ src, dest := some dest, port := s.routeTo dest, cls := x.cls, pkt := x }] }

def State.send (s : State) (dest : Nat) (x : Packet) : State := s.forward s.pkg.num dest x

/-- A packet for the neighbour on a port. -/
def State.sendOn (s : State) (port : Nat) (x : Packet) : State :=
  s.modPkg fun p =>
    { p with
      sentPackets := p.sentPackets ++ [{ src := p.num, dest := none, port := some port, cls := x.cls, pkt := x }] }

/-- A packet on every trained port but one. -/
def State.sendAll (s : State) (but : Option Nat) (x : Packet) : State :=
  s.each (List.range 12) fun s n =>
    if (s.pkg.ports.get PortState.reset n).trained ∧ but ≠ some n then s.sendOn n x else s

/-- New routes: packets that were held leave when a route now leads to their package, in the order in which they were sent
(R374). -/
def State.reroutes (s : State) (links : List Link) : State :=
  let s1 := s.modPkg fun p => { p with links }
  s1.modPkg fun p =>
    { p with
      sentPackets := p.sentPackets.map fun x => match x.port, x.dest with
        | none, some d => { x with port := s1.routeTo d }
        | _, _ => x }

end Sys2Proof.Machine
end

