-- ==== Sys2Proof/Machine/Report.lean ====
section
/-! DEFINITION. Fault records and the fault ring (R322, R323, R375). -/

namespace Sys2Proof.Machine

open Sys2Proof

/-- A code whose record only reports: R356 and R378 give its action as "none" (R322). -/
def reportOnly (code : BitVec 16) : Bool :=
  code == 0x0901 || code == 0x0902 || code == 0x0903 || code == 0x0804 || code == 0x0E02 || code == 0x0F03

/-- The record reference of R116. -/
def recordRef (slot die entry pkg : Nat) : BitVec 32 :=
  BitVec.ofNat 32 (slot + die * 2 ^ 19 + entry * 2 ^ 21 + pkg * 2 ^ 23)

/-- A fault record of a package (R322). `ctx` is 3 when no context issued the word. -/
def faultRecord (pkg : Nat) (code : BitVec 16) (ctx q mpc pc : Nat) (addr : Word) (t : Option Task) (core : Nat) : FaultRec :=
  let ref := match t with
    | some t => (recordRef t.slot t.die.val 0 t.pkg).toNat
    | none => 0
  let group := match t with
    | some t => t.group
    | none => 0
  #v[BitVec.ofNat 64 (code.toNat + ctx % 4 * 2 ^ 16 + q * 2 ^ 24 + mpc % 2 ^ 32 * 2 ^ 32),
     BitVec.ofNat 64 (pc % 2 ^ 15 + ref * 2 ^ 32), addr, BitVec.ofNat 64 (group + core * 2 ^ 32 + pkg % 64 * 2 ^ 40)]

def State.faultRec (s : State) (code : BitVec 16) (ctx q mpc pc : Nat) (addr : Word) (t : Option Task) (core : Nat) : FaultRec :=
  faultRecord s.pkg.num code ctx q mpc pc addr t core

/-- The package that a fault record names. -/
def recordPkg (r : FaultRec) : Nat := fld 45 40 r[3].toNat

/-- MSI-X vector of a fault record (R323). -/
def faultVector (code : BitVec 16) : Nat :=
  if code.toNat / 256 = 0x0E then 3 else if code.toNat / 256 = 0x0F then 4 else 2

/-- A record is written to the fault ring, the host is signalled, and a case that waits for the host's decision on the
record takes its number (R323). -/
def State.ringPut (s : State) (r : FaultRec) : State :=
  let n := s.pkg.bridge.faultHead.toNat
  let code : BitVec 16 := r[0].setWidth 16
  let s1 := s.modPkg fun p =>
    { p with
      bridge :=
        { p.bridge with
          ring := p.bridge.ring.put (n % 64) r
          faultHead := p.bridge.faultHead + 1 }
      msix := p.msix ++ [faultVector code] }
  { s1 with
    dies := s1.dies.map fun d =>
      (d.1, { d.2 with
        cases := d.2.cases.map fun (x : FaultCase) => if x.record = r ∧ x.num = none then { x with num := some n } else x }) }

/-- The ring holds 64 records that the host has not consumed (R323). -/
def State.ringFull (s : State) : Bool := s.pkg.bridge.faultHead - s.pkg.bridge.faultTail == 64

/-- A fault record reaches the fault ring, which the bridge keeps, or it waits for room or for the bridge (R323, R375). -/
def State.toRing (s : State) (d : DieIx) (r : FaultRec) : State :=
  if !s.pkg.pcieUp then
    s.modPkg fun p => if p.faultsHeld.length < 64 then { p with faultsHeld := p.faultsHeld ++ [r] } else p
  else if !s.isBridge then s.send 0 (.fault r.toList)
  else if s.ringFull then s.modDie d fun k => { k with waitRing := k.waitRing ++ [r] }
  else s.ringPut r

/-- A record with CTX 3 that only reports, or that names a launch and no word (R358, R367, R369, R373). -/
def State.report (s : State) (d : DieIx) (code : BitVec 16) (addr : Word) : State :=
  s.toRing d (s.faultRec code 3 0 0 0 addr none 0)

end Sys2Proof.Machine
end

