-- ==== Sys2Proof/Machine/Mem.lean ====
section
/-! DEFINITION. Memory: the address spaces of R54, R55 and R74, layer 0's lines and bank credits (R57 to R60), the
capacity and row state an access needs (R65, R66, R344, R349), poisoned granules (R335 to R337), and translation
(R75, R76, R351, R353). Byte order is decided here, once (R6). -/

namespace Sys2Proof.Machine

open Sys2Proof

/-! ### Bytes -/

/-- The byte at a key; a key that is not listed holds zero (R301, R302). -/
def memGet (m : List Host.Cell) (k : Nat) : Byte :=
  match m with
  | [] => 0
  | (k', v) :: rest => if k' = k then v else if k < k' then 0 else memGet rest k

/-- The memory with v at k, in canonical form: keys rising, no zero byte listed. -/
def memPut (m : List Host.Cell) (k : Nat) (v : Byte) : List Host.Cell :=
  match m with
  | [] => if v = 0 then [] else [(k, v)]
  | (k', v') :: rest =>
    if k < k' then (if v = 0 then (k', v') :: rest else (k, v) :: (k', v') :: rest)
    else if k = k' then (if v = 0 then rest else (k, v) :: rest)
    else (k', v') :: memPut rest k v

/-- Keys at least `lo`, rising strictly, and no zero byte listed. -/
def memWfFrom (lo : Nat) (m : List Host.Cell) : Bool :=
  match m with
  | [] => true
  | (k, v) :: rest => decide (lo ≤ k) && decide (v ≠ 0) && memWfFrom (k + 1) rest

/-- The canonical form of memory. -/
def Memory.wf (m : List Host.Cell) : Bool := memWfFrom 0 m

/-- n bytes from k, little-endian (R6). -/
def memRead (m : List Host.Cell) (k n : Nat) : Nat :=
  match n with
  | 0 => 0
  | n + 1 => (memGet m k).toNat + 256 * memRead m (k + 1) n

/-- The n low bytes of v at k, little-endian (R6). -/
def memWrite (m : List Host.Cell) (k n : Nat) (v : Nat) : List Host.Cell :=
  match n with
  | 0 => m
  | n + 1 => memWrite (memPut m k (BitVec.ofNat 8 v)) (k + 1) n (v / 256)

/-- The bytes listed at the keys from k on, as a list of n bytes. -/
def memBytes (m : List Host.Cell) (k n : Nat) : List Byte :=
  match n with
  | 0 => []
  | n + 1 => memGet m k :: memBytes m (k + 1) n

def memPutBytes (m : List Host.Cell) (k : Nat) (bs : List Byte) : List Host.Cell :=
  match bs with
  | [] => m
  | b :: rest => memPutBytes (memPut m k b) (k + 1) rest

/-! ### Places -/

/-- A place in the package's layers: a die, a column of it, a core of the column (layer 0), a layer and an offset. -/
structure Loc where
  die : Nat
  col : Nat
  core : Nat
  layer : Nat
  off : Nat
  deriving DecidableEq, Repr

/-- Layer 0 of a core lies above every physical address of R74. -/
def keyL0 (core off : Nat) : Nat := 2 ^ 52 + core * 2 ^ 21 + off

/-- A byte of layers 1 to 4 is keyed by its physical address (R74), package 0. -/
def keyTower (col layer off : Nat) : Nat := 2 ^ 44 + col * 2 ^ 35 + layer * 2 ^ 32 + off

def Loc.colIx (l : Loc) : ColIx := Fin.ofNat 32 (8 * l.die + l.col)
def Loc.coreIx (l : Loc) : CoreIx := Fin.ofNat 256 (64 * l.die + 8 * l.col + l.core)

/-- Where a place is kept in the machine's memory. -/
def Loc.key (l : Loc) : Nat :=
  if l.layer = 0 then keyL0 l.coreIx.val l.off else keyTower l.colIx.val l.layer l.off

/-- What a key names. -/
inductive Space where
  | l0 (core off : Nat)
  | tower (col layer off : Nat)
  | far (pkg die byte : Nat)
  | otherTower (pkg : Nat)
  | host (addr : Nat)
  deriving DecidableEq, Repr

/-- The target of a key (R74). -/
def spaceOf (k : Nat) : Space :=
  if 2 ^ 52 ≤ k then .l0 ((k - 2 ^ 52) / 2 ^ 21) (k % 2 ^ 21)
  else if bitAt 51 k then .host (k % 2 ^ 51)
  else if bitAt 44 k then
    (if fld 50 45 k = 0 then .tower (fld 39 35 k) (fld 34 32 k) (fld 30 0 k) else .otherTower (fld 50 45 k))
  else .far (fld 50 45 k) (fld 39 38 k) (fld 37 0 k)

/-- Whether a 64-bit address is generic (R55). -/
def isGeneric (a : Word) : Bool := fld 63 60 a.toNat == 0xF

/-- The place that a generic address names from a core, or none when it is malformed (R55, R191, R354). The offset is
not compared with a capacity, but for the bits the form requires zero. -/
def locOf (core : CoreIx) (a : Word) : Option Loc :=
  let v := a.toNat
  let w := fld 59 56 v
  let layer := fld 33 31 v
  let off := fld 30 0 v
  let die := (coreDie core).val
  let col := (coreCol core).val % 8
  if fld 63 60 v ≠ 0xF ∨ fld 55 42 v ≠ 0 then none
  else match w with
    | 0 => if fld 41 31 v = 0 ∧ fld 30 21 v = 0 then some ⟨die, col, core.val % 8, 0, off⟩ else none
    | 1 => if fld 41 34 v = 0 ∧ 1 ≤ layer ∧ layer ≤ 4 then some ⟨die, col, 0, layer, off⟩ else none
    | 2 =>
      if fld 41 40 v = 0 ∧ layer ≤ 4 ∧ (layer = 0 ∨ fld 36 34 v = 0) then
        some ⟨die, fld 39 37 v, fld 36 34 v, layer, off⟩ else none
    | 3 =>
      if layer ≤ 4 ∧ (layer = 0 ∨ fld 36 34 v = 0) then
        some ⟨fld 41 40 v, fld 39 37 v, fld 36 34 v, layer, off⟩ else none
    | _ => none

/-- Whether a place can be named in a window from a core (Reach of R191). -/
def Loc.reach (l : Loc) (core : CoreIx) (w : Window) : Bool :=
  match w with
  | .local => l.layer == 0 && l.coreIx == core
  | .column => l.layer != 0 && l.colIx == coreCol core
  | .die => l.die == (coreDie core).val
  | .package => true

/-- The form of a place in a window (R55). R191 compares no offset with a capacity: the LOCAL form of a place of layer 0 whose
offset has a bit above 20 is no well-formed address. DESIGN CHOICE, log entry 119. -/
def Loc.form (l : Loc) (w : Window) : Word :=
  let base := 0xF * 2 ^ 60 + l.off
  match w with
  | .local => BitVec.ofNat 64 base
  | .column => BitVec.ofNat 64 (base + 2 ^ 56 + l.layer * 2 ^ 31)
  | .die => BitVec.ofNat 64 (base + 2 * 2 ^ 56 + l.col * 2 ^ 37 + l.core * 2 ^ 34 + l.layer * 2 ^ 31)
  | .package =>
    BitVec.ofNat 64 (base + 3 * 2 ^ 56 + l.die * 2 ^ 40 + l.col * 2 ^ 37 + l.core * 2 ^ 34 + l.layer * 2 ^ 31)

/-- The address of a key that no word named: the DIE form of the die that holds it (R319), or the physical address. -/
def State.keyAddr (s : State) (k : Nat) : Word :=
  match spaceOf k with
  | .l0 core off => Loc.form ⟨core / 64, core / 8 % 8, core % 8, 0, off⟩ .die
  | .tower col layer off => Loc.form ⟨col / 8, col % 8, 0, layer, off⟩ .die
  | _ => BitVec.ofNat 64 (s.pkgKey k)

/-- The cycles a window adds to an access from a core (R56). -/
def Loc.extra (l : Loc) (core : CoreIx) : Nat :=
  if l.die ≠ (coreDie core).val then 24
  else if l.colIx ≠ coreCol core then 4
  else 0

/-- L of R146: the load latency of a layer. -/
def loadL (layer : Nat) : Nat :=
  match layer with
  | 0 => 6
  | 1 => 26
  | 2 => 38
  | 3 => 52
  | _ => 118

/-- D of R146: the access point of a layer. -/
def loadD (layer : Nat) : Nat := loadL layer - 3

/-- 2^DIV − 1 cycles for a line of a retimed bus group (R341). -/
def State.retime (s : State) (l : Loc) : Nat :=
  if l.layer = 0 then 0
  else
    let t := ((s.col l.colIx).busTiming[(l.layer - 1) % 4]'(by exact Nat.mod_lt _ (by decide))).toNat
    let d := fld 9 8 t
    let groups := if l.layer = 1 then 16 else if l.layer = 4 then 2 else 8
    let bank := if l.layer = 4 then fld 30 26 l.off else fld 15 8 l.off
    if d ≠ 0 ∧ bank % groups = fld 6 0 t / 8 then 2 ^ d - 1 else 0

/-! ### Layer 0 lines and bank credits -/

/-- The physical bank of a layer 0 offset, 16 × G + BANK (R57). -/
def l0Bank (off : Nat) : Nat := 16 * fld 20 19 off + fld 11 8 off

/-- The bank group of a layer 0 offset (R57). -/
def l0Group (off : Nat) : Nat := fld 20 19 off

/-- The shares of a budget register (R60). -/
def budgetShares (v : Word) : Vector Nat 5 :=
  #v[fld 6 0 v.toNat, fld 14 8 v.toNat, fld 22 16 v.toNat, fld 30 24 v.toNat, fld 38 32 v.toNat]

/-- The class of the largest credit among those requesting, ties to the lower number; none when none has credit. -/
def creditBest (c : Credit) : List (Fin 5) → Option (Fin 5)
  | [] => none
  | g :: rest =>
    match creditBest c rest with
    | none => if 0 < c.credit[g.val] then some g else none
    | some h => if c.credit[h.val] ≤ c.credit[g.val] ∧ 0 < c.credit[g.val] then some g else some h

/-- The grant of R60 in one cycle to the classes requesting a bank, in ascending order. -/
def bankGrant (c : Credit) (req : List (Fin 5)) : Option (Fin 5) × Credit :=
  match req with
  | [] => (none, c)
  | g0 :: _ =>
    match creditBest c req with
    | some g => (some g, { c with credit := c.credit.set g.val (c.credit[g.val] - 1) })
    | none =>
      let g := ((req.filter fun r => decide (c.lend.val ≤ r.val)).head?).getD g0
      (some g, { c with lend := g + 1 })

/-- The credits of a bank of a core in this period. -/
def Core.creditAt (k : Core) (bank : Nat) : Credit :=
  (k.credits.find bank).getD
    { credit := budgetShares (k.budgetNow[bank / 16 % 4]'(Nat.mod_lt _ (by decide))), lend := 0 }

/-- The distinct lines of a list of layer 0 offsets. -/
def linesOf (offs : List Nat) : List Nat := (offs.map (· / 256)).eraseDups

/-- The largest number of the lines listed that lie in one bank, and at least 1 (c of R207 and R233). -/
def readSpan (lines : List Nat) : Nat :=
  let banks := lines.map fun l => l0Bank (l * 256)
  max 1 (banks.eraseDups.foldl (fun m b => max m (banks.count b)) 0)

/-! ### Capacity, power and rows -/

/-- The full capacity of a slice or of a core's layer 0 (R17, R62, R65). -/
def fullSlice (layer : Nat) (stores : Bool) : Nat :=
  match layer with
  | 0 => 2 ^ 21
  | 1 => 2 ^ 27
  | 2 => 2 ^ 28
  | 3 => 2 ^ 28
  | _ => if stores then 2013265920 else 2 ^ 31

/-- Whether a layer of a die is powered (R66). -/
def State.layerOn (s : State) (d : DieIx) (layer : Nat) : Bool :=
  match layer with
  | 2 => (s.die d).on[0]
  | 3 => (s.die d).on[1]
  | _ => true

/-- The column that a task started in cycle t sees the die's stores in (R62, R347). -/
def Die.storesFor (k : Die) (t : Nat) : Nat :=
  match k.storesSeen.find? fun x => decide (x.1 ≤ t) with
  | some x => x.2
  | none => 7

/-- LAYERCAP.SLICE of a column as a task started in cycle `t` sees it (R65, R66, R344, R345). -/
def State.sliceCap (s : State) (c : ColIx) (layer : Nat) (t : Nat) : Nat :=
  if layer = 0 then 2 ^ 21
  else if !(s.layerOn (colDie c) layer) then 0
  else
    let sl := s.slice c (Fin.ofNat 4 (layer - 1))
    let gone := match sl.condemned with
      | some k => decide (k ≤ t)
      | none => false
    if gone || sl.retired then 0
    else fullSlice layer ((s.die (colDie c)).storesFor t == c.val % 8)

/-- A slice that has been retired since a task which started at t came to see it (R345). -/
def Slice.cut (x : Slice) (t : Nat) : Bool :=
  x.retired && (match x.condemned with
    | some k => decide (t < k)
    | none => false)

def State.sliceCut (s : State) (c : ColIx) (layer t : Nat) : Bool :=
  layer != 0 && (s.slice c (Fin.ofNat 4 (layer - 1))).cut t

/-- The view of a task that started at t, before the recovery point of each slice condemned since (R344): what the words
that run on after its boundary see (R346). -/
def State.beforeRecovery (s : State) (t : Nat) : State :=
  if s.cols.any fun k => k.2.slices.toList.any fun x => x.cut t then
    let cols : Store Column := s.cols.map fun (k : Nat × Column) =>
      (k.1, { k.2 with slices := k.2.slices.map fun x => if x.cut t then { x with retired := false } else x })
    { s with cols }
  else s

/-- The DRAM-layer bank and row of an offset (R62). -/
def dramBankOf (off : Nat) : Fin 32 := Fin.ofNat 32 (fld 30 26 off)
def dramRowOf (off : Nat) : Nat := fld 25 11 off

/-- Whether the row an offset of a DRAM-layer slice addresses is open (R63, R349). -/
def State.rowOpen (s : State) (c : ColIx) (off : Nat) : Bool :=
  (s.dram c (dramBankOf off)).row == some (dramRowOf off)

/-- Banks 30 and 31 of the column that holds the die's stores (R62, R329, R347). -/
def State.reservedBank (s : State) (l : Loc) : Bool :=
  l.layer == 4 && (s.die (Fin.ofNat 4 l.die)).storesCol == l.col && decide (30 ≤ (dramBankOf l.off).val)

/-- The code an access of n bytes at a place raises before it reads: outside the capacity its task sees, or a layer
that is not powered (0x0802). -/
def State.capFault (s : State) (l : Loc) (n : Nat) (t : Nat) : Option (BitVec 16) :=
  if s.sliceCap l.colIx l.layer t < l.off + n then some 0x0802 else none

/-! ### Errors in stored data -/

/-- Bytes of a granule at a key (R335). -/
def granuleSize (k : Nat) : Nat :=
  match spaceOf k with
  | .tower _ 4 _ => 16
  | _ => 8

def granuleOf (k : Nat) : Nat := k - k % granuleSize k

/-- The granules that n bytes from k overlap. -/
def granulesOf (k n : Nat) : List Nat :=
  match n with
  | 0 => []
  | n => ((List.range n).map fun i => granuleOf (k + i)).eraseDups

/-- A counter field of a register one higher, saturating (R335, R340). -/
def bumpField (hi lo : Nat) (v : Word) : Word :=
  let f := fld hi lo v.toNat
  if f = 2 ^ (hi + 1 - lo) - 1 then v else v + BitVec.ofNat 64 (2 ^ lo)

/-- An error in a package's far memory is counted in FARECC (R335). -/
def State.countFar (s : State) (pkg : Nat) (uncorr : Bool) : State :=
  s.modBridge fun b =>
    let v := b.farEcc.get 0 pkg
    { b with farEcc := b.farEcc.put pkg (if uncorr then bumpField 63 32 v else bumpField 31 0 v) }

/-- A read finds an error at a granule: it is counted where R335 says, in far memory by the bridge. -/
def State.eccNow (s : State) (k : Nat) (uncorr : Bool) : State :=
  match spaceOf k with
  | .l0 core _ =>
    s.modCol (coreCol (Fin.ofNat 256 core)) fun c =>
      let v := c.busTiming[0]
      { c with busTiming := c.busTiming.set 0 (if uncorr then bumpField 15 10 v else bumpField 55 48 v) }
  | .tower col layer _ =>
    let i : Fin 4 := Fin.ofNat 4 (layer - 1)
    s.modCol (Fin.ofNat 32 col) fun c =>
      let v := c.busTiming[i.val]
      { c with busTiming := c.busTiming.set i.val (if uncorr then bumpField 63 56 v else bumpField 47 32 v) }
  | .far _ _ _ => if s.isBridge then s.countFar s.pkg.num uncorr else s.send 0 (.ecc uncorr)
  | _ => s

/-- An error that a read has found is counted at the end of the cycle, in what is written to its register by then (R198). -/
def State.countEcc (s : State) (k : Nat) (uncorr : Bool) : State := s.schedule s.now rankRefresh (.ecc k uncorr)

/-- Buses of a slice (R340). -/
def busCount (layer : Nat) : Nat := if layer = 1 then 128 else if layer = 4 then 16 else 64

/-- The bank of a slice that an offset lies in (R61, R62). -/
def sliceBank (layer off : Nat) : Nat := if layer = 4 then fld 30 26 off else fld 15 8 off

/-- The column that is to hold a die's stores: the highest whose DRAM-layer slice is not condemned (R347). -/
def State.newStores (s : State) (d : DieIx) : Nat :=
  match ((List.range 8).reverse).find? fun k => (s.slice (Fin.ofNat 32 (8 * d.val + k)) 3).condemned.isNone with
  | some k => k
  | none => (s.die d).storesCol

/-- The tasks that start from this cycle see the die's stores where they are to be (R347). -/
def State.announceStores (s : State) (d : DieIx) : State :=
  let k := s.newStores d
  if (s.die d).storesFor s.now = k then s else s.modDie d fun x => { x with storesSeen := (s.now, k) :: x.storesSeen }

/-- The slice is condemned in this cycle (R344): every task that starts from now on sees it absent; g is the granule
whose read condemned it. -/
def State.condemn (s : State) (c : ColIx) (l : Fin 4) (g : Nat) : State :=
  if (s.slice c l).condemned.isSome then s
  else
    let s1 := s.modSlice c l fun x => { x with condemned := some s.now }
    let s2 := if l.val = 3 then s1.announceStores (colDie c) else s1
    (s2.report (colDie c) 0x0E02 (s.keyAddr g)).after 1 rankUnit (.sliceRetired c l)

/-- A bus must be retimed (R342): to half rate, then to quarter rate; a second bus, or a third time, condemns the
slice. No repair is made in a condemned slice (R344). -/
def State.retimeBus (s : State) (c : ColIx) (l : Fin 4) (bus g : Nat) : State :=
  if (s.slice c l).condemned.isSome then s else
  let v := (s.col c).busTiming[l.val]
  let d := fld 9 8 v.toNat
  if d = 0 ∨ (d = 1 ∧ fld 6 0 v.toNat = bus) then
    let v' := (v &&& ~~~(BitVec.ofNat 64 0x37F)) ||| BitVec.ofNat 64 (bus % 128 + (d + 1) * 256)
    s.modCol c fun k => { k with busTiming := k.busTiming.set l.val v' }
  else s.condemn c l g

/-- Talon banks of a slice in use (R340). -/
def State.talonUsed (s : State) (c : ColIx) (l : Fin 4) : Nat := fld 27 24 ((s.col c).busTiming[l.val]).toNat

/-- Whether a slice's talon is empty (R340): every talon bank holds a bank's lines or is being written with them. -/
def State.talonEmpty (s : State) (c : ColIx) (l : Fin 4) : Bool :=
  let busy := ((s.slice c l).held.filter fun e => decide (e.1 < 1000)).length
  decide ((if l.val = 3 then 1 else 8) ≤ s.talonUsed c l + busy)

/-- The bank of a granule must be replaced from the talon (R342): with the talon empty the slice is condemned in the same
cycle (R379). -/
def State.needTalon (s : State) (c : ColIx) (l : Fin 4) (g : Nat) : State :=
  if (s.slice c l).condemned.isSome then s
  else if s.talonEmpty c l then s.condemn c l g
  else s.after 1 rankRefresh (.talonReplacement c l g)

/-- Errors of this window of the lanes of a bus (R342). -/
def busErrors (x : Slice) (bus : Nat) : List Nat :=
  (x.laneErr.filter fun e => e.1 / 128 == bus).map (·.2)

/-- A read has found an error at a granule: the conditions of R342, on which firmware acts unless the host repairs. -/
def State.noteRepair (s : State) (g : Nat) (e : Latent) : State :=
  let act (s : State) (f : State → State) : State := if bitAt 1 s.pkg.modes.toNat then s else f s
  match spaceOf g with
  | .tower col layer off =>
    let c : ColIx := Fin.ofNat 32 col
    let l : Fin 4 := Fin.ofNat 4 (layer - 1)
    let bank := sliceBank layer off
    if e.uncorr then act s fun s => s.needTalon c l g
    else match e.lane with
      | some n =>
        let m := (s.slice c l).laneErr.get 0 n + 1
        let s1 := s.modSlice c l fun x => { x with laneErr := x.laneErr.put n m }
        let bus := n / 128
        let all := busErrors (s1.slice c l) bus
        if m = 4 then act s1 fun s => s.after 1 rankRefresh (.laneReplacement c l bus g)
        else if all.foldl (· + ·) 0 = 16 ∧ all.all (· < 4) = true then act s1 fun s => s.retimeBus c l bus g
        else s1
      | none =>
        let m := (s.slice c l).bankErr.get 0 bank + 1
        let s1 := s.modSlice c l fun x => { x with bankErr := x.bankErr.put bank m }
        if m = 16 then act s1 fun s => s.needTalon c l g else s1
  | .l0 core off =>
    let k : CoreIx := Fin.ofNat 256 core
    let bank := l0Bank off
    let m := (s.core k).bankErr.get 0 bank + 1
    let s1 := if e.uncorr then s else s.modCore k fun x => { x with bankErr := x.bankErr.put bank m }
    if e.uncorr ∨ (m = 16 ∧ e.lane = none) then act s1 fun s => s.after 0 rankDealer (.coreWithdrawn k) else s1
  | _ => s

/-- A read of the granule g: a latent correctable error is counted and its rewrite is due within 64 cycles (R336); an
uncorrectable one poisons the granule (R337). -/
def State.readGranule (s : State) (g : Nat) : State :=
  match s.latent.find g with
  | none => s
  | some e =>
    let s1 := (s.countEcc g e.uncorr).noteRepair g e
    if e.uncorr then { s1 with poison := (s1.poison.erase g) ++ [g], latent := s1.latent.del g }
    else s1.after 64 rankMemory (.correctedRewrite g)

/-- A read of n bytes from k, as R335 to R337 have it act on the store. -/
def State.noteRead (s : State) (k n : Nat) : State :=
  if s.latent.isEmpty then s else s.each (granulesOf k n) State.readGranule

/-- A read of the places listed, each granule once (R335 to R337). -/
def State.noteReads (s : State) (l : List (Nat × Nat)) : State :=
  if s.latent.isEmpty then s else s.each (l.flatMap fun x => granulesOf x.1 x.2).eraseDups State.readGranule

/-- The lowest poisoned granule that n bytes from k overlap. -/
def State.poisonIn (s : State) (k n : Nat) : Option Nat :=
  if s.poison.isEmpty then none else (granulesOf k n).find? fun g => s.poison.contains g

/-- n bytes from k, as a number. -/
def State.read (s : State) (k n : Nat) : Nat := memRead s.mem k n

/-- A write of n bytes at k: a granule covered whole is good again, one covered in part stays as it was (R337); the
rewrite of a corrected granule is cancelled (R336). -/
def State.clearErrors (s : State) (k n : Nat) : State :=
  if s.poison.isEmpty && s.latent.isEmpty then s
  else
    let gs := granulesOf k n
    let whole := gs.filter fun g => decide (k ≤ g ∧ g + granuleSize g ≤ k + n)
    { s with
      poison := s.poison.filter fun g => !(whole.contains g)
      latent := s.latent.filter fun e => !(whole.contains e.1 || (gs.contains e.1 && !e.2.uncorr)) }

/-- The n low bytes of v are written at k. -/
def State.write (s : State) (k n v : Nat) : State :=
  let s' := s.clearErrors k n
  { s' with mem := memWrite s'.mem k n v }

def State.writeBytes (s : State) (k : Nat) (bs : List Byte) : State :=
  let s' := s.clearErrors k bs.length
  { s' with mem := memPutBytes s'.mem k bs }

/-- Bytes moved to their keys, each with whether its source granule is poisoned (R337): a granule covered whole is good
again, unless a poisoned source granule overlaps it; a granule a poisoned byte falls in is poisoned. -/
def State.writeCells (s : State) (l : List (Nat × Byte × Bool)) : State :=
  let mem := l.foldl (fun m c => memPut m c.1 c.2.1) s.mem
  let bad := (l.filter fun c => c.2.2).map fun c => granuleOf c.1
  if s.poison.isEmpty && s.latent.isEmpty && bad.isEmpty then { s with mem }
  else
    let covered := l.map (·.1)
    let whole (g : Nat) : Bool := (List.range (granuleSize g)).all fun i => covered.contains (g + i)
    let kept := s.poison.filter fun g => !(whole g)
    { s with
      mem
      poison := kept ++ (bad.eraseDups.filter fun g => !(kept.contains g))
      latent := s.latent.filter fun e =>
        !(whole e.1) && (e.2.uncorr || !((List.range (granuleSize e.1)).any fun i => covered.contains (e.1 + i))) }

/-- Every granule that n bytes at k overlap becomes poisoned (R337). -/
def State.poisonAt (s : State) (k n : Nat) : State :=
  { s with poison := s.poison ++ ((granulesOf k n).filter fun g => !(s.poison.contains g)) }

/-! ### Waits for a refresh or a repair -/

/-- The bus group of a bank of a layer (R341). -/
def busGroup (layer bank : Nat) : Nat := bank % (if layer = 1 then 16 else if layer = 4 then 2 else 8)

/-- The first cycle from which an access to a key is not held by a forced refresh (R64) or a repair (R343). -/
def State.busyUntil (s : State) (k : Nat) : Nat :=
  match spaceOf k with
  | .tower col layer off =>
    let c : ColIx := Fin.ofNat 32 col
    let x := s.slice c (Fin.ofNat 4 (layer - 1))
    let bank := sliceBank layer off
    let r := if layer = 4 then (s.dram c (dramBankOf off)).busy else 0
    max r (max (x.held.get 0 bank) (x.held.get 0 (1000 + busGroup layer bank)))
  | _ => 0

/-! ### Translation -/

/-- What a translation finds. -/
inductive Walk where
  /-- the physical address -/
  | pa (k : Nat)
  /-- the page is not resident; its leaf's frame -/
  | absent (frame : Nat)
  /-- a fault of class 0x06 or 0x07 -/
  | fault (code : BitVec 16)
  deriving DecidableEq, Repr

/-- Whether the reserved fields of a physical address are zero, so that it names a target of R74. -/
def frameOk (pa : Nat) : Bool :=
  bitAt 51 pa || (if bitAt 44 pa then fld 43 40 pa == 0 && decide (1 ≤ fld 34 32 pa) && decide (fld 34 32 pa ≤ 4) && !(bitAt 31 pa)
    else fld 43 40 pa == 0)

/-- Bytes of far memory of a die of this package, sixteen channels of FEATURES.FARCAP (R25, R305). -/
def State.farRoom (s : State) : Nat := 2 ^ (36 + fld 5 4 s.pkg.features.toNat)

/-- The key of a physical address, none when it names no target: a reserved field is not zero, or its byte lies beyond the
far memory that the package's channels carry. -/
def State.place (s : State) (pa : Nat) : Option Nat :=
  if !(frameOk pa) then none
  else
    let k := s.pkgKey pa
    match spaceOf k with
    | .far 0 _ b => if b < s.farRoom then some k else none
    | _ => some k

/-- The package other than this one in which a key lies, as its key numbers it. -/
def remoteKey (k : Nat) : Option Nat :=
  match spaceOf k with
  | .far p _ _ => if p = 0 then none else some p
  | .otherTower p => some p
  | _ => none

/-- The package to which an access to a key travels, when it is not this one: the one whose memory it is, or the bridge, for
host memory (R74, R304). -/
def State.awayPkg (s : State) (k : Nat) : Option Nat :=
  match spaceOf k with
  | .host _ => if s.isBridge then none else some 0
  | _ => (remoteKey k).map s.pkgOfKey

/-- A page table entry: one in another package's memory is what that package holds there. -/
def State.entryAt (s : State) (k : Nat) : Nat :=
  match remoteKey k with
  | some _ => (Config.otherEntry (s.pkgKey k)).toNat
  | none => memRead s.mem k 8

/-- A leaf that a walk ended at: its entry's key, its value, and the bytes of its page. -/
structure Leaf where
  key : Nat
  pte : Nat
  size : Nat
  deriving DecidableEq, Repr

def pteFrame (v : Nat) : Nat := fld 51 12 v * 4096

/-- Whether the sixteen entries of a 64 KiB page agree as R75 requires. -/
def State.contigOk (s : State) (key : Nat) : Bool :=
  let base := key - key % 128
  let e0 := s.entryAt base
  pteFrame e0 % 65536 == 0 && (List.range 16).all fun i =>
    let e := s.entryAt (base + 8 * i)
    bitAt 3 e && bitAt 0 e == bitAt 0 e0 && bitAt 1 e == bitAt 1 e0 && pteFrame e == pteFrame e0 + 4096 * i

/-- The walk from the table at the physical address `table`, level `level` (R75, R351): a leaf, an absent page, or a fault.
An entry of level 1 with P = 0 is an absent page whatever its LEAF bit, and whatever its group of 64 KiB holds: DESIGN
CHOICE, log entry 112. -/
def State.walkFrom (s : State) (va : Nat) : Nat → Nat → Except Walk Leaf
  | 0, _ => .error (.fault 0x0603)
  | level + 1, table =>
    match s.place (table + 8 * (va / 2 ^ (12 + 9 * level) % 512)) with
    | none => .error (.fault 0x0603)
    | some key =>
      let e := s.entryAt key
      let leaf := bitAt 2 e
      if fld 11 6 e ≠ 0 ∨ fld 63 52 e ≠ 0 then .error (.fault 0x0603)
      else if (leaf && decide (3 ≤ level)) || (!leaf && level == 0 && bitAt 0 e) then .error (.fault 0x0603)
      else if !(bitAt 0 e) then .error (.absent (pteFrame e))
      else if (s.place (pteFrame e)).isNone then .error (.fault 0x0603)
      else if leaf then
        (if level = 0 ∧ bitAt 3 e = true then
          (if s.contigOk key then .ok ⟨key, e, 4096⟩ else .error (.fault 0x0603))
        else .ok ⟨key, e, 2 ^ (12 + 9 * level)⟩)
      else s.walkFrom va level (pteFrame e)

/-- The engine that a translation is for: its core and queue. A service of the package has none, and walks every time. -/
abbrev TlbUser := Option (CoreIx × Fin 13)

/-- The numbers of the buffers that an engine's translations pass: its stream buffer and its core's second level (R76). The
buffers of control contexts hold nothing, for control cores reach no virtual address (R56). -/
def tlbIds (who : TlbUser) : List (Nat × Nat) :=
  match who with
  | none => []
  | some (c, q) => [(256 + 13 * c.val + q.val, 16), (c.val, 1024)]

/-- The translation that a list holds for a virtual address, for a write only one that a write filled (R75). -/
def tlbIn (l : List Tlb) (va : Nat) (wr : Bool) : Option Tlb :=
  l.find? fun t => va / t.size * t.size == t.va && (!wr || t.w)

/-- The translation held for a virtual address in the first of the buffers that has one. -/
def Package.tlbFind (p : Package) (who : TlbUser) (va : Nat) (wr : Bool) : Option Tlb :=
  (tlbIds who).findSome? fun b => tlbIn (p.tlbs.get [] b.1) va wr

/-- A translation enters each of the buffers that does not hold it; the oldest of a full buffer leaves it: DESIGN CHOICE, log
entry 15. -/
def Package.tlbFill (p : Package) (who : TlbUser) (t : Tlb) : Package :=
  { p with
    tlbs := (tlbIds who).foldl (fun m b =>
      let l := m.get [] b.1
      if l.contains t then m else m.put b.1 ((if b.2 ≤ l.length then l.drop 1 else l) ++ [t])) p.tlbs }

/-- The translation of a virtual address for a read or a write, with the state in which a walk has set A and D and
filled the buffers (R75, R76, R353). A frame of a large page is taken aligned down to its page: DESIGN CHOICE, log entry
113. -/
def State.translate (s : State) (who : TlbUser) (va : Nat) (wr : Bool) : Walk × State :=
  let key (t : Tlb) : Walk := match s.place (t.frame + va % t.size) with
    | some k => .pa k
    | none => .fault 0x0603
  if 2 ^ 57 ≤ va then (.fault 0x0701, s)
  else match s.pkg.tlbFind who va wr with
    | some t => (key t, s.modPkg fun p => p.tlbFill who t)
    | none =>
      match s.walkFrom va 5 (fld 51 12 s.pkg.ptbase.toNat * 4096) with
      | .error w => (w, s)
      | .ok l =>
        if wr && !(bitAt 1 l.pte) then (.fault 0x0602, s)
        else
          let e := l.pte ||| 16 ||| (if wr then 32 else 0)
          let t : Tlb := ⟨va / l.size * l.size, l.size, pteFrame l.pte - pteFrame l.pte % l.size, wr && bitAt 1 l.pte⟩
          let s' :=
            if e = l.pte then s
            else match remoteKey l.key with
              | some p => s.send (s.pkgOfKey p) (.write (s.pkgKey l.key) ((List.range 8).map fun i => (BitVec.ofNat 8 (e / 2 ^ (8 * i)), false)))
              | none => s.write l.key 8 e
          (key t, s'.modPkg fun p => p.tlbFill who t)

end Sys2Proof.Machine
end

