-- ==== Sys2Proof/Machine/Weight.lean ====
section
/-! DEFINITION. Weight on its way between a requester and the root of its scope (R120, R121). -/

namespace Sys2Proof.Machine

open Sys2Proof

/-- Cycles between two dealers of the package. -/
def dealerWay (a b : DieIx) : Nat := if a = b then 2 else 24

/-- u units return from a die to the root of their scope; to another package they are held until a route leads there (R121,
R374). -/
def State.returnWeight (s : State) (d : DieIx) (sc : Option ScopeRef) (u : Nat) : State :=
  match sc with
  | none => s
  | some r =>
    if u = 0 then s
    else if r.pkg = s.pkg.num then s.schedule (s.now + dealerWay d r.die) rankDealer (.ev (.weightReturn r.die r.s u))
    else s.send r.pkg (.weight r.die r.s u)

/-- u units return n cycles from now. -/
def State.returnLater (s : State) (n : Nat) (d : DieIx) (sc : Option ScopeRef) (u : Nat) : State :=
  match sc with
  | none => s
  | some r =>
    if u = 0 ∨ r.pkg ≠ s.pkg.num then s.returnWeight d sc u
    else s.schedule (s.now + n + dealerWay d r.die) rankDealer (.ev (.weightReturn r.die r.s u))

/-- A Borrow, n cycles from now: the root's debit follows the need by the way to it. -/
def State.borrow (s : State) (n : Nat) (r : ScopeRef) (need : WeightNeed) : State :=
  if r.pkg = s.pkg.num then
    s.schedule (s.now + n + dealerWay need.die r.die) rankDealer (.ev (.borrowDebit r.die r.s need none))
  else s.send r.pkg (.borrow r.die r.s need)

/-- A scope of this package. -/
def State.ownScope (s : State) (d : DieIx) (i : Fin 16) : ScopeRef := { pkg := s.pkg.num, die := d, s := i }

/-- The weight of a task, changed. -/
def Image.modWeight (m : Image) (f : Nat → Nat) : Image := { m with task := m.task.map fun t => { t with weight := f t.weight } }

/-- A word that may be a detached item, which holds a unit of weight from its issue (R120): a copy command, or a barrier
signal or future resolution, which is one when it goes to another die. -/
def itemWord (i : Instr) : Bool :=
  match i with
  | .xLd1 _ _ _ | .xSt1 _ _ _ | .xLd2 _ _ _ | .xSt2 _ _ _ | .xLd3 _ _ _ | .xSt3 _ _ _ | .xLd4 _ _ _ | .xSt4 _ _ _
  | .xFst _ _ _ | .xFld _ _ _ _ _ | .xCp1 _ _ | .xCp2 _ _ | .xCp3 _ _ | .xCp4 _ _ | .sSig _ _ | .sFres _ _ => true
  | _ => false

/-- The last word of the queue in focus, changed. -/
def State.modLast (s : State) (q : Fin 13) (f : EngWord → EngWord) : State :=
  s.modCur fun m => m.modEq q s.focus.ctx fun e =>
    { e with words := e.words.dropLast ++ (e.words.getLast?.map f).toList }

/-- The word that has been issued to a queue takes a unit of its task's weight, and when that is its last, or the task has
none, a Borrow is made for it (R120, R121). -/
def State.takeUnit (s : State) (q : Fin 13) (i : Instr) : State :=
  match if itemWord i then s.cur.task else none with
  | none => s
  | some t =>
    match t.scope with
    | none => s
    | some r =>
      if 2 ≤ t.weight then
        (s.modLast q fun w => { w with item := some r }).modCur fun m => m.modWeight fun n => n - 1
      else
        (s.modLast q fun w => { w with owed := true }).borrow 0 r
          (.item (coreDie s.focus.core) s.focus.core s.focus.bank
            { tid := t.tid, q, ctx := ixCtx s.focus.ctx, push := none, mpc := 0 })

end Sys2Proof.Machine
end

