-- ==== Sys2Proof/Machine/Ops.lean ====
section
/-! DEFINITION. The named operations of a core: its registers and their pending writes (R79, R88, R90, R182), its
queue registers (R86, R87), its engine queues (R82 to R85), the raising of a fault and its two routes (R316 to R318,
R322), taking a fault or an event into the trap stream (R320), and the return from it (R321). -/

namespace Sys2Proof.Machine

open Sys2Proof

/-! ### Launch blocks (R99) -/

/-- Bits hi..lo of double word i of a launch block. -/
def blkFld (blk : List Word) (i hi lo : Nat) : Nat := fld hi lo (blk.getD i 0).toNat

def blkProg (b : List Word) : Word := b.getD 0 0
def blkImgLen (b : List Word) : Nat := blkFld b 1 31 0
def blkSlotMap (b : List Word) : Nat := blkFld b 1 55 32
def blkClass (b : List Word) : Nat := blkFld b 1 57 56
def blkGroups (b : List Word) : Nat := blkFld b 2 23 0
def blkGang (b : List Word) : Bool := blkFld b 2 24 24 == 1
def blkReplay (b : List Word) : Bool := blkFld b 2 25 25 == 1
def blkReload (b : List Word) : Bool := blkFld b 2 26 26 == 1
def blkTvec (b : List Word) : Nat := blkFld b 2 46 32
def blkL0Base (b : List Word) : Nat := blkFld b 3 24 16 * 4096
def blkL0Size (b : List Word) : Nat := blkFld b 3 41 32 * 4096
def blkWeight (b : List Word) : Nat := (b.getD 4 0).toNat
def blkSched (b : List Word) : Word := b.getD 5 0
def blkDoneNext (b : List Word) : Word := b.getD 6 0
def blkDoneBar (b : List Word) : Word := b.getD 7 0
def blkWait (b : List Word) (i : Nat) : Word := b.getD (8 + i) 0
def blkArg (b : List Word) (i : Nat) : Word := b.getD (12 + i) 0

/-- The launch block of the task an image holds; all zero when it holds none. -/
def Image.blk (m : Image) : List Word :=
  match m.task with
  | some t => t.blk
  | none => []

def Image.tid (m : Image) : Nat :=
  match m.task with
  | some t => t.tid
  | none => 0

/-- Whether an image's task is one of the system tasks of R197 and R322. -/
def Image.system (m : Image) : Bool :=
  match m.task with
  | some t => t.system
  | none => false

/-! ### Registers -/

/-- The physical register of a name (R90). -/
def physG (rot : BitVec 4) (n : Fin 32) : Fin 32 :=
  if n.val < 16 then n else Fin.ofNat 32 (16 + (n.val - 16 + rot.toNat) % 16)

/-- G(n) of R182: g0 reads zero; in the trap stream g1–g15 are the shadow copies (R320). -/
def Context.readG (c : Context) (n : Fin 32) : Word :=
  if n.val = 0 then 0
  else match c.shadow with
    | some h => if h16 : n.val < 16 then h.g[n.val] else c.g[(physG c.rot n).val]
    | none => c.g[(physG c.rot n).val]

/-- P(n) of R182: p0 reads 1; in the trap stream p1–p7 are the shadow copies (R320). -/
def Context.readP (c : Context) (n : Fin 16) : Bool :=
  if n.val = 0 then true
  else match c.shadow with
    | some h => if n.val < 8 then h.p.getLsbD n.val else c.p.getLsbD n.val
    | none => c.p.getLsbD n.val

/-- A g register as the context in focus reads it. -/
def State.g (s : State) (n : Fin 32) : Word := s.cx.readG n
def State.p (s : State) (n : Fin 16) : Bool := s.cx.readP n

/-- A result that lands in `l` cycles (R88, R182). -/
def State.pendWrite (s : State) (file idx : Nat) (v : Word) (l : Nat) (shadow : Bool) : State :=
  s.modCur fun m =>
    { m with pend := m.pend ++ [{ ctx := s.focus.ctx, file, idx, val := v, due := m.cyc + l, shadow, born := s.now }] }

/-- Put of R182: gn receives v at i + l, bound to the physical or shadow register its name denotes at issue; nothing
when n = 0. -/
def State.put (s : State) (n : Fin 32) (v : Word) (l : Nat) : State :=
  if n.val = 0 then s
  else s.pendWrite 0 (physG s.cx.rot n).val v l (s.cx.shadow.isSome && decide (n.val < 16))

/-- PutP of R182: pn receives b at i + 1; nothing when n = 0. -/
def State.putP (s : State) (n : Fin 16) (b : Bool) : State :=
  if n.val = 0 then s
  else s.pendWrite 1 n.val (if b then 1 else 0) 1 (s.cx.shadow.isSome && decide (n.val < 8))

/-- The register a pending write names, written. -/
def Context.land (c : Context) (w : PendWrite) : Context :=
  match w.file with
  | 0 =>
    if w.shadow then
      match c.shadow with
      | some h => { c with shadow := some { h with g := h.g.set (w.idx % 16) w.val (Nat.mod_lt _ (by decide)) } }
      | none => c
    else { c with g := c.g.set (w.idx % 32) w.val (Nat.mod_lt _ (by decide)) }
  | 1 =>
    let put (p : BitVec 16) : BitVec 16 :=
      if w.val = 0 then p &&& ~~~(BitVec.ofNat 16 (2 ^ w.idx)) else p ||| BitVec.ofNat 16 (2 ^ w.idx)
    if w.shadow then
      match c.shadow with
      | some h => { c with shadow := some { h with p := put h.p } }
      | none => c
    else { c with p := put c.p }
  | 2 => { c with lc := w.val.setWidth 32 }
  | 3 => { c with ec := w.val.setWidth 32 }
  | _ => { c with rot := w.val.setWidth 4 }

/-- Every pending write due by the current task cycle lands, oldest issue first, so that the later-issued result of
one cycle stands (R88). -/
def Image.landDue (m : Image) : Image :=
  let now := m.pend.filter fun w => decide (w.due ≤ m.cyc)
  let m' := now.foldl (fun m w => m.modCtx w.ctx fun c => c.land w) m
  { m' with pend := m.pend.filter fun w => decide (m.cyc < w.due) }

/-- PC moves past a word of `n` entries (R182). -/
def State.advance (s : State) (n : Nat) : State := s.modCx fun c => { c with pc := c.pc + BitVec.ofNat 15 (4 * n) }

/-- The word at a byte address of the bank's half of the overlay memory. -/
def Bank.wordAt (b : Bank) (pc : Nat) : Word32 := b.overlay.getD (pc / 4) 0

/-- The context stays blocked in this slot (R83). -/
def State.block (s : State) : State := s.modCx fun c => { c with blocked := true }

/-! ### Queue registers -/

/-- Entries a queue register holds (R86). -/
def qDepth (q : Fin 16) : Nat := if q.val < 12 then 8 else if q.val = 14 then 16 else 32

/-- The entries of a queue register, head first; q15 is the context's own IQ. -/
def Image.queue (m : Image) (c : Fin 3) (q : Fin 16) : List Word :=
  if h : q.val < 15 then m.q[q.val] else m.ctx[c.val].iq

def Image.setQueue (m : Image) (c : Fin 3) (q : Fin 16) (l : List Word) : Image :=
  if h : q.val < 15 then { m with q := m.q.set q.val l } else m.modCtx c fun x => { x with iq := l }

def Image.full (m : Image) (c : Fin 3) (q : Fin 16) : Bool := decide (qDepth q ≤ (m.queue c q).length)
def Image.pushQ (m : Image) (c : Fin 3) (q : Fin 16) (v : Word) : Image := m.setQueue c q (m.queue c q ++ [v])
def Image.dropQ (m : Image) (c : Fin 3) (q : Fin 16) (n : Nat) : Image := m.setQueue c q ((m.queue c q).drop n)

/-! ### Engine queues -/

/-- The queue of an XFER slot (R84, R247). -/
def xferQueue (op : Nat) : Fin 13 :=
  if op ≤ 4 then 5 else if op ≤ 7 then 6 else if op ≤ 10 then 7 else if op ≤ 16 then 8 else if op ≤ 18 then 9
  else if op ≤ 21 then 10 else 5

/-- The head word of an instruction, the bits of an unassigned word as they are. -/
def headWord (i : Instr) : Nat :=
  match i with
  | .unassignedWord w => w.toNat
  | i => encodeNat i

/-- The engine queue an instruction is steered to by ENG and, in XFER, by its opcode (R84). -/
def queueOf (i : Instr) : Fin 13 :=
  let w := headWord i
  match fld 31 29 w with
  | 5 => xferQueue (fld 28 23 w)
  | 6 => 11
  | 7 => 12
  | e => Fin.ofNat 13 e

/-- Entries an instruction occupies (R84, R166): an extension word has one of its own. -/
def instrLen (i : Instr) : Nat :=
  match i with
  | .unassignedWord w => if takesExt w then 2 else 1
  | i => (encode i).length

/-- Entries taken of a per-context queue: the word its engine has started has freed its own (R83). -/
def EngQueue.used (q : EngQueue) : Nat :=
  let left : List EngWord := match q.cur with
    | some _ => q.words.drop 1
    | none => q.words
  left.foldl (fun n w => n + w.len) 0

/-- Whether a per-context queue of 16 entries has room for a word (R83, R84). -/
def EngQueue.room (q : EngQueue) (n : Nat) : Bool := decide (q.used + n ≤ 16)

/-- The word in focus is placed at the tail of its engine queue, tagged with its context, and PC passes it; or its
context blocks, the queue lacking room (R82, R83). -/
def State.enqueueAs (s : State) (q : Fin 13) (i : Instr) : State :=
  let n := instrLen i
  if (s.cur.eqAt q s.focus.ctx).room n then
    let w : EngWord :=
      { tid := s.cur.tid, instr := i, pc := s.cx.pc, len := n, trap := s.cx.shadow.isSome, born := s.now
        view := s.cur.startedAt, kept := none, item := none, owed := false }
    let s' := s.modCur fun m => m.modEq q s.focus.ctx fun e => { e with words := e.words ++ [w] }
    ((s'.modCx fun c => { c with blocked := false }).advance n).takeUnit q i
  else s.block

/-- The issue of an engine word: its predicate is evaluated, and a word whose predicate is 0 is discarded (R82). -/
def State.issueWord (s : State) (p : Pred) (i : Instr) : State :=
  if s.p p then s.enqueueAs (queueOf i) i
  else (s.modCx fun c => { c with blocked := false }).advance (instrLen i)

/-- An engine word of the program: issued by its context, or performed by its engine once started (R82, R85). -/
def engineWord (s : State) (p : Pred) (i : Instr) (perform : State → State) : Out :=
  match s.focus.role with
  | .issue => .next (s.issueWord p i)
  | _ => .next (perform s)

/-- The issue of a CTRL word: with predicate 0 it only advances PC; else its body acts, the context not blocked (R82,
R182). -/
def ctrlWord (s : State) (p : Pred) (n : Nat) (body : State → State) : Out :=
  let s0 := s.modCx fun c => { c with blocked := false }
  if s.p p then .next (body s0) else .next (s0.advance n)

/-- The word of the engine in focus is performed: it leaves its queue, and the engine is free of it (R148). -/
def Image.finish (m : Image) (q : Fin 13) (c : Fin 3) : Image :=
  let m' := m.modEq q c fun e => { words := e.words.drop 1, cur := ((e.words.drop 1).head?).bind fun w => w.kept }
  m'.modEng q fun e => { e with act := if e.act = some c then none else e.act }

def State.finish (s : State) : State := s.modCur fun m => m.finish s.focus.q s.focus.ctx

/-- The engine in focus may start its next word `n` cycles from now, while the word in focus goes on. -/
def State.freeEngine (s : State) (n : Nat) : State :=
  s.modCur fun m => m.modEng s.focus.q fun e => { e with free := m.cyc + n, act := none }

/-! ### Answers (R268) -/

/-- The answer of a started word reaches its queue: it is pushed when its result queue has room, else held. -/
def Image.answer (m : Image) (q : Fin 13) (c : Fin 3) (push : Option (Fin 16)) (vals : List Word) : Image :=
  match push with
  | none => m.finish q c
  | some r =>
    if (m.queue c r).length + vals.length ≤ qDepth r ∨ m.queue c r = [] then
      (vals.foldl (fun m v => m.pushQ c r v) m).finish q c
    else
      match vals with
      | [] => m.finish q c
      | v :: rest =>
        if m.full c r then
          m.modEq q c fun e => { e with cur := e.cur.map fun k => { k with waiting := false, answer := some vals } }
        else
          (m.pushQ c r v).modEq q c fun e =>
            { e with cur := e.cur.map fun k => { k with waiting := false, answer := some rest } }

/-- The answer of a started word is ready: one that pushes pushes it when the engines push, in this cycle if its queue has
room then (R87, R268); one that does not is performed. -/
def Image.ready (m : Image) (q : Fin 13) (c : Fin 3) (push : Option (Fin 16)) (vals : List Word) : Image :=
  if push.isNone then m.finish q c
  else m.modEq q c fun e => { e with cur := e.cur.map fun k => { k with waiting := false, answer := some vals } }

/-! ### Faults -/

/-- The user classes of R318. -/
def userClass (code : BitVec 16) : Bool :=
  let c := code.toNat / 256
  (decide (1 ≤ c ∧ c ≤ 5)) || c == 0x0B || c == 0x0D

/-- The trap entry of a task: TVEC when it is not zero, else the image's TRAPENT (R318). -/
def Bank.trapEntry (b : Bank) : Nat :=
  let t := blkTvec b.img.blk
  if t ≠ 0 then t else fld 14 0 (b.wordAt 12).toNat

/-- The system route (R322): the record is kept with the task, and the dealer is asked to stop it. -/
def State.systemRoute (s : State) (core : CoreIx) (bank : BankIx) (ctx : Nat) (q mpc : Nat) (pc : Nat)
    (code : BitVec 16) (addr : Word) : State :=
  let r := s.faultRec code ctx q mpc pc addr (s.img core bank).task core.val
  if reportOnly code then s.toRing (coreDie core) r
  else
    (s.modImg core bank fun m => { m with sysFault := some (m.sysFault.getD r) }).after 0 rankStop
      (.taskStop core bank (.fault code))

/-- A fault is raised against a context's word in queue q (R316 to R318): it takes the user route when R318's four
conditions hold, else the system route. -/
def State.raiseAt (s : State) (core : CoreIx) (bank : BankIx) (ctx : Fin 3) (q : Fin 13) (mpc : Nat) (pc : BitVec 15)
    (trap : Bool) (code : BitVec 16) (addr : Word) : State :=
  let b := s.bank core bank
  let c := b.img.ctx[ctx.val]
  let user := userClass code && !c.ended && b.trapEntry != 0 && !trap
  let f : QFault := { q, code, addr, mpc, pc, raised := b.img.cyc, taken := false, user }
  let held := if reportOnly code then s else s.modImg core bank fun m => m.modCtx ctx fun c => { c with faults := c.faults ++ [f] }
  if user then held
  else held.systemRoute core bank ctx.val q.val mpc (if q.val = 0 then pc.toNat else c.pc.toNat) code addr

/-- The address a fault gives, or the free value of a fault that concerns no address, with the state past it. -/
def State.faultAddr (s : State) (addr : Option Word) : Word × State :=
  match addr with
  | some a => (a, s)
  | none => (Config.freeAddr s.free, { s with free := s.free + 1 })

/-- A CTRL word faults at issue: it has no effect and PC stays on it (R316). -/
def State.ctrlFault (s : State) (code : BitVec 16) (addr : Option Word) : State :=
  let (a, s') := s.faultAddr addr
  s'.raiseAt s.focus.core s.focus.bank s.focus.ctx 0 0 s.cx.pc s.cx.shadow.isSome code a

/-- The started word in focus faults at its micro-PC (R316): its engine lets go of it and passes its queue over
(R317). A word that runs on after its task's boundary (R97) has no task to stop: its fault is recorded with CTX 3 and the
word leaves its queue. -/
def State.engineFault (s : State) (code : BitVec 16) (addr : Option Word) : State :=
  let (a, s0) := s.faultAddr addr
  match s.curQ.words with
  | [] => s0
  | w :: _ =>
    let s' := s0.modCur fun m =>
      m.modEng s.focus.q fun e =>
        { e with act := if e.act = some s.focus.ctx then none else e.act, free := max e.free (m.cyc + 1) }
    if w.tid ≠ s.cur.tid then
      (s'.toRing (coreDie s.focus.core)
        (s.faultRec code 3 s.focus.q.val s.prog.mpc 0 a none s.focus.core.val)).modCur fun m =>
          m.finish s.focus.q s.focus.ctx
    else s'.raiseAt s.focus.core s.focus.bank s.focus.ctx s.focus.q s.prog.mpc w.pc w.trap code a

/-- Whether queue q of a context has an unresolved fault (R317). -/
def Context.faulted (c : Context) (q : Fin 13) : Bool := c.faults.any fun f => f.q == q

/-! ### Taking a fault or an event, and the return (R320, R321, R284) -/

/-- A context enters its trap stream: its block is cleared, g1–g15, p1–p7 and PC are copied to the shadow registers,
the trap registers are set, and PC is at the trap entry (R319, R320). -/
def Context.enterTrap (c : Context) (cyc : Nat) (entry : Nat) (code : Word) (mpc : Nat) (addr : Word)
    (pc : BitVec 15) : Context :=
  { c with
    blocked := false
    shadow := some { g := c.g.extract 0 16, p := c.p }
    trapCode := code
    trapPc := pc.setWidth 64
    trapMpc := BitVec.ofNat 64 (mpc % 2 ^ 32)
    trapAddr := addr
    trapOpen := cyc
    pc := BitVec.ofNat 15 entry }

/-- The next fault a context takes: CTRL first, then in ascending queue index; one raised before this cycle (R320,
R321). -/
def Context.nextFault (c : Context) (cyc : Nat) : Option QFault :=
  let l := c.faults.filter fun f => f.user && !f.taken && decide (f.raised < cyc)
  l.foldl (fun best f => match best with
    | none => some f
    | some b => if f.q.val < b.q.val then some f else some b) none

/-- Faults are taken before events (R321); a context in its trap stream takes none (R284). -/
def Bank.takeTrap (b : Bank) (ctx : Fin 3) : Bank :=
  let m := b.img
  let c := m.ctx[ctx.val]
  if c.shadow.isSome then b
  else match c.nextFault m.cyc with
    | some f =>
      let code := BitVec.ofNat 64 (f.code.toNat + f.q.val * 2 ^ 24)
      let pc := if f.q.val = 0 then f.pc else c.pc
      let c' := c.enterTrap m.cyc b.trapEntry code f.mpc f.addr pc
      let fs := c.faults.map fun x => if x = f then { x with taken := true } else x
      { b with img := m.modCtx ctx fun _ => { c' with faults := fs } }
    | none =>
      match c.events with
      | [] => b
      | e :: rest =>
        let c' := c.enterTrap m.cyc b.trapEntry e.code 0 e.addr c.pc
        let n := if e.code = 2 then c.notes - 1 else c.notes
        { b with img := m.modCtx ctx fun _ => { c' with events := rest, notes := n } }

/-- ACTION of TRAPCODE (R319); 3 acts as 2. -/
def trapAction (code : Word) : Nat := min 2 (fld 17 16 code.toNat)

/-- `uret` (R201, R321): the context returns to its own registers, pending writes of the trap stream to shadow
registers are discarded, and PC is taken from TRAPPC. -/
def Image.leaveTrap (m : Image) (ctx : Fin 3) : Image :=
  let m' := m.modCtx ctx fun c => { c with shadow := none, pc := c.trapPc.setWidth 15, blocked := false }
  { m' with pend := m'.pend.filter fun w => !(w.ctx = ctx && w.shadow) }

end Sys2Proof.Machine
end

