-- ==== Sys2Proof/Machine/Flags.lean ====
section
/-! DEFINITION. The status register VSTATUS (R39): how flags are raised and cleared. -/

namespace Sys2Proof.Machine

open Sys2Proof

/-- The flags raised by a micro-step are set; a flag set stays set (R39). -/
def Context.raise (c : Context) (f : Flags) : Context := { c with vstatus := c.vstatus ||| f.setWidth 64 }

/-- A write to VSTATUS: a 1 clears its bit (W1C of R7); bits [63:6] read zero. -/
def Context.clearFlags (c : Context) (v : Word) : Context := { c with vstatus := c.vstatus &&& ~~~v &&& 0x3F }

/-- The flags of an element list, together. -/
def orFlags (l : List Flags) : Flags := l.foldl (· ||| ·) 0

end Sys2Proof.Machine
end

