-- ==== Sys2Proof/Machine/Operands.lean ====
section
/-! DEFINITION. The operand forms that words share: signed immediates and branch targets (R165, R167), the address of
a scalar access and what it must satisfy (R55, R190, R329), region words and their elements (R168, R204, R32), tile
words (R225, R226), shape descriptors (R67), command and dimension entries (R250), and sync names (R100). -/

namespace Sys2Proof.Machine

open Sys2Proof

/-! ### Addresses -/

/-- The code of an address where only a generic one is accepted: malformed 0x0701, virtual 0x0702 (R354). -/
def notGeneric (a : Word) : BitVec 16 := if fld 63 57 a.toNat ≠ 0 then 0x0701 else 0x0702

/-- A generic address as a place, or the code of class 0x07 it raises (R354). -/
def genericLoc (core : CoreIx) (a : Word) : Except (BitVec 16) Loc :=
  if !(isGeneric a) then .error (notGeneric a)
  else match locOf core a with
    | none => .error 0x0701
    | some l => .ok l

/-- The place a scalar access of n bytes names, or the code it raises at issue, in the order in which R329 lists
them. -/
def State.scalarLoc (s : State) (core : CoreIx) (a : Word) (n t : Nat) : Except (BitVec 16) Loc :=
  if a.toNat % n ≠ 0 then .error 0x0301
  else match genericLoc core a with
    | .error c => .error c
    | .ok l =>
      if s.reservedBank l then .error 0x0703
      else match s.capFault l n t with
        | some c => .error c
        | none => .ok l

/-- A branch's target: the word at a + 4 × OFF19 (R167), or none when it is not a multiple of 4 below IMGLEN − 4
(R329). -/
def branchTarget (pc : BitVec 15) (o : BitVec 19) (imgLen : Nat) : Option Nat :=
  let t := (pc.toNat : Int) + 4 * o.toInt
  if 0 ≤ t ∧ t % 4 = 0 ∧ t < (imgLen : Int) - 4 then some t.toNat else none

/-! ### Regions of VE, RE and SA -/

/-- A region word (R168). -/
structure Region where
  base : Nat
  stride : Int
  count : Nat
  ty : ElemType
  deriving DecidableEq, Repr

def regionOf (w : Word) : Region :=
  let v := w.toNat
  { base := fld 20 0 v, stride := (BitVec.ofNat 16 (fld 39 24 v)).toInt, count := fld 55 40 v,
    ty := ElemType.ofCode (fld 59 56 v) }

/-- The fields of a region word that must be zero are (R168). -/
def regionZeros (w : Word) : Bool := fld 23 21 w.toNat == 0 && fld 63 60 w.toNat == 0

/-- The first byte and the first bit in it of element k of a packed MX row (R32). -/
def mxPlace (t : ElemType) (k : Nat) : Nat × Nat :=
  match t with
  | .mx4 => (k / 2, 4 * (k % 2))
  | .mx6 => (3 * (k / 4) + 6 * (k % 4) / 8, 6 * (k % 4) % 8)
  | _ => (k, 0)

/-- The layer 0 offset of the first byte of element k of a region, which may lie outside layer 0 (R204). -/
def Region.offset (r : Region) (k : Nat) : Int :=
  if r.ty.isMx then (r.base : Int) + ((mxPlace r.ty k).1 : Nat)
  else (r.base : Int) + (k : Int) * r.stride * (r.ty.bytes : Nat)

/-- The bytes from its first byte that an element occupies. -/
def Region.elemBytes (r : Region) (k : Nat) : Nat :=
  if r.ty.isMx then ((mxPlace r.ty k).2 + r.ty.bits + 7) / 8 else r.ty.bytes

/-- An element lies below 2 MiB (R204). -/
def Region.inside (r : Region) (k : Nat) : Bool :=
  decide (0 ≤ r.offset k ∧ r.offset k + (r.elemBytes k : Nat) ≤ (2 ^ 21 : Nat))

/-- BASE is a multiple of the element size; an MX region has STRIDE 1, whole blocks and BASE a multiple of 8
(R204). -/
def Region.aligned (r : Region) : Bool :=
  if r.ty.isMx then r.stride == 1 && r.count % 32 == 0 && r.base % 8 == 0 else r.base % r.ty.bytes == 0

/-- The code of element k of a region in a core's layer 0. -/
def State.elem (s : State) (core : CoreIx) (r : Region) (k : Nat) : Nat :=
  let v := s.read (keyL0 core.val (r.offset k).toNat) (r.elemBytes k)
  if r.ty.isMx then v / 2 ^ (mxPlace r.ty k).2 % 2 ^ r.ty.bits else v

/-- The bytes that writing a code to element k changes, each under its mask. -/
def Region.writes (r : Region) (k code : Nat) : List ByteWrite :=
  let sh := if r.ty.isMx then (mxPlace r.ty k).2 else 0
  let v := code % 2 ^ r.ty.bits * 2 ^ sh
  let mask := (2 ^ r.ty.bits - 1) * 2 ^ sh
  (List.range (r.elemBytes k)).map fun i =>
    { off := (r.offset k).toNat + i, val := v / 2 ^ (8 * i) % 256, mask := mask / 2 ^ (8 * i) % 256 }

/-- The LOCAL form of a layer 0 offset (R319). -/
def localAddr (off : Int) : Word := BitVec.ofInt 64 (0xF * 2 ^ 60 + off)

/-- Byte writes performed on a core's layer 0, in order. -/
def State.writeL0 (s : State) (core : CoreIx) (ws : List ByteWrite) : State :=
  let mem := ws.foldl (fun m w =>
    let k := keyL0 core.val w.off
    let old := (memGet m k).toNat
    memPut m k (BitVec.ofNat 8 ((old &&& (255 - w.mask)) ||| (w.val &&& w.mask)))) s.mem
  let covered := ws.map fun w => keyL0 core.val w.off
  if s.poison.isEmpty && s.latent.isEmpty then { s with mem }
  else
    { s with
      mem
      poison := s.poison.filter fun g => !((List.range (granuleSize g)).all fun i => covered.contains (g + i))
      latent := s.latent.filter fun e =>
        !((List.range (granuleSize e.1)).all fun i => covered.contains (e.1 + i)) &&
          (e.2.uncorr || !((List.range (granuleSize e.1)).any fun i => covered.contains (e.1 + i))) }

/-! ### Tiles of ME -/

/-- A tile word (R225). -/
structure Tile2 where
  base : Nat
  pitch : Nat
  rows : Nat
  cols : Nat
  deriving DecidableEq, Repr

def tileOf (w : Word) : Tile2 :=
  let v := w.toNat
  { base := fld 20 0 v, pitch := fld 39 24 v, rows := fld 45 40 v, cols := fld 55 46 v }

/-- The offset of element (i, k) of a tile of a type, and its first bit (R226). -/
def Tile2.place (t : Tile2) (ty : ElemType) (i k : Nat) : Nat × Nat :=
  if ty.isMx then (t.base + i * t.pitch + (mxPlace ty k).1, (mxPlace ty k).2)
  else (t.base + i * t.pitch + k * ty.bytes, 0)

/-- The code of element (i, k) of a tile in a core's layer 0. -/
def State.tileElem (s : State) (core : CoreIx) (t : Tile2) (ty : ElemType) (i k : Nat) : Nat :=
  let (o, b) := t.place ty i k
  s.read (keyL0 core.val o) ((b + ty.bits + 7) / 8) / 2 ^ b % 2 ^ ty.bits

/-- The bytes of one row of `n` elements of a type. -/
def rowBytes (ty : ElemType) (n : Nat) : Nat := (n * ty.bits + 7) / 8

/-! ### Shape descriptors (R67) -/

/-- A shape slot's fields; a slot holds the 64 bytes of its descriptor. -/
structure ShapeView where
  base : Word
  dim : List Nat
  stride : List Int
  fill : Nat
  rank : Nat
  ty : ElemType
  layer : Nat
  deriving DecidableEq, Repr

def shapeOf (d : BitVec 512) : ShapeView :=
  let v := d.toNat
  let ctrl := v / 2 ^ (8 * 62) % 2 ^ 16
  { base := BitVec.ofNat 64 v
    dim := (List.range 5).map fun i => v / 2 ^ (8 * (8 + 4 * i)) % 2 ^ 32
    stride := (List.range 5).map fun i => (BitVec.ofNat 48 (v / 2 ^ (8 * (28 + 6 * i)))).toInt
    fill := v / 2 ^ (8 * 58) % 2 ^ 32
    rank := fld 2 0 ctrl
    ty := ElemType.ofCode (fld 6 3 ctrl)
    layer := fld 9 7 ctrl }

/-- The pattern of a fill element of a type (R67). -/
def fillCode (ty : ElemType) (fill : Nat) : Nat :=
  match ty with
  | .i64 => intCode 64 (intOf true 32 fill)
  | t => fill % 2 ^ t.bits

/-! ### Entries and names -/

/-- The barrier that a command entry names, as the sync name's bits [22:0] (R250). -/
def cmdBar (c : Word) : Word := BitVec.ofNat 64 (fld 22 0 c.toNat)
def cmdFill (c : Word) : Bool := bitAt 32 c.toNat

/-- KIND of a sync name (R100). -/
def nameKind (n : Word) : Nat := fld 1 0 n.toNat
def namePkg (n : Word) : Nat := fld 7 2 n.toNat
def nameDie (n : Word) : DieIx := Fin.ofNat 4 (fld 9 8 n.toNat)
def nameCol (n : Word) : Nat := fld 12 10 n.toNat
/-- The column a name's barrier or future lies in, 8 × die + column. -/
def nameColIx (n : Word) : ColIx := Fin.ofNat 32 (8 * (nameDie n).val + nameCol n)
def nameIndex (n : Word) : Nat := fld 22 13 n.toNat
/-- The layer of a future's word: layer 1 or the DRAM layer. -/
def nameLayer (n : Word) : Nat := if bitAt 13 n.toNat then 4 else 1
def nameOffset (n : Word) : Nat := fld 41 14 n.toNat * 8
/-- The key of a future's word. -/
def nameKey (n : Word) : Nat := keyTower (nameColIx n).val (nameLayer n) (nameOffset n)

/-- The bits of a sync name that R100 requires to be zero are. -/
def nameZeros (n : Word) : Bool :=
  match nameKind n with
  | 1 => fld 63 23 n.toNat == 0
  | 2 => fld 63 42 n.toNat == 0
  | 0 => n.toNat == 0
  | _ => false

/-- The barrier of a column by its sync name, but for the package. -/
def barName (col : ColIx) (ix : Nat) : Word :=
  BitVec.ofNat 64 (1 + (col.val / 8) * 2 ^ 8 + (col.val % 8) * 2 ^ 10 + ix * 2 ^ 13)

end Sys2Proof.Machine
end

