-- ==== Sys2Proof/Machine/SysReg.lean ====
section
/-! DEFINITION. The system registers (R197 to R200): what a read of each returns, what a write of each does, the values
that no field takes (R330), and the bridge's view of them (R304). -/

namespace Sys2Proof.Machine

open Sys2Proof

/-! ### Time -/

/-- Group time in nanoseconds in a cycle, as the clock now runs (R26, R307): its value at its last setting and the cycles
since, 4/9 ns each (R4), and what it has been slewed by since, at most 1 µs per ms (R377). -/
def State.nsAt (s : State) (cycle : Nat) : Nat :=
  let c := s.pkg.clock
  let e := (cycle - c.at?) * 4 / 9
  let t : Int := c.sec.toNat * 1000000000 + c.ns.toNat + e
  let n : Int := min c.slew.natAbs (min (Config.slewed e) (e / 1000))
  (t + if c.slew < 0 then -n else n).toNat

def State.groupNs (s : State) : Nat := s.nsAt s.now

/-- A cycle after now, no later than the first in which group time is a multiple of `u` nanoseconds, and that cycle itself
while the clock is not slewed. -/
def State.nextMultiple (s : State) (u : Nat) : Nat :=
  let c := s.pkg.clock
  let t := s.groupNs
  let left := (t / u + 1) * u - t
  if c.slew = 0 then
    max (s.now + 1) (c.at? + (((t / u + 1) * u - (c.sec.toNat * 1000000000 + c.ns.toNat)) * 9 + 3) / 4)
  else s.now + max 1 (left * 9 / 4 * 1000 / 1002)

/-- Group time has come to a multiple of `u` nanoseconds in this cycle, as far as a slewed clock can tell: an act that was
due no later then (`nextMultiple`) waits for it. -/
def State.atMultiple (s : State) (u : Nat) : Bool :=
  s.pkg.clock.slew == 0 || s.nsAt (s.now - 1) / u != s.groupNs / u

/-- The period of what is due at multiples of group time (R311, R312). -/
def timedPeriod (a : Act) : Option Nat :=
  match a with
  | .ev .tokenPeriod => some 1000
  | .ev (.thermalManagerAction _) => some 100000
  | _ => none

/-- What is due at multiples of group time is due anew, once that time has changed: now, when it is such a multiple. -/
def State.retimed (s : State) : State :=
  let due (u : Nat) : Nat := if s.groupNs % u = 0 then s.now else s.nextMultiple u
  { s with
    agenda := s.agenda.foldl (fun l e => match timedPeriod e.act with
      | some u => agendaAdd { e with due := due u } l
      | none => l) (s.agenda.filter fun e => (timedPeriod e.act).isNone) }

/-- The clock is set to a time of now. -/
def State.setTime (s : State) (sec : BitVec 48) (ns : BitVec 32) : State :=
  (s.modPkg fun p => { p with clock := { p.clock with sec, ns, at? := s.now, slew := 0 } }).retimed

/-! ### Field masks -/

/-- The bits [hi:lo]. -/
def bitsMask (hi lo : Nat) : Nat := (2 ^ (hi + 1 - lo) - 1) * 2 ^ lo

/-- A write under the mask of a register's RW fields; the other bits are as they were (R7). -/
def maskIn (old new : Word) (mask : Nat) : Word :=
  (old &&& ~~~(BitVec.ofNat 64 mask)) ||| (new &&& BitVec.ofNat 64 mask)

def bit64 (b : Bool) (n : Nat) : Nat := if b then 2 ^ n else 0

/-! ### Who may write, and what -/

/-- Registers that only the system writes (R197). -/
def sysOnly (n : Nat) : Bool :=
  n == 0x020 || n == 0x022 || (decide (0x029 ≤ n ∧ n ≤ 0x02C)) || n == 0x02E || (decide (0x040 ≤ n ∧ n ≤ 0x043)) ||
    (decide (0x202 ≤ n ∧ n ≤ 0x207)) || n == 0x209 || n == 0x20A || n == 0x20B || n == 0x20C

/-- A value that a register's map forbids (R330). -/
def sysForbidden (n : Nat) (v : Word) : Bool :=
  let w := v.toNat
  match n with
  | 0x014 | 0x015 | 0x016 | 0x017 =>
    decide (64 < fld 6 0 w + fld 14 8 w + fld 22 16 w + fld 30 24 w + fld 38 32 w)
  | 0x022 => fld 11 0 w == 0 || decide (2250 < fld 11 0 w)
  | 0x029 | 0x02A | 0x02B | 0x02C => fld 9 8 w == 3
  | 0x043 => fld 19 0 w == 0
  | 0x202 => fld 17 16 w == 3
  | 0x204 | 0x205 => fld 7 0 w == 0 || decide (200 < fld 7 0 w)
  | 0x209 => decide (6 ≤ fld 2 0 w)
  | 0x20C => fld 9 0 w == 0 || decide (1000 < fld 9 0 w) || decide (fld 19 16 w < 8)
  | _ => false

/-- The scope of a register: cycles from issue to its access point, and its read latency (R198). -/
def sysScope (n : Nat) : Nat × Nat :=
  if n < 0x010 then (0, 1) else if n < 0x020 then (2, 4) else if n < 0x040 then (4, 8)
  else if n < 0x200 then (14, 28) else (20, 40)

/-! ### Reads -/

/-- LAYERCAP of a layer as a task started in cycle t reads it in a column (R65, R344). -/
def State.layerCap (s : State) (c : ColIx) (layer t : Nat) : Word :=
  let d := colDie c
  let die := (List.range 8).foldl (fun a k => a + s.sliceCap (Fin.ofNat 32 (8 * d.val + k)) layer t) 0
  let waking := match layer with
    | 2 => (s.die d).waking[0].isSome
    | 3 => (s.die d).waking[1].isSome
    | _ => false
  BitVec.ofNat 64 (s.sliceCap c layer t + die / 2 ^ 20 * 2 ^ 32 + bit64 (s.layerOn d layer) 48 + bit64 waking 49)

/-- BUSTIMING of a layer's slice (R340): the stored fields, and those the repair state gives. -/
def State.busTimingReg (s : State) (c : ColIx) (l : Fin 4) : Word :=
  let sl := s.slice c l
  let v := maskIn (s.col c).busTiming[l.val] 0 (bitsMask 31 28 + bitsMask 23 16)
  v + BitVec.ofNat 64 (sl.spares.length % 256 * 2 ^ 16 + bit64 sl.condemned.isSome 28 + bit64 sl.retired 29)

/-- THERMALLOW of a column (R311). -/
def State.thermalReg (s : State) (c : ColIx) : Word :=
  let k := s.col c
  maskIn 0 k.thermal (bitsMask 12 0) +
    BitVec.ofNat 64 ((List.finRange 5).foldl (fun a j => a + k.temps[j.val] % 256 * 2 ^ (16 + 8 * j.val)) 0)

/-- MODES as it acts: without ENABLED.HWMIG, hardware mode of page faults acts as host-assisted mode (R306). -/
def State.modesNow (s : State) : Word := if bitAt 3 s.pkg.enabled.toNat then s.pkg.modes else s.pkg.modes ||| 1

/-- Save slots not assigned (R114): a slot reserved for a filler counts as assigned (R123). -/
def State.slotsFree (s : State) (d : DieIx) : Nat :=
  let k := s.die d
  fld 15 0 k.saveCount.toNat - (k.saved.filter fun x => x.slot.isSome).length - (k.fillers.filter fun x => x.slot.isSome).length

def Scope.quiet (x : Scope) : Bool := x.opened && x.kitty + x.ret == 2 ^ 63 && x.borrows == 0

def State.scope (s : State) (d : DieIx) (i : Nat) : Scope := (s.die d).scopes.get Scope.reset i

/-- QSTAT (R119). -/
def Scope.stat (x : Scope) : Word :=
  BitVec.ofNat 64 (bit64 x.opened 0 + bit64 x.quiet 1 + x.borrows % 65536 * 2 ^ 8)

/-- FEATURES[0] (R305): LINKUP from the ports, GROUP from enumeration. -/
def State.featuresReg (s : State) : Word :=
  maskIn s.pkg.features 0 (bitsMask 37 20) + BitVec.ofNat 64 ((s.pkg.group - 1) % 64 * 2 ^ 32) +
    BitVec.ofNat 64 ((List.range 12).foldl (fun a n =>
      a + bit64 (s.pkg.ports.get PortState.reset n).trained (20 + n)) 0)

/-- An access that has been translated and not yet performed, with its source: the lines of FS that are to be written, and an
update on its way to its home. -/
def Event.translated : Event → List (Nat × Nat)
  | .copyCompletion _ _ q _ (.land word cells) => if q = 9 then cells.map fun c => (word, c.1 / 256) else []
  | .copyCompletion _ _ q _ (.put word cells) => if q = 9 then cells.map fun c => (word, c.1 / 256) else []
  | .saHomeUpdate u => if isGeneric u.addr || u.old.isSome then [] else [(u.tid, u.key)]
  | _ => []

/-- The translated accesses under way: those due, those that wait for a line, and the updates sent to other packages. -/
def State.translated (s : State) : List (Nat × Nat) :=
  let ask (r : LineReq) : List (Nat × Nat) := match r.who with
    | .unit e => e.translated
    | _ => []
  (s.agenda.flatMap fun x => match x.act with
    | .ev e => e.translated
    | _ => []) ++
  (s.cores.flatMap fun k => k.2.reqs.flatMap ask) ++
  (s.cols.flatMap fun k => k.2.slices.toList.flatMap fun x => x.reqs.flatMap ask) ++
  (s.pkg.away.flatMap fun u => (Event.saHomeUpdate u).translated)

/-- The older generations whose accesses are not all performed. -/
def State.olderNow (s : State) : List (Word × List (Nat × Nat)) :=
  if s.pkg.older.isEmpty then []
  else
    let now := s.translated
    s.pkg.older.filter fun x => x.2.any now.contains

/-- What TGEN reads: a generation is seen once every access translated under an older one has been performed (R353); log
entry 123. -/
def State.tgenSeen (s : State) : Word :=
  match s.olderNow with
  | [] => s.pkg.tgen
  | x :: _ => x.1 - 1

/-- The value a read of a core-, column-, die- or package-scoped register returns to core `c` at its access point, for
a task started in cycle `t` (R198). A field that is written only reads zero. -/
def State.sysRead (s : State) (c : CoreIx) (t n : Nat) : Word :=
  let col := s.col (coreCol c)
  let d := coreDie c
  let die := s.die d
  match n with
  | 0x010 => BitVec.ofNat 64 s.now
  | 0x011 => 1
  | 0x014 => (s.core c).budget[0]
  | 0x015 => (s.core c).budget[1]
  | 0x016 => (s.core c).budget[2]
  | 0x017 => (s.core c).budget[3]
  | 0x020 => col.refwin
  | 0x021 => col.rfstall
  | 0x022 => s.thermalReg (coreCol c)
  | 0x024 => s.layerCap (coreCol c) 1 t
  | 0x025 => s.layerCap (coreCol c) 2 t
  | 0x026 => s.layerCap (coreCol c) 3 t
  | 0x027 => s.layerCap (coreCol c) 4 t
  | 0x029 => s.busTimingReg (coreCol c) 0
  | 0x02A => s.busTimingReg (coreCol c) 1
  | 0x02B => s.busTimingReg (coreCol c) 2
  | 0x02C => s.busTimingReg (coreCol c) 3
  | 0x02E => col.lostsig
  | 0x040 => die.allocBase
  | 0x041 => die.saveBase
  | 0x042 => maskIn 0 die.saveCount (bitsMask 15 0) + BitVec.ofNat 64 (s.slotsFree d % 65536 * 2 ^ 16)
  | 0x043 => die.fillwait
  | 0x200 => s.featuresReg
  | 0x202 => s.pkg.enabled
  | 0x203 => s.pkg.modes
  | 0x204 => s.pkg.rampUp
  | 0x205 => s.pkg.rampDown
  | 0x206 => s.pkg.ptbase
  | 0x208 => s.tgenSeen
  | 0x209 => s.pkg.pfblock
  | 0x20A => s.pkg.pfthresh
  | 0x20B => s.pkg.telebase
  | 0x20C => s.pkg.telectl
  | n =>
    if 0x100 ≤ n ∧ n < 0x110 then BitVec.ofNat 64 (s.scope d (n - 0x100)).kitty
    else if 0x110 ≤ n ∧ n < 0x120 then BitVec.ofNat 64 (s.scope d (n - 0x110)).ret
    else if 0x120 ≤ n ∧ n < 0x130 then (s.scope d (n - 0x120)).stat
    else 0

/-- The value a read of a context-scoped register returns (R15, R39, R79, R200, R319). -/
def State.ctxRead (s : State) (n : Nat) : Word :=
  let c := s.cx
  match n with
  | 0x000 => BitVec.ofNat 64 (s.focus.core.val + s.pkg.num % 64 * 2 ^ 8 + s.focus.ctx.val * 2 ^ 14)
  | 0x001 => c.lc.setWidth 64
  | 0x002 => c.ec.setWidth 64
  | 0x003 => c.rot.setWidth 64
  | 0x004 => c.vstatus
  | 0x005 => BitVec.ofNat 64 s.cur.taskCycle
  | 0x008 => c.trapCode
  | 0x009 => c.trapPc
  | 0x00A => c.trapMpc
  | 0x00B => c.trapAddr
  | _ => 0

/-! ### Writes -/

/-- The refresh deadlines of a column's banks, counted anew from its REFWIN, from the next cycle on (R64). -/
def State.planRefresh (s : State) (c : ColIx) : State :=
  let w := fld 13 0 (s.col c).refwin.toNat
  let planned (e : Entry) : Bool := match e.act with
    | .ev (.forcedRefresh c' _) => c' == c && decide (s.now < e.due)
    | _ => false
  let banks := (List.finRange 32).filter fun b => s.agenda.any fun e => planned e && e.act == .ev (.forcedRefresh c b)
  let s' := { s with agenda := s.agenda.filter fun e => !(planned e) }
  s'.each banks fun s b =>
    s.schedule (max ((s.dram c b).window + w) (s.now + 1)) rankRefresh (.ev (.forcedRefresh c b))

/-- A write of BANKBUDGET[g] (R60): in force from the next period. -/
def State.writeBudget (s : State) (c : CoreIx) (g : Fin 4) (v : Word) : State :=
  s.modCore c fun k => { k with budget := k.budget.set g.val (maskIn 0 v 0x7F7F7F7F7F) }

/-- A write of REFWIN (R64). -/
def State.writeRefwin (s : State) (c : ColIx) (v : Word) : State :=
  (s.modCol c fun k => { k with refwin := maskIn k.refwin v (bitsMask 13 0) }).planRefresh c

/-- A write of BUSTIMING (R340). -/
def State.writeBusTiming (s : State) (c : ColIx) (l : Fin 4) (v : Word) : State :=
  let m := bitsMask 6 0 + bitsMask 9 8 + bitsMask 47 32 + bitsMask 63 56 +
    (if l.val = 0 then bitsMask 15 10 + bitsMask 55 48 else 0)
  s.modCol c fun k => { k with busTiming := k.busTiming.set l.val (maskIn k.busTiming[l.val] v m) }

/-- A write of ENABLED (R306): the first sets LOCK, and a bit the build lacks stays 0. -/
def State.writeEnabled (s : State) (v : Word) : State :=
  if bitAt 63 s.pkg.enabled.toNat then s
  else
    let f := s.pkg.features.toNat
    let m := 3 + bit64 (bitAt 8 f) 2 + bit64 (bitAt 9 f) 3 + bit64 (bitAt 6 f) 16 + bit64 (bitAt 7 f) 17
    s.modPkg fun p =>
      { p with
        enabled := maskIn 0 v m + BitVec.ofNat 64 (2 ^ 63)
        gov := if bitAt 0 v.toNat then { p.gov with prev := none } else p.gov }

/-- Whether a translation lies in the page that a TLBINV names (R76). -/
def tlbMatch (v : Word) (t : Tlb) : Bool :=
  let size := match fld 58 57 v.toNat with
    | 0 => 2 ^ 12
    | 1 => 2 ^ 16
    | 2 => 2 ^ 21
    | _ => 2 ^ 30
  let va := fld 56 12 v.toNat * 4096 / size * size
  decide (t.va < va + size ∧ va < t.va + t.size)

/-- A write of TLBINV (R76, R353): the matching translations leave every buffer, and TGEN counts it. -/
def State.writeTlbinv (s : State) (v : Word) : State :=
  let older := s.olderNow
  let under := s.translated
  s.modPkg fun p =>
    { p with
      tlbs := p.tlbs.map fun b => (b.1, if bitAt 63 v.toNat then [] else b.2.filter fun t => !(tlbMatch v t))
      tgen := p.tgen + 1
      older := older ++ (if under.isEmpty then [] else [(p.tgen + 1, under)]) }

/-- The governor's account when a rate changes: the window under way is a first one (R309). -/
def Governor.rateChange (g : Governor) (old new : Word) : Governor :=
  if fld 7 0 old.toNat = fld 7 0 new.toNat then g else { g with prev := none }

/-- A write of a core-, column-, die- or package-scoped register at its access point (R197, R198). A forbidden value
changes nothing (R330), and nor does a write to a register or field that is read only (R7). -/
def State.sysWrite (s : State) (c : CoreIx) (n : Nat) (v : Word) : State :=
  let ci := coreCol c
  let d := coreDie c
  if sysForbidden n v then s
  else match n with
  | 0x014 => s.writeBudget c 0 v
  | 0x015 => s.writeBudget c 1 v
  | 0x016 => s.writeBudget c 2 v
  | 0x017 => s.writeBudget c 3 v
  | 0x020 => s.writeRefwin ci v
  | 0x021 => s.modCol ci fun k => { k with rfstall := maskIn k.rfstall v (bitsMask 47 0) }
  | 0x022 => s.modCol ci fun k => { k with thermal := maskIn k.thermal v (bitsMask 12 0) }
  | 0x029 => s.writeBusTiming ci 0 v
  | 0x02A => s.writeBusTiming ci 1 v
  | 0x02B => s.writeBusTiming ci 2 v
  | 0x02C => s.writeBusTiming ci 3 v
  | 0x02E => s.modCol ci fun k => { k with lostsig := maskIn k.lostsig v (bitsMask 41 0) }
  | 0x040 => s.modDie d fun k =>
    { k with allocBase := maskIn k.allocBase v (bitsMask 30 0 + bitsMask 34 32 + bitsMask 63 48) }
  | 0x041 => s.modDie d fun k => { k with saveBase := maskIn k.saveBase v (bitsMask 56 21) }
  | 0x042 => (s.modDie d fun k => { k with saveCount := maskIn k.saveCount v (bitsMask 15 0) }).wantChoice d
  | 0x043 => s.modDie d fun k => { k with fillwait := maskIn k.fillwait v (bitsMask 20 0) }
  | 0x202 => s.writeEnabled v
  | 0x203 => s.modPkg fun p => { p with modes := maskIn p.modes v (bitsMask 5 0) }
  | 0x204 => s.modPkg fun p =>
    { p with
      rampUp := maskIn p.rampUp v (bitsMask 7 0)
      gov := p.gov.rateChange p.rampUp v }
  | 0x205 => s.modPkg fun p =>
    { p with
      rampDown := maskIn p.rampDown v (bitsMask 7 0)
      gov := p.gov.rateChange p.rampDown v }
  | 0x206 => s.modPkg fun p => { p with ptbase := maskIn p.ptbase v (bitsMask 51 12) }
  | 0x207 => s.writeTlbinv v
  | 0x209 => s.modPkg fun p => { p with pfblock := maskIn p.pfblock v (bitsMask 2 0) }
  | 0x20A => s.modPkg fun p => { p with pfthresh := maskIn p.pfthresh v (bitsMask 7 0) }
  | 0x20B => s.modPkg fun p => { p with telebase := maskIn p.telebase v (bitsMask 56 12) }
  | 0x20C => s.modPkg fun p => { p with telectl := maskIn p.telectl v (bitsMask 9 0 + bitsMask 19 16) }
  | _ => s

/-- A write of a context-scoped register: ACTION of TRAPCODE from the trap stream, and the flags of VSTATUS, which a 1
clears (R39, R319). LC, EC and ROT are pending writes of their own (R199). -/
def State.ctxWrite (s : State) (n : Nat) (v : Word) : State :=
  match n with
  | 0x001 => s.pendWrite 2 0 v 1 false
  | 0x002 => s.pendWrite 3 0 v 1 false
  | 0x003 => s.pendWrite 4 0 v 1 false
  | 0x004 => s.modCx fun c => c.clearFlags v
  | 0x008 => s.modCx fun c =>
    if c.shadow.isSome then { c with trapCode := maskIn c.trapCode v (bitsMask 17 16) } else c
  | _ => s

end Sys2Proof.Machine
end

