-- ==== Sys2Proof/Machine/Units.lean ====
section
/-! DEFINITION. The ways between a core, a barrier unit and a dealer (R269), the order in which a barrier unit takes the
operations of one cycle (R274), answers to the words that asked (R268), and the records that only report a word (R367,
R369). -/

namespace Sys2Proof.Machine

open Sys2Proof

/-! ### Distances (R269) -/

/-- Cycles between a core and a column's BU. -/
def buDist (core : CoreIx) (col : ColIx) : Nat :=
  if coreCol core = col then 2 else if coreDie core = colDie col then 6 else 26

/-- Cycles that a count takes beyond its engine's timing to reach a BU (R250). -/
def countExtra (core : CoreIx) (col : ColIx) : Nat :=
  if coreCol core = col then 0 else if coreDie core = colDie col then 4 else 24

/-- Cycles between a core and a dealer. -/
def dealerDist (core : CoreIx) (d : DieIx) : Nat := if coreDie core = d then 2 else 24

/-- Cycles between a dealer and a BU. -/
def dealerBu (d : DieIx) (col : ColIx) : Nat := if d = colDie col then 4 else 26

/-! ### Sources of barrier operations (R274) -/

/-- Where an operation on a barrier comes from. -/
inductive BuSource where
  | posting (core : CoreIx)
  | sync (core : CoreIx)
  | dealer (die : DieIx)
  | port (n : Port)

/-- Its place among the operations of one kind of one cycle. -/
def BuSource.order (x : BuSource) (col : ColIx) : Nat :=
  match x with
  | .posting c => if coreDie c = colDie col then 2 * (c.val % 64) else 129 + (coreDie c).val
  | .sync c => if coreDie c = colDie col then 2 * (c.val % 64) + 1 else 129 + (coreDie c).val
  | .dealer d => if d = colDie col then 128 else 129 + d.val
  | .port n => 140 + n.val

/-- The sync name of a barrier of this package. -/
def State.ownBar (s : State) (col : ColIx) (ix : Nat) : Word := barName col ix + BitVec.ofNat 64 (s.pkg.num % 64 * 4)

/-! ### Words and their answers -/

/-- The task of a name, in its bank or out of its core, with the core it was last on. -/
def State.taskOf (s : State) (tid : Nat) : Option (Task × Nat) :=
  match s.bankOf tid with
  | some (c, b) => (s.img c b).task.map fun t => (t, c.val)
  | none => (s.dies.flatMap fun d => d.2.saved).findSome? fun x => if x.holds tid then some (x.task, 0) else none

/-- A record that only reports, against the word that asked; with CTX 3 when its task has ended (R367, R369). -/
def State.wordRecord (s : State) (die : DieIx) (a : Option Asker) (code : BitVec 16) (addr : Word) : State :=
  match a with
  | none => s.report die code addr
  | some a =>
    match if a.via.isNone then s.taskOf a.tid else none with
    | none => s.toRing die (s.faultRec code 3 a.q.val a.mpc 0 addr none 0)
    | some (t, core) =>
      let pc := match s.bankOf a.tid with
        | some (c, b) => ((s.img c b).ctx[(ctxIx a.ctx).val]).pc.toNat
        | none => 0
      s.toRing die (s.faultRec code (ctxIx a.ctx).val a.q.val a.mpc pc addr (some t) core)

/-- The core of the word that asked; core 0 of the die when its task is out of its core. -/
def State.askerCore (s : State) (a : Asker) : Option CoreIx :=
  if a.via.isNone then (s.bankOf a.tid).map (·.1) else none

/-- The answer to a request, or its refusal, sets out to the word that asked: over its way when the word is here, over
Sprinwell when it is another package's (R269). -/
def State.answerTo (s : State) (n : Nat) (a : Asker) (vals : List Word) (bad : Option (BitVec 16)) : State :=
  match a.via with
  | none => s.schedule (s.now + n) rankAnswer (.ev (.syncAnswer a vals bad))
  | some p => s.send p (.answer { a with via := none } vals bad)

/-- The answer of a BU sets out to the SYNC word that asked (R269); a posting has none. -/
def State.buAnswer (s : State) (col : ColIx) (a : Option Asker) (vals : List Word) : State :=
  match a with
  | none => s
  | some a =>
    if a.q.val = 12 then
      let n := match s.askerCore a with
        | some c => buDist c col
        | none => 2
      s.answerTo n a vals none
    else s

/-- The answer of a dealer sets out to the word that asked (R269). -/
def State.dealerAnswer (s : State) (d : DieIx) (a : Option Asker) (vals : List Word) : State :=
  match a with
  | none => s
  | some a =>
    let n := match s.askerCore a with
      | some c => dealerDist c d
      | none => 2
    s.answerTo n a vals none

/-! ### Operations on their way to a BU -/

/-- The event of an operation on a barrier, with the rank of its kind (R274). -/
def BarOp.event (op : BarOp) (name : Word) : Nat × Event :=
  match op with
  | .arm t c a f k => (rankArm, .barrierArm name t c a f k)
  | .disarm k => (rankArm, .barrierDisarm name k)
  | .count c k => (rankCount, .barrierCount name c k)
  | .wait (.phase a) => (rankArm + 255, .barrierWait name (.phase a))
  | .wait w => (rankWait, .barrierWait name w)

/-- The word an operation comes from. -/
def BarOp.asker (op : BarOp) : Option Asker :=
  match op with
  | .arm _ _ _ _ k => k
  | .disarm k => k
  | .count _ k => k
  | .wait (.wait a) => some a
  | .wait (.status a) => some a
  | .wait (.notify a) => some a
  | .wait _ => none

/-- A word that asks through a packet from a package: it stands in that package, or in the one that the packet names. -/
def State.askerVia (s : State) (p : Nat) (a : Asker) : Asker :=
  let k := a.via.getD p
  { a with via := if k = s.pkg.num then none else some k }

/-- An operation from another package. -/
def State.barVia (s : State) (p : Nat) (op : BarOp) : BarOp :=
  let f (a : Asker) : Asker := s.askerVia p a
  match op with
  | .arm t c a u k => .arm t c a u (k.map f)
  | .disarm k => .disarm (k.map f)
  | .count c k => .count c (k.map f)
  | .wait (.wait a) => .wait (.wait (f a))
  | .wait (.status a) => .wait (.status (f a))
  | .wait (.notify a) => .wait (.notify (f a))
  | .wait (.phase a) => .wait (.phase (f a))
  | .wait (.entry r) => .wait (.entry r)

/-- An operation sets out to the BU of the barrier it names, to arrive in `n` cycles; one for another package travels over
Sprinwell, or is refused when no route leads there (R269, R369, R374). -/
def State.toBu (s : State) (n : Nat) (src : BuSource) (die : DieIx) (name : Word) (op : BarOp) : State :=
  if namePkg name = s.pkg.num then
    let (rank, e) := op.event name
    let order := match op with
      | .wait (.phase _) => 0
      | _ => src.order (nameColIx name)
    s.schedule (s.now + n) (rank + order) (.ev e)
  else if s.reaches (namePkg name) then s.send (namePkg name) (.bar name op)
  else
    let s1 := s.wordRecord die op.asker 0x0902 name
    match op.asker with
    | some a => if a.q.val = 12 then s1.answerTo n a [] none else s1
    | none => s1

/-- The count of an engine of a core reaches the BU `n` cycles from now, and later for a BU of another column (R250);
KIND 0 posts nothing. -/
def State.postCount (s : State) (core : CoreIx) (n : Nat) (name : Word) (c : Nat) (asker : Option Asker) : State :=
  if nameKind name ≠ 1 then s
  else s.toBu (n + countExtra core (nameColIx name)) (.posting core) (coreDie core) name (.count c asker)

/-- A barrier count of the core in focus. -/
def State.sendCount (s : State) (n : Nat) (name : Word) (c : Nat) (asker : Option Asker) : State :=
  s.postCount s.focus.core n name c asker

/-! ### Words of a queue, wherever their task stands -/

/-- The bank in which the head of a queue is a word of a task. -/
def bankWithWord (l : Store Core) (tid : Nat) (q : Fin 13) (c : Fin 3) : Option (CoreIx × BankIx) :=
  match l with
  | [] => none
  | (k, core) :: rest =>
    let has (b : Bank) : Bool := match (b.img.eqAt q c).words with
      | w :: _ => w.tid == tid
      | [] => false
    if has core.banks[0] then some (Fin.ofNat 256 k, 0)
    else if has core.banks[1] then some (Fin.ofNat 256 k, 1)
    else bankWithWord rest tid q c

/-- The image that holds the word that asked, changed. -/
def State.modWord (s : State) (a : Asker) (f : Image → Image) : State :=
  match bankWithWord s.cores a.tid a.q (ctxIx a.ctx) with
  | some (c, b) => s.modImg c b f
  | none => s.modTask a.tid f

/-! ### Detached items (R120, R121) -/

/-- The word in focus is a detached item: it has taken a unit of its task's weight, or one has been granted to it, or it
waits for the grant. The second component says whether it has what it needs. -/
def State.takeItem (s : State) : State × Bool :=
  match s.prog.item, s.curQ.words with
  | none, w :: _ => (s, !w.owed)
  | _, _ => (s, true)

/-- The word in focus is no detached item: its unit goes back to its task, or to the root when the task has ended. -/
def State.dropItem (s : State) : State :=
  match s.prog.item with
  | none => s
  | some r =>
    let s1 := s.setProg { s.prog with item := none }
    if s.wordLive then s1.modCur fun m => m.modWeight fun n => n + 1
    else s1.returnWeight (coreDie s.focus.core) (some r) 1

/-- The detached item of a word that asked is performed at a die: its unit is returned from there. -/
def State.itemDone (s : State) (d : DieIx) (a : Option Asker) : State :=
  match a with
  | none => s
  | some a =>
    match if a.via.isNone then bankWithWord s.cores a.tid a.q (ctxIx a.ctx) else none with
    | none => s
    | some (core, bank) =>
      match ((s.img core bank).eqAt a.q (ctxIx a.ctx)).cur with
      | some k =>
        if a.q.val = 12 ∧ k.item.isSome = true then
          (s.modImg core bank fun m => m.modEq a.q (ctxIx a.ctx) fun e =>
            { e with cur := e.cur.map fun k => { k with item := none } }).returnWeight d k.item 1
        else s
      | none => s

/-- The detached item of the word in focus is performed, or posts n cycles from now: its unit is returned then. -/
def State.itemBack (s : State) (n : Nat) : State :=
  match s.prog.item with
  | none => s
  | some r => (s.setProg { s.prog with item := none }).returnLater n (coreDie s.focus.core) (some r) 1

/-- Cycles until a count of the core in focus reaches the barrier of a name (R250); for another package the spec fixes
none. -/
def State.countWay (s : State) (name : Word) : Nat :=
  if namePkg name = s.pkg.num then countExtra s.focus.core (nameColIx name) else 0

/-! ### The firmware's fault handler (R322, R323, R356, R378) -/

/-- The launch block of the fault handler: a TRUMP record of one group on its own die, which no slot of the wheel runs;
its program is firmware's. ARG[0] names its case. -/
def handlerBlk (id : Nat) : List Word :=
  [0, BitVec.ofNat 64 (4 + 0xFFFFFF * 2 ^ 32 + 3 * 2 ^ 56), BitVec.ofNat 64 (1 + 2 ^ 56), 0, 0, 0, 0, 0, 0, 0, 0, 0,
    BitVec.ofNat 64 id, 0, 0, 0]

/-- A case of the system route is opened, and the handler enqueued for it. -/
def State.openCase (s : State) (d : DieIx) (r : FaultRec) (tid : Option Nat) : State :=
  let id := s.nextTid
  let s1 := { s with nextTid := id + 1 }
  (s1.modDie d fun k => { k with cases := k.cases ++ [{ id, record := r, tid, modes := s.modesNow, num := none, failed := none }] }).schedule s1.now rankDealer
    (.ev (.launchEnqueue d (handlerBlk id) .handler (some (0, none)) false))

/-- The action with which the handler ends a fault in hardware mode (R322, R356, R378). -/
def handlerAction (code : BitVec 16) : Fin 4 :=
  match code.toNat with
  | 0x0A02 => 0
  | 0x0A04 | 0x0A06 | 0x0A07 | 0x0A08 | 0x0A09 => 1
  | _ => 2

/-- Whether the host decides a code under a value of MODES (R323, R356, R378). -/
def hostDecides (modes : Word) (code : BitVec 16) : Bool :=
  let m := modes.toNat
  match code.toNat / 256 with
  | 6 => bitAt 0 m
  | 8 => bitAt 1 m
  | 0xE => bitAt 1 m && code.toNat == 0x0E01
  | 0xA => (code.toNat == 0x0A03 && bitAt 5 m) || (code.toNat == 0x0A05 && bitAt 3 m)
  | _ => false

/-- A fault that a unit finds against a task, no word of it having asked: it goes to the system route with CTX 3 (R338,
R136). -/
def State.taskFault (s : State) (tid : Nat) (code : BitVec 16) (addr : Option Word) : State :=
  let (a, s0) := s.faultAddr addr
  match s0.bankOf tid with
  | some (core, bank) => s0.systemRoute core bank 3 0 0 0 code a
  | none =>
    match s0.dies.find? fun d => d.2.saved.any fun x => x.holds tid with
    | none => s0
    | some (d, k) =>
      let t := (k.saved.find? fun x => x.holds tid).map (·.task)
      let r := s.faultRec code 3 0 0 0 a t 0
      let die : DieIx := Fin.ofNat 4 d
      (s0.modDie die fun k =>
        { k with saved := k.saved.map fun x => if x.holds tid then { x with fault := r, faulted := true } else x }).openCase
          die r (some tid)

/-! ### Transform programs (R260) -/

/-- Programs wait in order of acceptance, those of one cycle in ascending core order (R259). -/
def waitAdd (p : TsProg) : List TsProg → List TsProg
  | [] => [p]
  | x :: rest =>
    if x.accepted = p.accepted ∧ p.core.val < x.core.val then p :: x :: rest else x :: waitAdd p rest

/-- A program is accepted by the TS of its core's column: it waits its turn, which comes at once when TS is idle. -/
def State.tsAccept (s : State) (p : TsProg) : State :=
  let col := coreCol p.core
  let s1 := s.modCol col fun k => { k with tsWait := waitAdd { p with accepted := s.now } k.tsWait }
  let coming := s1.agenda.any fun e => match e.act with
    | .ev (.tsProgramTurn c) => c == col
    | _ => false
  if (s1.col col).tsRun.isSome || coming then s1 else s1.schedule s1.now rankUnit (.ev (.tsProgramTurn col))

/-- The programs that a bank keeps, and that `f` names, are accepted again (R264, R331). -/
def State.tsReadmit (s : State) (core : CoreIx) (bank : BankIx) (f : TsProg → Bool) : State :=
  let l := (s.img core bank).progs
  let s1 := s.modImg core bank fun m => { m with progs := l.filter fun p => !(f p) }
  s1.each (l.filter f) fun s p => s.tsAccept { p with core, bank, resumed := p.begun, faulted := false }

end Sys2Proof.Machine
end

