-- ==== Sys2Proof/Machine/Barrier.lean ====
section
/-! DEFINITION. The barrier units (R273 to R277): arms, disarms, counts, waits and the fire, with lost and stale barriers
(R346, R367, R369) and columns that are powered down (R368). -/

namespace Sys2Proof.Machine

open Sys2Proof

def State.bar (s : State) (col : ColIx) (ix : Nat) : Barrier := (s.col col).barriers.get Barrier.reset ix
def State.setBar (s : State) (col : ColIx) (ix : Nat) (b : Barrier) : State :=
  s.modCol col fun k => { k with barriers := k.barriers.put ix b }

/-- The entry of `s.bstat`'s answer after TARGET and GOT (R276). -/
def Barrier.status (b : Barrier) : Word :=
  let st := match b.st with
    | .idle => 0
    | .armed => 1
    | .fired => 2
  BitVec.ofNat 64 (st + bit64 b.coll 2 + bit64 b.auto 3 + bit64 (nameKind b.fut == 2) 4 + bit64 b.lost 5 +
    b.gen.toNat * 2 ^ 16)

/-- A waiter is satisfied with the barrier's TARGET; a lost or stale barrier's answer has bit 63 set (R276, R346). -/
def State.satisfyWaiter (s : State) (col : ColIx) (name : Word) (target : Word) (lost : Bool) (w : Waiter) : State :=
  match w with
  | .wait a => s.buAnswer col (some a) [if lost then target ||| BitVec.ofNat 64 (2 ^ 63) else target]
  | .notify a =>
    let n := match s.askerCore a with
      | some c => buDist c col
      | none => 2
    (match a.via with
    | none => s.schedule (s.now + n) rankAnswer (.ev (.notifyEventArrival a.tid a.ctx name))
    | some p => s.send p (.notify a.tid a.ctx name))
  | .entry ref =>
    let die : DieIx := Fin.ofNat 4 (fld 20 19 ref.toNat)
    if fld 28 23 ref.toNat = s.pkg.num then
      s.schedule (s.now + dealerBu die col) rankDealer (.ev (.entrySatisfaction ref 0 false))
    else s.send (fld 28 23 ref.toNat) (.satisfy ref 0 false)
  | .phase a =>
    (match a.via with
    | none => s.schedule s.now rankUnit (.ev (.phaseBoundary [a.tid]))
    | some p => s.send p (.answer { a with via := none } [] none))
  | .status _ => s

def Waiter.isEntry : Waiter → Bool
  | .entry _ => true
  | _ => false

/-- A barrier becomes lost (R346): its waits and notifications are satisfied at once, its continuation entries stay. -/
def State.loseBar (s : State) (col : ColIx) (ix : Nat) : State :=
  let b := s.bar col ix
  let go := b.waiters.filter fun w => !w.isEntry
  let s1 := s.setBar col ix { b with lost := true, waiters := b.waiters.filter Waiter.isEntry }
  s1.each go fun s w => s.satisfyWaiter col (s.ownBar col ix) (b.target.setWidth 64) true w

/-- The barrier of a sync name becomes lost; a name of KIND 0 names none. -/
def State.loseName (s : State) (name : Word) : State :=
  if nameKind name ≠ 1 then s
  else if namePkg name = s.pkg.num then s.loseBar (nameColIx name) (nameIndex name)
  else s.send (namePkg name) (.lose name none)

/-- A fire (R275). -/
def State.fireBar (s : State) (col : ColIx) (ix : Nat) : State :=
  let b := s.bar col ix
  let b' : Barrier :=
    { b with gen := b.gen + 1, got := b.got - b.target, st := if b.auto then .armed else .fired, waiters := [] }
  let s1 := s.setBar col ix b'
  let s2 := s1.each b.waiters fun s w => s.satisfyWaiter col (s.ownBar col ix) (b.target.setWidth 64) false w
  if nameKind b.fut ≠ 2 then s2
  else if namePkg b.fut = s.pkg.num then
    s2.schedule (s2.now + dealerBu (nameDie b.fut) col) rankUnit
      (.dealer (nameDie b.fut) (.reach s2.now b.fut (.resolve b.target none)))
  else s2.send (namePkg b.fut) (.dealer (nameDie b.fut) (.reach s2.now b.fut (.resolve b.target none)))

/-- An over-count (R367): the barrier is lost, and a record names the word. -/
def State.overCount (s : State) (col : ColIx) (ix : Nat) (code : BitVec 16) (a : Option Asker) : State :=
  (s.loseBar col ix).wordRecord (colDie col) a code (s.ownBar col ix)

/-- GOT meets TARGET: the barrier fires; it exceeds it: over-count (R274). -/
def State.settleBar (s : State) (col : ColIx) (ix : Nat) (a : Option Asker) : State :=
  let b := s.bar col ix
  if b.got = b.target then s.fireBar col ix
  else if b.target.toNat < b.got.toNat then s.overCount col ix 0x0901 a
  else s

/-- A refused operation (R369): it is counted, and a record names the sender's word. -/
def State.refuseBar (s : State) (col : ColIx) (ix : Nat) (a : Option Asker) : State :=
  let s1 := s.modCol col fun k =>
    let n := fld 31 0 k.lostsig.toNat
    { k with lostsig := BitVec.ofNat 64 (min (n + 1) (2 ^ 32 - 1) + ix % 1024 * 2 ^ 32) }
  s1.wordRecord (colDie col) a 0x0902 (s.ownBar col ix)

/-- An operation on a barrier of a powered column (R274). -/
def State.barOp (s : State) (col : ColIx) (ix : Nat) (op : BarOp) : State :=
  let b := s.bar col ix
  match op with
  | .arm t coll auto fut a =>
    if b.stale then ((s.setBar col ix { b with stale := false }).refuseBar col ix a).buAnswer col a []
    else
      let s1 := s.setBar col ix { b with target := t, coll, auto, fut, st := .armed, lost := false }
      (s1.settleBar col ix a).buAnswer col a []
  | .disarm a =>
    (s.setBar col ix { b with st := .idle, got := 0, coll := false, auto := false, fut := 0, lost := false }).buAnswer
      col a []
  | .count c a =>
    if b.stale then (s.refuseBar col ix a).buAnswer col a []
    else if c = 0 then s.buAnswer col a []
    else if 2 ^ 32 ≤ b.got.toNat + c then (s.overCount col ix 0x0903 a).buAnswer col a []
    else
      let s1 := s.setBar col ix { b with got := BitVec.ofNat 32 (b.got.toNat + c) }
      (if b.st = .armed then s1.settleBar col ix a else s1).buAnswer col a []
  | .wait (.status a) =>
    s.buAnswer col (some a) [b.target.setWidth 64 ||| (b.got.setWidth 64 <<< 32), b.status]
  | .wait (.phase a) =>
    if b.lost || b.stale then s.satisfyWaiter col (s.ownBar col ix) (b.target.setWidth 64) true (.phase a)
    else s.setBar col ix { b with waiters := b.waiters ++ [.phase a] }
  | .wait w =>
    let s0 := match w with
      | .notify a =>
        -- the word that registered it is answered on acceptance
        s.answerTo 0 { a with mpc := 1 } [] none
      | _ => s
    if (b.lost || b.stale) && !w.isEntry then s0.satisfyWaiter col (s.ownBar col ix) (b.target.setWidth 64) true w
    else if b.st = .fired then s0.satisfyWaiter col (s.ownBar col ix) (b.target.setWidth 64) false w
    else s0.setBar col ix { b with waiters := b.waiters ++ [w] }

/-- The request of a wait has arrived: its word has micro-PC 1 (R276). -/
def State.accepted (s : State) (a : Asker) : State :=
  if a.via.isSome then s
  else s.modWord a fun m => m.modEq a.q (ctxIx a.ctx) fun e => { e with cur := e.cur.map fun k => { k with mpc := 1 } }

/-- An operation reaches a BU: of a powered-down column, it is appended to the backing store of its die, or refused when
that has no room (R368). -/
def State.barArrives (s0 : State) (name : Word) (op : BarOp) : State :=
  let s := match op with
    | .wait (.wait a) => s0.accepted a
    | _ => s0
  let col := nameColIx name
  let ix := nameIndex name
  if (s.col col).powered then s.barOp col ix op
  else if (s.die (colDie col)).backing.length < Config.backingRoom then
    s.modDie (colDie col) fun d => { d with backing := d.backing ++ [(col.val, ix, op)] }
  else (s.refuseBar col ix op.asker).buAnswer col op.asker []

/-! ### The meanings -/

/-- BARRIER_ARM (R274). -/
def execBarrierArm (s : State) : Out :=
  match s.focus.event with
  | some (.barrierArm name t coll auto fut a) => .next (s.barArrives name (.arm t coll auto fut a))
  | _ => .fault (.nothingThere "BARRIER_ARM")

/-- BARRIER_DISARM (R274). -/
def execBarrierDisarm (s : State) : Out :=
  match s.focus.event with
  | some (.barrierDisarm name a) => .next (s.barArrives name (.disarm a))
  | _ => .fault (.nothingThere "BARRIER_DISARM")

/-- BARRIER_COUNT (R274). -/
def execBarrierCount (s : State) : Out :=
  match s.focus.event with
  | some (.barrierCount name c a) =>
    .next ((s.barArrives name (.count c a)).itemDone (nameDie name) a)
  | _ => .fault (.nothingThere "BARRIER_COUNT")

/-- BARRIER_WAIT (R274). -/
def execBarrierWait (s : State) : Out :=
  match s.focus.event with
  | some (.barrierWait name w) => .next (s.barArrives name (.wait w))
  | _ => .fault (.nothingThere "BARRIER_WAIT")

/-- COLUMN_POWER_DOWN (R368): the states of its barriers are kept in the backing store of the die. -/
def execColumnPowerDown (s : State) : Out :=
  match s.focus.event with
  | some (.columnPowerDown col) => .next (s.modCol col fun k => { k with powered := false })
  | _ => .fault (.nothingThere "COLUMN_POWER_DOWN")

/-- COLUMN_POWER_UP (R368): the BU has its states again and performs the appended operations in their order. -/
def execColumnPowerUp (s : State) : Out :=
  match s.focus.event with
  | some (.columnPowerUp col) =>
    let ops := (s.die (colDie col)).backing.filter fun x => x.1 == col.val
    let s1 := (s.modCol col fun k => { k with powered := true }).modDie (colDie col) fun d =>
      { d with backing := d.backing.filter fun x => x.1 != col.val }
    .next (s1.each ops fun s x => s.barOp col x.2.1 x.2.2)
  | _ => .fault (.nothingThere "COLUMN_POWER_UP")

/-- COLUMN_RESET (R369): every barrier is IDLE with every field zero, and stale. -/
def execColumnReset (s : State) : Out :=
  match s.focus.event with
  | some (.columnReset col) =>
    .next (s.modCol col fun k =>
      { k with barriers := (List.range 1024).map fun i => (i, { Barrier.reset with stale := true }) })
  | _ => .fault (.nothingThere "COLUMN_RESET")

end Sys2Proof.Machine
end

