-- ==== Sys2Proof/Machine/Arb.lean ====
section
/-! DEFINITION. Who gets a line: the banks of layer 0, which grant one access each in a cycle (R57 to R60), the ports of
the SRAM slices (R61, R73), the read and write commands of CE4 (R63), and the holds of the words that are not served
(R60, R71, R207, R222, R233). -/

namespace Sys2Proof.Machine

open Sys2Proof

/-! ### Lines -/

/-- The number, in memory, of the line at an offset of a core's layer 0. -/
def l0Line (core : CoreIx) (off : Nat) : Nat := keyL0 core.val off / 256

/-- The physical bank of a line of layer 0 (R57). -/
def lineBank (l : Nat) : Nat := l0Bank (l * 256)

/-- The lines of a read span, by its cycles: line i of each bank in cycle i (R207, R233). -/
def readSteps (lines : List Nat) : List (List Nat) :=
  if lines.isEmpty then []
  else (List.range (readSpan lines)).map fun i =>
    (lines.zipIdx.filter fun x => ((lines.take x.2).filter fun k => lineBank k == lineBank x.1).length == i).map (·.1)

/-- What is listed of a line. -/
def lineCells (m : List Host.Cell) (l : Nat) : List Host.Cell := m.filter fun c => c.1 / 256 == l

/-- Memory with a line as it was found when it was read. -/
def memWithLine (m : List Host.Cell) (l : Nat) (cells : List Host.Cell) : List Host.Cell :=
  if lineCells m l = cells then m
  else (m.filter fun c => decide (c.1 / 256 < l)) ++ cells ++ (m.filter fun c => decide (l < c.1 / 256))

/-- The state as a word sees it that has read lines: each as it was when it was read. -/
def State.withLines (s : State) (lines : Store (List Host.Cell)) : State :=
  { s with mem := lines.foldl (fun m l => memWithLine m l.1 l.2) s.mem }

/-- The lines of a step are read now. -/
def State.capture (s : State) (lines : Store (List Host.Cell)) (l : List Nat) : Store (List Host.Cell) :=
  l.foldl (fun st n => st.put n (lineCells s.mem n)) lines

/-! ### Requests for lines of layer 0 -/

/-- The class of a read step of an engine (R59): of ME, an accumulator word's reads are ACCRMW. -/
def stepClass (q : Fin 13) (i : Instr) : Fin 5 :=
  match i with
  | .mMma _ _ _ _ | .mMmat _ _ _ _ => 0
  | _ => if q = 2 then 2 else 0

/-- The class of an element write of an engine (R59). -/
def elemClass (q : Fin 13) : Fin 5 := if q = 2 then 2 else 1

/-- The package cycle of a task cycle that has come. -/
def Image.arrival (m : Image) (now due : Nat) : Nat := now - (m.cyc - due)

/-- The lines that the words on the engines of a bank ask for in this cycle. -/
def Image.stepReqs (m : Image) (bank : BankIx) (now : Nat) : List LineReq :=
  ([1, 2, 3, 4] : List (Fin 13)).flatMap fun q =>
    match m.eng[q.val].act with
    | none => []
    | some c =>
      match (m.eqAt q c).words, (m.eqAt q c).cur with
      | w :: _, some k =>
        if k.opened && decide (k.next ≤ m.cyc) then
          (k.reads.headD []).map fun l =>
            { line := l, wr := false, cls := stepClass q w.instr, since := m.arrival now k.next, ord := q.val
              who := .step bank q c }
        else []
      | _, _ => []

/-- The lines that element writes of a bank ask for in this cycle. -/
def Image.elemReqs (m : Image) (core : CoreIx) (bank : BankIx) (now : Nat) : List LineReq :=
  m.elems.zipIdx.flatMap fun e =>
    if e.1.due ≤ m.cyc then
      ((e.1.bytes.map fun b => l0Line core b.off).eraseDups).map fun l =>
        { line := l, wr := true, cls := elemClass e.1.q, since := m.arrival now e.1.due, ord := e.1.q.val
          who := .elem bank e.2 }
    else []

/-- The lines that the accumulator path of a bank asks for in this cycle (R234): of each bank the lines of a pass in
ascending order, and no read of a line before the cycle after every earlier ME write to it. -/
def Image.accReqs (m : Image) (core : CoreIx) (bank : BankIx) (now : Nat) : List LineReq :=
  m.passes.zipIdx.flatMap fun p =>
    p.1.lines.zipIdx.filterMap fun l =>
      let line := l.1.line
      let reading := l.1.out.isNone
      let behind := p.1.lines.any fun k => k.out.isNone && decide (k.line < line) && lineBank k.line == lineBank line
      let before := (m.passes.take p.2).any fun x => x.lines.any fun k => k.line == line
      let words := m.elems.any fun e => e.q == 2 && e.bytes.any fun b => b.off / 256 == line
      if l.1.due ≤ m.cyc && !(reading && (behind || before || words)) then
        some { line := l0Line core (line * 256), wr := !reading, cls := 2, since := m.arrival now l.1.due, ord := 2
               who := .acc bank p.2 l.2 }
      else none

/-- Whether a bank counts a cycle now: its element writes and its passes act in it. -/
def State.cycling (s : State) (core : CoreIx) (bank : BankIx) : Bool :=
  s.agenda.any fun e => decide (e.due ≤ s.now) && e.act == .bank core bank .elems

/-- Every request for a line of a core's layer 0 in this cycle. -/
def State.l0Reqs (s : State) (core : CoreIx) : List LineReq :=
  let k := s.core core
  ([0, 1] : List BankIx).flatMap (fun b =>
    if s.cycling core b then
      let m := k.banks[b.val].img
      m.stepReqs b s.now ++ m.elemReqs core b s.now ++ m.accReqs core b s.now
    else []) ++ k.reqs

/-- The banks of a core's layer 0 that control accesses take in this cycle (R59): those that loads have taken, and those of
stores that are at their access point. -/
def State.takenBanks (s : State) (core : CoreIx) : List Nat :=
  ((s.core core).taken.filter fun t => t.1 == s.now).map (·.2) ++
    (s.agenda.filterMap fun e => match e.act with
      | .ev (.accessPoint (.store _ k _ _)) =>
        (match spaceOf k with
        | .l0 c off => if e.due ≤ s.now ∧ c = core.val then some (l0Bank off) else none
        | _ => none)
      | _ => none)

/-! ### Grants (R60) -/

/-- The request that arrived first, of those of one cycle the one of the lower engine. -/
def firstReq (l : List LineReq) : Option LineReq :=
  l.foldl (fun best r => match best with
    | none => some r
    | some b => if r.since < b.since ∨ (r.since = b.since ∧ r.ord < b.ord) then some r else some b) none

/-- The request that a bank serves in a cycle, and its credits after (R60). -/
def Credit.serve (c : Credit) (l : List LineReq) : Option LineReq × Credit :=
  match bankGrant c ((List.finRange 5).filter fun k => l.any fun r => r.cls == k) with
  | (some g, c') => (firstReq (l.filter fun r => r.cls == g), c')
  | (none, c') => (none, c')

/-- Each bank of a core's layer 0 that is not taken serves one of the requests for it. -/
def Core.serve (k : Core) (taken : List Nat) (l : List LineReq) : List LineReq × Core :=
  ((l.map fun r => lineBank r.line).eraseDups.filter fun b => !(taken.contains b)).foldl (fun a b =>
    let (r, c) := (a.2.creditAt b).serve (l.filter fun r => lineBank r.line == b)
    (a.1 ++ r.toList, { a.2 with credits := a.2.credits.put b c })) ([], k)

/-- A word whose line is not granted: its bank, queue and context, and the task cycle of its start. -/
structure HeldWord where
  bank : BankIx
  q : Fin 13
  ctx : Fin 3
  word : Nat
  deriving DecidableEq, Repr

/-- The word that a request not granted holds; an accumulator line holds nothing else (R60). -/
def Core.heldBy (k : Core) (r : LineReq) : Option HeldWord :=
  match r.who with
  | .step b q c => ((k.banks[b.val].img.eqAt q c).cur).map fun x => ⟨b, q, c, x.started⟩
  | .elem b i => (k.banks[b.val].img.elems[i]?).map fun e => ⟨b, e.q, e.ctx, e.word⟩
  | _ => none

/-- A hold moves every later event of the word one cycle later (R60, R207, R222, R233). -/
def Image.hold (m : Image) (now : Nat) (h : HeldWord) : Image :=
  let m1 := { m with elems := m.elems.map fun e =>
    if e.q == h.q && e.ctx == h.ctx && e.word == h.word && decide (m.cyc < e.due) then { e with due := e.due + 1 } else e }
  if m.eng[h.q.val].act = some h.ctx then
    m1.modEq h.q h.ctx fun x => { x with cur := x.cur.map fun k =>
      if k.started = h.word then
        { k with
          next := if m.cyc < k.next then k.next + 1 else k.next
          heldAt := now + 1
          fromAt := k.fromAt + 1
          rows := k.rows.map fun r => { r with start := r.start + 1 } }
      else k }
  else m1

/-- The word in focus has been held in this cycle: its later events come one cycle later. -/
def State.lag (s : State) : Nat := if s.prog.heldAt = s.now + 1 then 1 else 0

/-- Entries of the agenda that are due later come one cycle later. -/
def State.delay (s : State) (p : Act → Bool) : State :=
  let (mv, rest) := s.agenda.partition fun e => decide (s.now < e.due) && p e.act
  { s with agenda := mv.foldl (fun l e => agendaAdd { e with due := e.due + 1 } l) rest }

/-- Whether an act is a step of the copy of a queue. -/
def Act.copyOf (a : Act) (core : CoreIx) (bank : BankIx) (q : Fin 13) (ctx : Ctx) : Bool :=
  match a with
  | .ev (.copyCompletion c b k x _) => c == core && b == bank && k == q && x == ctx
  | _ => false

/-- Whether an act is a step of the transform sequencer of a column. -/
def Act.ofTs (a : Act) (col : ColIx) : Bool :=
  match a with
  | .ts c => c == col
  | .ev (.tsDataPosting y) => y.col == col
  | .ev (.tsProgramTurn c) => c == col
  | .ev (.tsProgramEnd c) => c == col
  | _ => false

/-- A copy, or a transform program, with a line that a bank or a port holds: in that cycle every later event of it moves one
cycle later, once (R71, R263). -/
def State.holdUnit (s : State) (e : Event) : State :=
  match e with
  | .copyCompletion core bank q ctx _ =>
    let held := match ((s.img core bank).eqAt q (ctxIx ctx)).cur with
      | some k => k.heldAt == s.now + 1
      | none => true
    if held then s
    else
      (s.modImg core bank fun m => m.modEq q (ctxIx ctx) fun x =>
        { x with cur := x.cur.map fun k => { k with heldAt := s.now + 1 } }).delay fun a => a.copyOf core bank q ctx
  | .tsDataPosting x =>
    if (s.col x.col).tsHeld = s.now + 1 then s
    else
      let later (n : Nat) : Nat := if s.now < n then n + 1 else n
      (s.modCol x.col fun k =>
        { k with
          tsHeld := s.now + 1
          tsRun := k.tsRun.map fun p => { p with wrBusy := later p.wrBusy, postBusy := later p.postBusy }
          tsOps := k.tsOps.map fun o => { o with due := later o.due } }).delay fun a => a.ofTs x.col
  | _ => s

/-- The requesters whose lines are not accepted are held; a loop table comes to its LP a cycle later. -/
def State.holdUnits (s : State) (l : List LineReq) : State :=
  s.each l fun s r => match r.who with
    | .unit e => s.holdUnit e
    | .lp core bank => s.modImg core bank fun m => { m with lp := { m.lp with loadAt := m.lp.loadAt.map (· + 1) } }
    | _ => s

/-- The banks of a core grant their lines in a cycle, if any is asked for. -/
def State.askGrant (s : State) (core : CoreIx) (t : Nat) : State :=
  if s.agenda.any fun e => e.due == t && e.act == .grant core then s
  else s.schedule t (rankGrant + core.val) (.grant core)

/-- The steps that the requests granted run, each once. -/
def grantedActs (core : CoreIx) (l : List LineReq) : List Act :=
  (l.filterMap fun r => match r.who with
    | .step b q c => some (if q = 2 then Act.perform core b q c else .ev (.microStep core b q (ixCtx c)))
    | .unit e => some (.ev e)
    | .msg d x => some (.dealer d x)
    | .cov c x => some (.cov c x)
    | _ => none).eraseDups

/-- The banks of a core's layer 0 grant one line each (R60): what is granted acts in this cycle, and the words with a line
that is not granted are held. -/
def State.grantPhase (s : State) (core : CoreIx) : State :=
  let l := s.l0Reqs core
  let (granted, k) := (s.core core).serve (s.takenBanks core) l
  let left := l.filter fun r => !(granted.contains r)
  let held := (left.filterMap (s.core core).heldBy).eraseDups
  let kept := k.reqs.filter fun r => !(granted.contains r)
  let s1 := s.setCore core { k with granted, reqs := kept, taken := k.taken.filter fun t => t.1 == s.now }
  let s2 := s1.each held fun s h => s.modImg core h.bank fun m => m.hold s.now h
  let s3 := (s2.holdUnits left).soon (rankGrant + core.val) (grantedActs core granted)
  if kept.isEmpty then s3 else s3.askGrant core (s.now + 1)

/-- The lines of layer 0 that the bank in focus has been granted for its read step. -/
def State.stepLines (s : State) : List Nat :=
  (s.core s.focus.core).granted.filterMap fun r =>
    if r.who = .step s.focus.bank s.focus.q s.focus.ctx then some r.line else none

/-! ### Requests of units -/

/-- Where a line of memory is served. -/
inductive LineHome where
  | l0 (core : CoreIx)
  | slice (col : ColIx) (layer : Fin 4)
  /-- far memory, host memory and other packages -/
  | away
  deriving DecidableEq, Repr

def lineHome (l : Nat) : LineHome :=
  match spaceOf (l * 256) with
  | .l0 core _ => .l0 (Fin.ofNat 256 core)
  | .tower col layer _ => .slice (Fin.ofNat 32 col) (Fin.ofNat 4 (layer - 1))
  | _ => .away

/-- The port of a slice acts in a cycle. -/
def State.askPort (s : State) (col : ColIx) (layer : Fin 4) (t : Nat) : State :=
  if s.agenda.any fun e => e.due == t && e.act == .port col layer then s
  else s.schedule t rankPort (.port col layer)

/-- A unit asks for a line; of a place that is not served line by line, it acts at once. A request made once the banks or
the port have acted is served from the next cycle on. -/
def State.askLine (s : State) (rank : Nat) (r : LineReq) : State :=
  match lineHome r.line with
  | .l0 core =>
    (s.modCore core fun k => { k with reqs := k.reqs ++ [r] }).askGrant core
      (if rank < rankGrant then s.now else s.now + 1)
  | .slice col layer =>
    (s.modSlice col layer fun x => { x with reqs := x.reqs ++ [r] }).askPort col layer
      (if rank < rankPort then s.now else s.now + 1)
  | .away => match r.who with
    | .unit e => s.schedule s.now rankGrant (.ev e)
    | .msg d x => s.schedule s.now rankGrant (.dealer d x)
    | .cov c x => s.schedule s.now rankGrant (.cov c x)
    | _ => s

/-! ### The ports of slices (R61, R73) and the commands of CE4 (R63) -/

/-- Requesters of a slice's port in ascending order (R61): copy engines by column, the far stream engines, TS, LPs,
coverage units and dealers. -/
def ordCe (col : ColIx) (q : Fin 13) : Nat := 4 * col.val + (q.val - 5)
def ordFs (d : DieIx) : Nat := 128 + d.val
def ordTs (c : ColIx) : Nat := 132 + c.val
def ordLp (c : CoreIx) : Nat := 164 + c.val
def ordCov (c : ColIx) : Nat := 420 + c.val
def ordDealer (d : DieIx) : Nat := 452 + d.val
def ordSa (c : CoreIx) : Nat := 456 + c.val

/-- Lines that the port of an SRAM slice accepts in a cycle from requesters other than TS (R61, R73). -/
def State.portWidth (s : State) (c : ColIx) (l : Fin 4) : Nat :=
  if l = 0 then (if (s.col c).tsRun.any (·.begun) then 12 else 16) else 8

/-- The requester whose turn it is, from `next` on in ascending order, and round. -/
def turnOf (next : Nat) (l : List LineReq) : Option LineReq :=
  let ahead := l.filter fun r => decide (next ≤ r.ord)
  (if ahead.isEmpty then l else ahead).foldl (fun best r => match best with
    | none => some r
    | some b => if r.ord < b.ord then some r else some b) none

/-- Up to n lines accepted, one a turn (R61). -/
def portTurns : Nat → Nat → List LineReq → List LineReq × Nat
  | 0, next, _ => ([], next)
  | n + 1, next, l =>
    match turnOf next l with
    | none => ([], next)
    | some r =>
      let (acc, k) := portTurns n (r.ord + 1) (l.erase r)
      (r :: acc, k)

/-- Whether CE4 may issue a request's command now (R63): its bank is free, 40 cycles have passed since its activate and 4
since its last command, and no earlier command waits for the bank. -/
def State.dramReady (s : State) (c : ColIx) (earlier : List LineReq) (r : LineReq) : Bool :=
  let off (x : LineReq) : Nat := fld 30 0 (x.line * 256)
  let b := dramBankOf (off r)
  let x := s.dram c b
  decide (s.busyUntil (r.line * 256) ≤ s.now) && (x.row.isNone || decide (x.actAt + 40 ≤ s.now)) &&
    decide (x.rwAt + 4 ≤ s.now) &&
    !(earlier.any fun y => dramBankOf (off y) == b || (decide (ordSa 0 ≤ r.ord) && y.ord == r.ord))

/-- The requests whose banks are free, the updates of a core's SA in order (R243). -/
def State.portFree (s : State) (earlier : List LineReq) : List LineReq → List LineReq
  | [] => []
  | r :: rest =>
    let behind := decide (ordSa 0 ≤ r.ord) && earlier.any fun y => y.ord == r.ord
    if behind || decide (s.now < s.busyUntil (r.line * 256)) then s.portFree (earlier ++ [r]) rest
    else r :: s.portFree earlier rest

/-- The commands that CE4 issues in a cycle, two at most (R63), in the order in which they arrived. -/
def State.dramTurns (s : State) (c : ColIx) (n : Nat) (earlier : List LineReq) : List LineReq → List LineReq
  | [] => []
  | r :: rest =>
    if n = 0 then []
    else if s.dramReady c earlier r then r :: s.dramTurns c (n - 1) (earlier ++ [r]) rest
    else s.dramTurns c n (earlier ++ [r]) rest

/-- An access waits on a forced refresh of its bank in this cycle: RFSTALL.CYCLES counts the cycle (R64). -/
def State.noteStall (s : State) (k : Nat) : State :=
  match spaceOf k with
  | .tower col 4 off =>
    let c : ColIx := Fin.ofNat 32 col
    if s.now < (s.dram c (dramBankOf off)).busy ∧ (s.col c).stallTo ≤ s.now then
      (s.modCol c fun x => { x with stallTo := s.now + 1 }).schedule s.now rankRefresh (.stall c)
    else s
  | _ => s

/-- RFSTALL.CYCLES counts a cycle, after what is written to it in that cycle (R64, R198). -/
def State.countStall (s : State) (c : ColIx) : State :=
  s.modCol c fun x =>
    if fld 31 0 x.rfstall.toNat = 2 ^ 32 - 1 then x else { x with rfstall := x.rfstall + 1 }

/-- The port of a slice accepts lines in a cycle (R61, R63). -/
def State.portPhase (s : State) (c : ColIx) (l : Fin 4) : State :=
  let x := s.slice c l
  let (acc, next) := if l = 3 then (s.dramTurns c 2 [] x.reqs, 0)
    else portTurns (s.portWidth c l) x.next (s.portFree [] x.reqs)
  let left := x.reqs.filter fun r => !(acc.contains r)
  let s1 := s.modSlice c l fun x => { x with reqs := left, next }
  let s2 := if l = 3 then
      s1.each acc fun s r => s.modDram c (dramBankOf (fld 30 0 (r.line * 256))) fun b => { b with rwAt := s.now }
    else s1
  let s3 := ((s2.each left fun s r => s.noteStall (r.line * 256)).holdUnits left).soon rankPort
    ((acc.filterMap fun r => match r.who with
      | .unit e => some (.ev e)
      | .msg d x => some (.dealer d x)
      | .cov c x => some (.cov c x)
      | _ => none))
  if left.isEmpty then s3 else s3.askPort c l (s.now + 1)

end Sys2Proof.Machine
end

