-- ==== Sys2Proof/Machine/Ctrl.lean ====
section
/-! DEFINITION. The control engine (R182 to R202): the meaning of every CTRL word. A word acts in its issue cycle; its
results are pending writes that land at the latency of R88, and its accesses reach their access points by R146 and
R198. -/

namespace Sys2Proof.Machine

open Sys2Proof

/-! ### Shared operations -/

/-- A word whose result is a g register (R182, R183). -/
def ctrlPut (s : State) (p : Pred) (d : Fin 32) (l : Nat) (v : State → Word) : Out :=
  ctrlWord s p 1 fun s => (s.put d (v s) l).advance 1

/-- A word whose result is a predicate (R188, R189). -/
def ctrlPutP (s : State) (p : Pred) (n : Nat) (d : Fin 16) (b : State → Bool) : Out :=
  ctrlWord s p n fun s => (s.putP d (b s)).advance n

/-- I9 of R182. -/
def imm9 (i : BitVec 9) : Word := i.signExtend 64
/-- I14 of R182. -/
def imm14 (i : BitVec 14) : Word := i.signExtend 64

/-- Bits [127:64] of a product (R183). -/
def mulHigh (u : Bool) (a b : Word) : Word :=
  if u then BitVec.ofNat 64 (a.toNat * b.toNat / 2 ^ 64)
  else BitVec.ofInt 64 (Int.fdiv (a.toInt * b.toInt) (2 ^ 64 : Int))

/-- The operands of a division as R184 reads them. -/
def divReading (u : Bool) (a : Word) : Int := if u then (a.toNat : Int) else a.toInt

/-- The quotient of R184. -/
def divQuo (u : Bool) (x y : Word) : Word :=
  let a := divReading u x
  let b := divReading u y
  if b = 0 then BitVec.ofInt 64 (-1)
  else if u = false ∧ a = -(2 ^ 63 : Int) ∧ b = -1 then BitVec.ofInt 64 (-(2 ^ 63 : Int))
  else BitVec.ofInt 64 (Int.tdiv a b)

/-- The remainder of R184. -/
def divRem (u : Bool) (x y : Word) : Word :=
  let a := divReading u x
  let b := divReading u y
  if b = 0 then BitVec.ofInt 64 a
  else if u = false ∧ a = -(2 ^ 63 : Int) ∧ b = -1 then 0
  else BitVec.ofInt 64 (a - Int.tdiv a b * b)

/-- The smaller of two operands under a reading (R183). -/
def minOf (u : Bool) (a b : Word) : Word := if u then (if a.ult b then a else b) else (if a.slt b then a else b)
def maxOf (u : Bool) (a b : Word) : Word := if u then (if a.ult b then b else a) else (if a.slt b then b else a)

/-- A shift count: the low six bits (R183). -/
def shiftCount (b : Word) : Nat := b.toNat % 64

/-- The low `2^w` bytes of a value, sign- or zero-extended (R186, R190). -/
def extendTo (signed : Bool) (w : Fin 4) (v : Word) : Word :=
  let n := 8 * 2 ^ w.val
  if signed then BitVec.ofInt 64 (BitVec.ofNat n v.toNat).toInt else BitVec.ofNat 64 (v.toNat % 2 ^ n)

/-- Zero bits above the highest 1 bit, of the low n bits. -/
def leadingZeros (v : Nat) : Nat → Nat
  | 0 => 0
  | n + 1 => if bitAt n v then 0 else 1 + leadingZeros v n

/-- 1 bits among the low n bits. -/
def countOnes (v : Nat) : Nat → Nat
  | 0 => 0
  | n + 1 => (if bitAt n v then 1 else 0) + countOnes v n

/-- The conditions of R188. -/
def condHolds (c : Fin 16) (a b : Word) : Bool :=
  match c.val with
  | 0 => a == b
  | 1 => a != b
  | 2 => a.slt b
  | 3 => a.sle b
  | 4 => a.ult b
  | _ => a.ule b

/-- IMGLEN of the task in focus (R99). -/
def State.imgLen (s : State) : Nat := blkImgLen s.cur.blk

/-- PC is set (R182, R192). -/
def State.jump (s : State) (t : Nat) : State := s.modCx fun c => { c with pc := BitVec.ofNat 15 t }

/-- A taken branch: its target checked, or 0x0308 and not taken (R192, R329). -/
def State.branch (s : State) (o : BitVec 19) (body : State → Nat → State) : State :=
  match branchTarget s.cx.pc o s.imgLen with
  | some t => body s t
  | none => s.ctrlFault 0x0308 none

/-! ### Integer arithmetic and logic (R183, R184) -/

def execTrailerWord (_m : BitVec 12) (s : State) : Out := .next (s.ctrlFault 0x0104 none)
def execNop (p : Pred) (s : State) : Out := ctrlWord s p 1 fun s => s.advance 1
def execAdd (p : Pred) (d a b : Fin 32) (s : State) : Out := ctrlPut s p d 1 fun s => s.g a + s.g b
def execSub (p : Pred) (d a b : Fin 32) (s : State) : Out := ctrlPut s p d 1 fun s => s.g a - s.g b
def execMul (p : Pred) (d a b : Fin 32) (s : State) : Out := ctrlPut s p d 4 fun s => s.g a * s.g b
def execMulh (p : Pred) (d a b : Fin 32) (u : Bool) (s : State) : Out :=
  ctrlPut s p d 4 fun s => mulHigh u (s.g a) (s.g b)
def execDiv (p : Pred) (d a b : Fin 32) (u : Bool) (s : State) : Out :=
  ctrlPut s p d 20 fun s => divQuo u (s.g a) (s.g b)
def execRem (p : Pred) (d a b : Fin 32) (u : Bool) (s : State) : Out :=
  ctrlPut s p d 20 fun s => divRem u (s.g a) (s.g b)
def execAnd (p : Pred) (d a b : Fin 32) (s : State) : Out := ctrlPut s p d 1 fun s => s.g a &&& s.g b
def execOr (p : Pred) (d a b : Fin 32) (s : State) : Out := ctrlPut s p d 1 fun s => s.g a ||| s.g b
def execXor (p : Pred) (d a b : Fin 32) (s : State) : Out := ctrlPut s p d 1 fun s => s.g a ^^^ s.g b
def execAndn (p : Pred) (d a b : Fin 32) (s : State) : Out := ctrlPut s p d 1 fun s => s.g a &&& ~~~(s.g b)
def execShl (p : Pred) (d a b : Fin 32) (s : State) : Out :=
  ctrlPut s p d 1 fun s => s.g a <<< shiftCount (s.g b)
def execShr (p : Pred) (d a b : Fin 32) (s : State) : Out :=
  ctrlPut s p d 1 fun s => s.g a >>> shiftCount (s.g b)
def execSra (p : Pred) (d a b : Fin 32) (s : State) : Out :=
  ctrlPut s p d 1 fun s => (s.g a).sshiftRight (shiftCount (s.g b))
def execMin (p : Pred) (d a b : Fin 32) (u : Bool) (s : State) : Out :=
  ctrlPut s p d 1 fun s => minOf u (s.g a) (s.g b)
def execMax (p : Pred) (d a b : Fin 32) (u : Bool) (s : State) : Out :=
  ctrlPut s p d 1 fun s => maxOf u (s.g a) (s.g b)
def execSel (p : Pred) (d a b : Fin 32) (c : Fin 16) (s : State) : Out :=
  ctrlPut s p d 1 fun s => if s.p c then s.g a else s.g b

/-! ### Immediate arithmetic (R185) -/

def execAddi (p : Pred) (d a : Fin 32) (i : BitVec 9) (s : State) : Out :=
  ctrlPut s p d 1 fun s => s.g a + imm9 i
def execAndi (p : Pred) (d a : Fin 32) (i : BitVec 9) (s : State) : Out :=
  ctrlPut s p d 1 fun s => s.g a &&& imm9 i
def execOri (p : Pred) (d a : Fin 32) (i : BitVec 9) (s : State) : Out :=
  ctrlPut s p d 1 fun s => s.g a ||| imm9 i
def execXori (p : Pred) (d a : Fin 32) (i : BitVec 9) (s : State) : Out :=
  ctrlPut s p d 1 fun s => s.g a ^^^ imm9 i
def execShli (p : Pred) (d a : Fin 32) (n : Fin 64) (s : State) : Out :=
  ctrlPut s p d 1 fun s => s.g a <<< n.val
def execShri (p : Pred) (d a : Fin 32) (n : Fin 64) (s : State) : Out :=
  ctrlPut s p d 1 fun s => s.g a >>> n.val
def execSrai (p : Pred) (d a : Fin 32) (n : Fin 64) (s : State) : Out :=
  ctrlPut s p d 1 fun s => (s.g a).sshiftRight n.val
def execMuli (p : Pred) (d a : Fin 32) (i : BitVec 9) (s : State) : Out :=
  ctrlPut s p d 4 fun s => s.g a * imm9 i

/-! ### Bit counts, extensions and constants (R186, R187) -/

/-- The sign of the suffix has no effect on either word (R186). -/
def execSext (p : Pred) (d a : Fin 32) (_e : Bool) (w : Fin 4) (s : State) : Out :=
  ctrlPut s p d 1 fun s => extendTo true w (s.g a)
def execZext (p : Pred) (d a : Fin 32) (_e : Bool) (w : Fin 4) (s : State) : Out :=
  ctrlPut s p d 1 fun s => extendTo false w (s.g a)
def execClz (p : Pred) (d a : Fin 32) (s : State) : Out :=
  ctrlPut s p d 1 fun s => BitVec.ofNat 64 (leadingZeros (s.g a).toNat 64)
def execPopc (p : Pred) (d a : Fin 32) (s : State) : Out :=
  ctrlPut s p d 1 fun s => BitVec.ofNat 64 (countOnes (s.g a).toNat 64)
def execLi (p : Pred) (d : Fin 32) (i : BitVec 14) (s : State) : Out := ctrlPut s p d 1 fun _ => imm14 i
def execLit (p : Pred) (d : Fin 32) (x : BitVec 32) (s : State) : Out :=
  ctrlWord s p 2 fun s => (s.put d (x.signExtend 64) 1).advance 2
def execLith (p : Pred) (d : Fin 32) (x : BitVec 32) (s : State) : Out :=
  ctrlWord s p 2 fun s => (s.put d (x ++ (s.g d).setWidth 32) 1).advance 2

/-! ### Comparisons and predicates (R188, R189) -/

def execCmp (p : Pred) (d : Fin 16) (a b : Fin 32) (c : Fin 16) (s : State) : Out :=
  ctrlPutP s p 1 d fun s => condHolds c (s.g a) (s.g b)
def execCmpx (p : Pred) (d : Fin 16) (a : Fin 32) (c : Fin 16) (x : BitVec 32) (s : State) : Out :=
  ctrlPutP s p 2 d fun s => condHolds c (s.g a) (x.signExtend 64)
def execPand (p : Pred) (d a b : Fin 16) (s : State) : Out := ctrlPutP s p 1 d fun s => s.p a && s.p b
def execPor (p : Pred) (d a b : Fin 16) (s : State) : Out := ctrlPutP s p 1 d fun s => s.p a || s.p b
def execPxor (p : Pred) (d a b : Fin 16) (s : State) : Out := ctrlPutP s p 1 d fun s => s.p a ^^ s.p b
def execPandn (p : Pred) (d a b : Fin 16) (s : State) : Out := ctrlPutP s p 1 d fun s => s.p a && !(s.p b)
def execPset (p : Pred) (d : Fin 16) (b : Bool) (s : State) : Out := ctrlPutP s p 1 d fun _ => b

/-- The predicates as a number, p0 in bit 0 (R189). -/
def State.predWord (s : State) : Word :=
  BitVec.ofNat 64 ((List.finRange 16).foldl (fun v n => v + bit64 (s.p n) n.val) 0)

def execPrd (p : Pred) (d : Fin 32) (s : State) : Out := ctrlPut s p d 1 fun s => s.predWord
def execPwr (p : Pred) (r : Fin 32) (s : State) : Out :=
  ctrlWord s p 1 fun s =>
    let v := s.g r
    (s.each (List.finRange 16) fun s n => s.putP n (v.getLsbD n.val)).advance 1

/-! ### Scalar loads and stores (R190, R146) -/

/-- The word in focus as the maker of an access. -/
def State.accessOf (s : State) (a : Word) : AccessOf :=
  { tid := s.cur.tid, core := s.focus.core, ctx := s.focus.ctx, pc := s.cx.pc, addr := a, trap := s.cx.shadow.isSome, born := s.now }

/-- An access of the context in focus sets out. -/
def State.sendAccess (s : State) (n rank : Nat) (x : Access) : State :=
  (s.modCx fun c => { c with accesses := c.accesses + 1 }).schedule (s.now + n) (rank + s.focus.core.val)
    (.ev (.accessPoint x))

/-- The task has accessed the slice a place lies in (R344). -/
def State.touch (s : State) (l : Loc) : State :=
  if l.layer = 0 then s
  else
    let k := 4 * l.colIx.val + (l.layer - 1)
    if (s.slice l.colIx (Fin.ofNat 4 (l.layer - 1))).condemned.isSome then s
    else s.modCur fun m => if m.touched.contains k then m else { m with touched := k :: m.touched }

/-- The register a result is bound to at issue: its physical index, and whether it is a shadow copy (R88, R320). -/
def State.dstOf (s : State) (d : Fin 32) : Nat × Bool :=
  ((physG s.cx.rot d).val, s.cx.shadow.isSome && decide (d.val < 16))

/-- The cycles that a place adds to D and L (R56, R341). -/
def State.wayTo (s : State) (l : Loc) : Nat := l.extra s.focus.core + s.retime l

/-- A load of n bytes (R190): checked at issue, read at its access point, landed at L. -/
def State.load (s : State) (d : Fin 32) (a : Word) (n : Nat) (sext : Bool) : State :=
  match s.scalarLoc s.focus.core a n s.cur.startedAt with
  | .error c => s.ctrlFault c (some a)
  | .ok l =>
    let way := s.wayTo l
    let (dst, sh) := s.dstOf d
    ((s.touch l).sendAccess (loadD l.layer + way) rankRead
      (.load (s.accessOf a) l.key n sext (s.cur.taskCycle + loadL l.layer + way) dst sh)).advance 1

/-- A store of n bytes (R190): checked at issue, performed at its access point. -/
def State.store (s : State) (v a : Word) (n : Nat) : State :=
  match s.scalarLoc s.focus.core a n s.cur.startedAt with
  | .error c => s.ctrlFault c (some a)
  | .ok l =>
    ((s.touch l).sendAccess (loadD l.layer + s.wayTo l) rankMemory (.store (s.accessOf a) l.key n v)).advance 1

def execLd (p : Pred) (d a : Fin 32) (i : BitVec 9) (s : State) : Out :=
  ctrlWord s p 1 fun s => s.load d (s.g a + imm9 i * 8) 8 false
def execLdx (p : Pred) (d a b : Fin 32) (e : Bool) (w : Fin 4) (s : State) : Out :=
  ctrlWord s p 1 fun s => s.load d (s.g a + s.g b) (2 ^ w.val) e
def execSt (p : Pred) (r a : Fin 32) (i : BitVec 9) (s : State) : Out :=
  ctrlWord s p 1 fun s => s.store (s.g r) (s.g a + imm9 i * 8) 8
/-- The sign of the suffix has no effect (R190). -/
def execStx (p : Pred) (r a b : Fin 32) (_e : Bool) (w : Fin 4) (s : State) : Out :=
  ctrlWord s p 1 fun s => s.store (s.g r) (s.g a + s.g b) (2 ^ w.val)

/-! ### Address conversion (R191) -/

/-- The form of an address in a window from the core in focus, none when the window does not reach its place. -/
def State.formIn (s : State) (a : Word) (w : Window) : Option Word :=
  match locOf s.focus.core a with
  | some l => if l.reach s.focus.core w then some (l.form w) else none
  | none => none

def execCvta (p : Pred) (d a : Fin 32) (w : Window) (s : State) : Out :=
  ctrlPut s p d 1 fun s => (s.formIn (s.g a) w).getD 0
def execIsap (p : Pred) (d : Fin 16) (a : Fin 32) (w : Window) (s : State) : Out :=
  ctrlPutP s p 1 d fun s => (s.formIn (s.g a) w).isSome

/-! ### Branches and loops (R192 to R194) -/

def execBr (p : Pred) (o : BitVec 19) (s : State) : Out :=
  ctrlWord s p 1 fun s => s.branch o fun s t => s.jump t
def execCall (p : Pred) (o : BitVec 19) (s : State) : Out :=
  ctrlWord s p 1 fun s => s.branch o fun s t => (s.put 15 ((s.cx.pc.setWidth 64) + 4) 1).jump t
def execJr (p : Pred) (a : Fin 32) (s : State) : Out :=
  ctrlWord s p 1 fun s =>
    let t := (s.g a).toNat
    if t < 2 ^ 15 ∧ t % 4 = 0 ∧ (t : Int) < (s.imgLen : Int) - 4 then s.jump t else s.ctrlFault 0x0308 none

/-- A rotation and a stage shift (R90): ROT one lower, p15 to p9 from p14 to p8, and b into p8. -/
def State.rotateShift (s : State) (b : Bool) : State :=
  let c := s.cx
  let s1 := s.pendWrite 4 0 ((c.rot - 1).setWidth 64) 1 false
  s1.each (List.range 8) fun s k =>
    let v := if k = 0 then b else c.p.getLsbD (7 + k)
    s.pendWrite 1 (8 + k) (if v then 1 else 0) 1 false

def execLoopb (p : Pred) (o : BitVec 19) (s : State) : Out :=
  ctrlWord s p 1 fun s =>
    if s.cx.lc ≠ 0 then
      s.branch o fun s t => ((s.pendWrite 2 0 ((s.cx.lc - 1).setWidth 64) 1 false).rotateShift true).jump t
    else if s.cx.ec ≠ 0 then
      s.branch o fun s t => ((s.pendWrite 3 0 ((s.cx.ec - 1).setWidth 64) 1 false).rotateShift false).jump t
    else s.advance 1

/-- The count that `setlc` and `setec` write (R194). -/
def clampCount (v : Word) (i : BitVec 14) : Word := BitVec.ofInt 64 (satInt (v.toInt + i.toInt) 0 (2 ^ 32 - 1))

def execSetlc (p : Pred) (r : Fin 32) (i : BitVec 14) (s : State) : Out :=
  ctrlWord s p 1 fun s => (s.pendWrite 2 0 (clampCount (s.g r) i) 1 false).advance 1
def execSetec (p : Pred) (r : Fin 32) (i : BitVec 14) (s : State) : Out :=
  ctrlWord s p 1 fun s => (s.pendWrite 3 0 (clampCount (s.g r) i) 1 false).advance 1
def execSetrot (p : Pred) (r : Fin 32) (i : BitVec 14) (s : State) : Out :=
  ctrlWord s p 1 fun s => (s.pendWrite 4 0 (s.g r + imm14 i) 1 false).advance 1

/-! ### Queue registers (R195, R86, R87) -/

def execPush (p : Pred) (q : Fin 16) (r : Fin 32) (s : State) : Out :=
  ctrlWord s p 1 fun s =>
    if q.val = 15 then s.ctrlFault 0x0403 none
    else if s.cur.full s.focus.ctx q then s.block
    else (s.modCur fun m => m.pushQ s.focus.ctx q (s.g r)).advance 1

/-- The head of a queue register is delivered with L 2, or the context blocks (R195). -/
def State.takeHead (s : State) (q : Fin 16) (d : Fin 32) (drop : Nat) : State :=
  match s.cur.queue s.focus.ctx q with
  | [] => s.block
  | v :: _ => ((s.put d v 2).modCur fun m => m.dropQ s.focus.ctx q drop).advance 1

def execPop (p : Pred) (q : Fin 16) (d : Fin 32) (s : State) : Out :=
  ctrlWord s p 1 fun s => s.takeHead q d 1
def execPeek (p : Pred) (q : Fin 16) (d : Fin 32) (s : State) : Out :=
  ctrlWord s p 1 fun s => s.takeHead q d 0

/-- Work that a word of a task has under way outside its bank: updates on their way to their homes, and copies whose
counts are not posted (R148). -/
def Act.workOf (a : Act) (tid : Nat) (q : Fin 13) (c : Fin 3) : Bool :=
  match a with
  | .ev (.saHomeUpdate u) => u.tid == tid && q == 4 && ctxIx u.ctx == c
  | _ => false

/-- A word of a context's queue is not performed yet (R148, R150, R196). -/
def State.pendingIn (s : State) (core : CoreIx) (bank : BankIx) (c : Fin 3) (q : Fin 13) : Bool :=
  let m := s.img core bank
  let tid := m.tid
  if q.val = 0 then m.pend.any (fun w => w.ctx == c) || decide (0 < m.ctx[c.val].accesses)
  else
    (m.eqAt q c).words.any (fun w => w.tid == tid) ||
    m.elems.any (fun e => e.q == q && e.ctx == c && e.tid == tid) ||
    (q.val == 2 && m.passes.any fun x => x.ctx == c && x.tid == tid) ||
    (q.val == 10 && (m.progs.any (fun x => x.ctx == c && x.tid == tid) ||
      (let k := s.col (coreCol core)
       (k.tsRun.toList ++ k.tsWait).any fun x => x.ctx == c && x.tid == tid))) ||
    (q.val == 4 && s.pkg.away.any fun u => u.tid == tid && ctxIx u.ctx == c) ||
    s.pendingActs.any fun a => a.workOf tid q c

def execQfence (p : Pred) (m : BitVec 12) (s : State) : Out :=
  ctrlWord s p 1 fun s =>
    if (List.finRange 13).any fun q =>
        decide (q.val < 12) && m.getLsbD q.val && s.pendingIn s.focus.core s.focus.bank s.focus.ctx q
    then s.block
    else s.advance 1

/-! ### System registers (R197 to R200) -/

def execMfsr (p : Pred) (d : Fin 32) (n : Fin 16384) (s : State) : Out :=
  ctrlWord s p 1 fun s =>
    let (a, l) := sysScope n.val
    if n.val < 0x010 then (s.put d (s.ctxRead n.val) 1).advance 1
    else
      let (dst, sh) := s.dstOf d
      (s.sendAccess a rankRead (.mfsr (s.accessOf 0) n.val (s.cur.taskCycle + l) dst sh)).advance 1

def execMtsr (p : Pred) (r : Fin 32) (n : Fin 16384) (s : State) : Out :=
  ctrlWord s p 1 fun s =>
    let v := s.g r
    let (a, _) := sysScope n.val
    if sysOnly n.val && !(s.cur.system) then s.ctrlFault 0x0201 none
    else if sysForbidden n.val v then s.ctrlFault 0x0103 (some v)
    else if n.val < 0x010 then (s.ctxWrite n.val v).advance 1
    else (s.sendAccess a rankMemory (.mtsr (s.accessOf 0) n.val v)).advance 1

/-! ### Trap return (R201, R321) -/

/-- Results of the trap stream that have not landed when `uret` issues are discarded: those of accesses still to reach
their access point too (R320). -/
def dropShadow (tid : Nat) (c : Fin 3) (e : Entry) : Entry :=
  match e.act with
  | .ev (.accessPoint (.load o k n x l _ true)) =>
    if o.tid = tid ∧ o.ctx = c then { e with act := .ev (.accessPoint (.load o k n x l 0 false)) } else e
  | .ev (.accessPoint (.mfsr o n l _ true)) =>
    if o.tid = tid ∧ o.ctx = c then { e with act := .ev (.accessPoint (.mfsr o n l 0 false)) } else e
  | _ => e

/-- The faulting word of an engine queue is performed by a skip (R321): its entries stay consumed, an answer still due
is discarded, and a copy posts the sectors counted so far to its barrier. A word that has
left its queue already is performed. -/
def State.skipWord (s : State) (f : QFault) : State :=
  let q := f.q
  let c := s.focus.ctx
  let e := s.cur.eqAt q c
  let tid := s.cur.tid
  if q.val = 10 then s.modCur fun m => { m with progs := m.progs.filter fun p => !(p.faulted && p.ctx == c) }
  else match e.words with
  | [] => s
  | w :: _ =>
    if w.pc ≠ f.pc then s
    else
      let s1 := s.withdraw fun a => match a with
        | .ev (.syncAnswer k _ _) => k.tid == tid && k.q == q && ctxIx k.ctx == c
        | _ => false
      let s2 := match e.cur with
        | some k =>
          if 5 ≤ q.val ∧ q.val ≤ 9 ∧ 0 < k.sent then
            (s1.sendCount 0 k.bar k.sent none).returnWeight (coreDie s1.focus.core) k.item
              (if k.item.isSome then 1 else 0)
          else s1.returnWeight (coreDie s1.focus.core) k.item (if k.item.isSome then 1 else 0)
        | none => s1
      s2.modCur fun m => m.finish q c

def execUret (p : Pred) (s : State) : Out :=
  ctrlWord s p 1 fun s =>
    let c := s.cx
    if c.shadow.isNone then s.ctrlFault 0x0202 none
    else
      let s1 := s.modCur fun m => m.leaveTrap s.focus.ctx
      let s2 := { s1 with agenda := s1.agenda.map (dropShadow s.cur.tid s.focus.ctx) }
      match c.faults.find? fun f => f.taken with
      | none => s2
      | some f =>
        let s3 := s2.modCx fun x => { x with faults := x.faults.filter fun y => y != f }
        match trapAction c.trapCode with
        | 0 => s3.tsReadmit s.focus.core s.focus.bank fun p => p.faulted && p.ctx == s.focus.ctx
        | 1 =>
          if f.q.val = 0 then
            let w := (s3.bank s.focus.core s.focus.bank).wordAt c.trapPc.toNat
            s3.advance (if takesExt w then 2 else 1)
          else s3.skipWord f
        | _ =>
          (s3.modCur fun m => { m with abandon := some f.code }).after 0 rankStop
            (.taskStop s.focus.core s.focus.bank (.fault f.code))

end Sys2Proof.Machine
end

