-- ==== Sys2Proof/Machine/Engine.lean ====
section
/-! DEFINITION. What the engines of a core share: reading operands with the checks of R327 and R338, the limits on
micro-steps (R209, R311, R310), element writes under way (R89), and the answers of started words. -/

namespace Sys2Proof.Machine

open Sys2Proof

/-! ### Float results -/

/-- The code of a float result, with the saturation flag of R38: an overflow gives the largest value, an infinity that is
exact stays what R38 makes of an infinite source. -/
def finishOp (F : Fmt) (sat : Bool) (r : FVal × Flags) : Nat × Flags :=
  match r with
  | (.inf n, fl) =>
    if sat && (F.fbits == 2 || !F.ieee) && (fl &&& flagOF) != 0#6 then (F.encode (.ofRat (if n then -F.maxFin else F.maxFin)), fl)
    else (F.finish sat (.inf n), fl)
  | (v, fl) => (F.encode v, fl)

/-- The code of a NaN-checked pattern: a float NaN becomes the canonical NaN (R215, R216). -/
def canon (t : ElemType) (c : Nat) : Nat × Flags :=
  match t.fmt with
  | some F => match F.decode c with
    | .nan s => (F.nanCode, if s then flagINV else 0)
    | _ => (c, 0)
  | none => (c, 0)

/-! ### Reductions (R217) -/

/-- One level of the tree: present neighbours joined by the operation. -/
def treeLevel (op : Nat → Nat → Nat × Flags) : List (Option Nat) → List (Option Nat) × Flags
  | some a :: some b :: rest =>
    let (l, f) := treeLevel op rest
    let (v, g) := op a b
    (some v :: l, f ||| g)
  | some a :: none :: rest =>
    let (l, f) := treeLevel op rest
    (some a :: l, f)
  | none :: b :: rest =>
    let (l, f) := treeLevel op rest
    (b :: l, f)
  | l => (l, 0)

/-- Tree of R217 over leaves, in at most `fuel` levels. -/
def treeOf (op : Nat → Nat → Nat × Flags) : Nat → List (Option Nat) → Option Nat × Flags
  | 0, l => (l.head?.getD none, 0)
  | fuel + 1, l =>
    match l with
    | [] => (none, 0)
    | [x] => (x, 0)
    | l =>
      let (l', f) := treeLevel op l
      let (v, g) := treeOf op fuel l'
      (v, f ||| g)

/-! ### Limits and landings -/

/-- Micro-steps of VE and RE whose writes have not all been performed (R89, R209, R222). -/
def Image.inFlight (m : Image) : Nat := (m.elems.filter fun e => e.step).length

/-- The governor withholds the next token that a core asks for: its share of them, evenly spread (R310). -/
def State.tokHeld (s : State) (core : CoreIx) : Bool :=
  let n := (s.core core).asked
  let h := s.pkg.gov.share
  decide (n * h / 65536 < (n + 1) * h / 65536)

/-- Whether a core may issue a vector micro-step now (R310, R311). -/
def State.veToken (s : State) (core : CoreIx) : Bool :=
  !(s.tokHeld core) && decide ((s.core core).tokVe < fld 11 0 (s.col (coreCol core)).thermal.toNat)

/-- A token that a core has asked for in vain; one that its allowance refuses is noted for the interval's telemetry record
(R313). -/
def State.noteToken (s : State) (core : CoreIx) (ok : Bool) : State :=
  if ok then s
  else
    let s1 := s.modCore core fun k => { k with asked := k.asked + 1 }
    if s.tokHeld core then s1 else s1.modPkg fun p => { p with tele := { p.tele with refused := true } }

/-- What elements write: their bytes, and the flags they raise by the line in which each lies. -/
structure ElemOut where
  bytes : List ByteWrite
  flags : Store Flags

def ElemOut.empty : ElemOut := { bytes := [], flags := [] }

/-- Flags raised with a line. -/
def addFlags (l : Store Flags) (line : Nat) (f : Flags) : Store Flags := if f = 0 then l else l.put line (l.get 0 line ||| f)

def ElemOut.join (a b : ElemOut) : ElemOut :=
  { bytes := a.bytes ++ b.bytes, flags := b.flags.foldl (fun l x => addFlags l x.1 x.2) a.flags }

/-- An element of a region written, with the flags it raises. -/
def Region.out (r : Region) (k : Nat) (o : Nat × Flags) : ElemOut :=
  { bytes := r.writes k o.1, flags := addFlags [] ((r.offset k).toNat / 256) o.2 }

/-- The elements of a region from element k on, as the image lists them (R95). -/
def Region.slot (r : Region) (k n : Nat) : ElemSlot :=
  { first := (r.offset k).toNat, stride := if r.ty.isMx then 1 else r.stride, count := n, ty := r.ty }

/-- Element writes of the word in focus, requested in n cycles. `step`: they count as a micro-step. -/
def State.pendElems (s : State) (n : Nat) (o : ElemOut) (slot : ElemSlot) (step : Bool) : State :=
  s.modCur fun m =>
    { m with
      elems := m.elems ++
        [{ tid := m.tid, q := s.focus.q, ctx := s.focus.ctx, word := s.prog.started, due := m.cyc + n + s.lag
           bytes := o.bytes, flags := o.flags, slot, step }] }

/-- The part of an element write that the lines listed make, and what is left of it; one that writes nothing raises its
flags in its cycle. -/
def ElemWrite.split (e : ElemWrite) (lines : List Nat) : ElemWrite × ElemWrite :=
  if e.bytes.isEmpty then (e, { e with flags := [] })
  else
    let (b, rest) := e.bytes.partition fun x => lines.contains (x.off / 256)
    let (f, kept) := e.flags.partition fun x => lines.contains x.1
    ({ e with bytes := b, flags := f }, { e with bytes := rest, flags := kept })

/-- Element writes made: each line as it is granted, and with it the flags of its elements (R39, R89, R209). The flags go
to the context of the word in its bank, whatever task stands there by then. DESIGN CHOICE (log 102). -/
def State.writeElems (s : State) (core : CoreIx) (bank : BankIx) (l : List ElemWrite) : State :=
  (s.each l fun s e => s.writeL0 core e.bytes).modImg core bank fun m =>
    l.foldl (fun m e => m.modCtx e.ctx fun c => c.raise (e.flags.foldl (fun f x => f ||| x.2) 0)) m

/-- The lines of layer 0 that element write i of a bank has been granted in this cycle. -/
def State.elemLinesGranted (s : State) (core : CoreIx) (bank : BankIx) (i : Nat) : List Nat :=
  (s.core core).granted.filterMap fun r =>
    if r.who = .elem bank i then some (r.line % 8192) else none

/-- The element writes of a bank that are due land, in the order of their grants (R89, R209, R39); what is held lands in a
later cycle. -/
def State.landElems (s : State) (core : CoreIx) (bank : BankIx) : State :=
  let m := s.img core bank
  let parts := m.elems.zipIdx.map fun e =>
    if m.cyc < e.1.due then ({ e.1 with bytes := [], flags := [] }, e.1) else e.1.split (s.elemLinesGranted core bank e.2)
  (s.writeElems core bank (parts.map (·.1))).modImg core bank fun m =>
    { m with elems := (parts.map (·.2)).filter fun e => !(e.bytes.isEmpty && e.flags.isEmpty && decide (e.due ≤ m.cyc)) }

/-- Every element write of ME's accumulator words lands (R236). -/
def State.landWords (s : State) (core : CoreIx) (bank : BankIx) : State :=
  let mine := (s.img core bank).elems.filter fun e => e.q == 2
  (s.writeElems core bank mine).modImg core bank fun m => { m with elems := m.elems.filter fun e => e.q != 2 }

/-! ### Operand elements -/

/-- One element to be read or written: its region and index. -/
structure ElemRef where
  r : Region
  k : Nat

/-- The first of the elements listed that lies outside layer 0. -/
def firstOutside (l : List ElemRef) : Option ElemRef := l.find? fun e => !(e.r.inside e.k)

/-- The layer 0 lines of the elements listed. -/
def elemLines (l : List ElemRef) : List Nat :=
  (l.flatMap fun e =>
    let o := (e.r.offset e.k).toNat
    [o / 256, (o + e.r.elemBytes e.k - 1) / 256]).eraseDups

/-- The reads of the elements listed, as the store sees them (R336, R337). -/
def State.noteElems (s : State) (core : CoreIx) (l : List ElemRef) : State :=
  s.noteReads (l.map fun e => (keyL0 core.val (e.r.offset e.k).toNat, e.r.elemBytes e.k))

/-- The address of the lowest poisoned granule among the elements listed, in LOCAL form (R319, R338). -/
def State.poisonElems (s : State) (core : CoreIx) (l : List ElemRef) : Option Word :=
  if s.poison.isEmpty then none
  else
    let gs := l.filterMap fun e => s.poisonIn (keyL0 core.val (e.r.offset e.k).toNat) (e.r.elemBytes e.k)
    match gs with
    | [] => none
    | g :: rest => some (localAddr ((rest.foldl min g % 2 ^ 21 : Nat) : Int))

/-! ### Queue operands -/

/-- Whether the entries a word pops stand in the queues it names (R85, R206). -/
def Image.hasEntries (m : Image) (c : Fin 3) (l : List (Fin 16 × Nat)) : Bool :=
  l.all fun x => decide ((l.filter fun y => y.1 == x.1).foldl (fun n y => n + y.2) 0 ≤ (m.queue c x.1).length)

/-- The entries popped, in the order listed, and the image without them. -/
def Image.popEntries (m : Image) (c : Fin 3) (l : List (Fin 16 × Nat)) : List Word × Image :=
  l.foldl (fun a x => (a.1 ++ (a.2.queue c x.1).take x.2, a.2.dropQ c x.1 x.2)) ([], m)

/-- The entry number n that the word in focus has popped. -/
def State.popped (s : State) (n : Nat) : Word := s.prog.popped.getD n 0

/-- IRREV becomes 1 (R361). -/
def State.irrev (s : State) : State :=
  s.modCur fun m => { m with task := m.task.map fun t => { t with irrev := true } }

end Sys2Proof.Machine
end

