-- ==== Sys2Proof/Machine/Special.lean ====
section
/-! DEFINITION. The transcendental functions: the tables and coefficients of R49, the kernels of R50, the vector
functions of R51, the row engine's functions of R52, and the square root. -/

namespace Sys2Proof


/-- TX: 2^(j/64), in units of 2^−40 (R49). -/
def tableTX : List Nat :=
  [1099511627776, 1111484524408, 1123587797336, 1135822866266, 1148191166361, 1160694148413,
     1173333279014, 1186110040723, 1199025932245, 1212082468605, 1225281181324, 1238623618601,
     1252111345494, 1265745944104, 1279529013758, 1293462171200, 1307547050779, 1321785304641,
     1336178602923, 1350728633946, 1365437104419, 1380305739635, 1395336283673, 1410530499604,
     1425890169699, 1441417095635, 1457113098709, 1472980020050, 1489019720837, 1505234082514,
     1521625007013, 1538194416978, 1554944255988, 1571876488786, 1588993101510, 1606296101926]
  ++ [1623787519664, 1641469406453, 1659343836365, 1677412906057, 1695678735018, 1714143465815,
     1732809264348, 1751678320101, 1770752846399, 1790035080670, 1809527284706, 1829231744928,
     1849150772653, 1869286704369, 1889641902006, 1910218753212, 1931019671637, 1952047097213,
     1973303496441, 1994791362681, 2016513216442, 2038471605683, 2060669106106, 2083108321460,
     2105791883849, 2128722454038, 2151902721764, 2175335406057]

/-- TL: log2(1 + j/64), in units of 2^−40 (R49). -/
def tableTL : List Nat :=
  [0, 24593670513, 48811850439, 72665833379, 96166410953, 119323902126,
     142148180405, 164648699121, 186834514936, 208714309726, 230296410986, 251588810853,
     272599183877, 293334903628, 313803058232, 334010464915, 353963683636, 373669029871,
     393132586612, 412360215640, 431357568124, 450130094590, 468683054306, 487021524133,
     505150406860, 523074439069, 540798198572, 558326111421, 575662458546, 592811382031,
     609776891055, 626562867513, 643173071356, 659611145637, 675880621313, 691984921795]
  ++ [707927367273, 723711178821, 739339482309, 754815312112, 770141614652, 785321251761,
     800357003888, 815251573160, 830007586292, 844627597367, 859114090496, 873469482342,
     887696124545, 901796306033, 915772255233, 929626142182, 943360080554, 956976129588,
     970476295949, 983862535498, 997136754992, 1010300813719, 1023356525056, 1036305657968,
     1049149938451, 1061891050909, 1074530639480, 1087070309310]

/-- TC: 1/(1 + (2j + 1)/128), in units of 2^−40 (R49). -/
def tableTC : List Nat :=
  [1090988281824, 1074331972178, 1058176604175, 1042499913743, 1027280936900, 1012499916225,
     998138215286, 984178240247, 970603367968, 957397879968, 944546901714, 932036346724,
     919852865068, 907983795841, 896417123282, 885141436197, 874145890406, 863420173959,
     852954474881, 842739451230, 832766203286, 823026247692, 813511493383, 804214219173,
     795127052855, 786242951706, 777555184284, 769057313417, 760743180299, 752606889601,
     744642795531, 736845488771, 729209784224, 721730709515, 714403494189, 707223559575]
  ++ [700186509230, 693288119977, 686524333441, 679891248093, 673385111748, 667002314480,
     660739381950, 654592969095, 648559854172, 642636933129, 636821214278, 631109813253,
     625499948246, 619988935486, 614574184958, 609253196343, 604023555173, 598882929172,
     593829064790, 588859783914, 583972980728, 579166618746, 574438727981, 569787402248,
     565210796608, 560707124922, 556274657531, 551911719041]

/-- TS: (1 + 3(2j + 1)/128)^(−1/2), in units of 2^−40 (R49). -/
def tableTS : List Nat :=
  [1086848883471, 1062782825941, 1040247768061, 1019087975306, 999169025420, 980374199413,
     962601592463, 945761780949, 929775923359, 914574202834, 900094541022, 886281529078,
     873085533790, 860461945898, 848370544621, 836774957747, 825642200750, 814942281615,
     804647860584, 794733956025, 785177689207, 775958062043, 767055762892, 758452996318,
     750133333386, 742081579650, 734283658390, 726726507069, 719397985290, 712286792744,
     705382395918, 698674962474, 692155302350, 685814814811, 679645440731, 673639619516]
  ++ [667790250143, 662090655858, 656534552126, 651116017503, 645829467095, 640669628363,
     635631519015, 630710426776, 625901890866, 621201684997, 616605801763, 612110438275,
     607711982934, 603407003236, 599192234512, 595064569522, 591021048830, 587058851879,
     583175288731, 579367792384, 575633911646, 571971304501, 568377731935, 564851052186,
     561389215377, 557990258511, 554652300791, 551373539250]

/-- Entry j of a table. -/
def tabAt (t : List Nat) (j : Nat) : Rat := ((t.getD j 0 : Nat) : Rat) / ((2 ^ 40 : Nat) : Rat)

/-- The exact value of an FP32 code of R49. -/
def coeff (code : Nat) : Rat :=
  match fp32.decode code with
  | .fin _ x => x
  | _ => 0

def coefC1 : Rat := coeff 0x3F317218
def coefC2 : Rat := coeff 0x3E75FDF0
def coefC3 : Rat := coeff 0x3D635847
def coefLE : Rat := coeff 0x3FB8AA3B
def coefD2 : Rat := coeff 0xBF38AA3B
def coefD3 : Rat := coeff 0x3EF6384F
def coefH1 : Rat := coeff 0x3F000000
def coefH2 : Rat := coeff 0x3EC00000
def coefH3 : Rat := coeff 0x3EA00000

/-- E2 of R50. The power of two is kept between 2^−600 and 2^600: outside it every format overflows or rounds as at
the bound, so the result and the flags are those of the unbounded value. -/
def kernE2 (y : Rat) : Rat :=
  let n := (64 * y).floor
  let k := n / 64
  let j := (n - 64 * k).toNat
  let f := y - (n : Rat) / 64
  pow2 (satInt k (-600) 600) * tabAt tableTX j * (1 + f * (coefC1 + f * (coefC2 + f * coefC3)))

/-- LG of R50, for y > 0. -/
def kernLG (y : Rat) : Rat :=
  let e := floorLog2 y
  let m := y / pow2 e
  let j := (64 * (m - 1)).floor.toNat
  let r := (m - 1 - (j : Rat) / 64) / (1 + (j : Rat) / 64)
  (e : Rat) + tabAt tableTL j + r * (coefLE + r * (coefD2 + r * coefD3))

/-- RC of R50, for y > 0. -/
def kernRC (y : Rat) : Rat :=
  let e := floorLog2 y
  let m := y / pow2 e
  let j := (64 * (m - 1)).floor.toNat
  let t := tabAt tableTC j
  let d := 1 - m * t
  pow2 (-e) * t * (1 + d + d ^ 2 + d ^ 3)

/-- RS of R50, for y > 0. -/
def kernRS (y : Rat) : Rat :=
  let e0 := floorLog2 y
  let e := if e0 % 2 = 0 then e0 else e0 - 1
  let m := y / pow2 e
  let j := (64 * (m - 1) / 3).floor.toNat
  let t := tabAt tableTS j
  let d := 1 - m * t ^ 2
  pow2 (-e / 2) * t * (1 + d * (coefH1 + d * (coefH2 + d * coefH3)))

/-- Whether x is 2^k for an integer k, and that k. -/
def exactLog2 (x : Rat) : Option Int :=
  let k := floorLog2 x
  if pow2 k = x then some k else none

/-- Whether the format represents x ≠ 0. -/
def Fmt.represents (F : Fmt) (x : Rat) : Bool :=
  roundAt F.p F.emin .rne x == x && decide (ratAbs x ≤ F.maxFin)

/-- The exact result when the format represents it, else the kernel's value rounded once (R51). -/
def specRound (F : Fmt) (rm : Rounding) (exact : Option Rat) (kernel : Rat) : FVal × Flags :=
  match exact with
  | some x => if x ≠ 0 ∧ F.represents x = true then (.ofRat x, 0) else F.roundZ rm kernel false
  | none => F.roundZ rm kernel false

/-- exp2 of R51. -/
def specExp2 (F : Fmt) (rm : Rounding) (v : FVal) : FVal × Flags :=
  match v with
  | .nan s => (.nan false, if s then flagINV else 0)
  | .inf n => if n then (.fin false 0, 0) else (.inf false, 0)
  | .fin _ x =>
    if x = 0 then (.ofRat 1, 0)
    else specRound F rm (if x.den = 1 then some (pow2 (satInt x.num (-600) 600)) else none) (kernE2 x)

/-- log2 of R51. -/
def specLog2 (F : Fmt) (rm : Rounding) (v : FVal) : FVal × Flags :=
  match v with
  | .nan s => (.nan false, if s then flagINV else 0)
  | .inf n => if n then (.nan false, flagINV) else (.inf false, 0)
  | .fin _ x =>
    if x = 0 then (.inf true, flagDZ)
    else if x < 0 then (.nan false, flagINV)
    else specRound F rm ((exactLog2 x).map fun k => (k : Rat)) (kernLG x)

/-- recip of R51: rounded on the signed value. -/
def specRecip (F : Fmt) (rm : Rounding) (v : FVal) : FVal × Flags :=
  match v with
  | .nan s => (.nan false, if s then flagINV else 0)
  | .inf n => (.fin n 0, 0)
  | .fin n x =>
    if x = 0 then (.inf n, flagDZ)
    else
      let sgn : Rat := if x < 0 then -1 else 1
      specRound F rm ((exactLog2 (ratAbs x)).map fun k => sgn * pow2 (-k)) (sgn * kernRC (ratAbs x))

/-- rsqrt of R51. -/
def specRsqrt (F : Fmt) (rm : Rounding) (v : FVal) : FVal × Flags :=
  match v with
  | .nan s => (.nan false, if s then flagINV else 0)
  | .inf n => if n then (.nan false, flagINV) else (.fin false 0, 0)
  | .fin n x =>
    if x = 0 then (.inf n, flagDZ)
    else if x < 0 then (.nan false, flagINV)
    else
      let ex := match exactLog2 x with
        | some k => if k % 2 = 0 then some (pow2 (-(k / 2))) else none
        | none => none
      specRound F rm ex (kernRS x)

/-- tanh of R51. A small or large argument sets NX whatever the rounding gives. -/
def specTanh (F : Fmt) (rm : Rounding) (v : FVal) : FVal × Flags :=
  match v with
  | .nan s => (.nan false, if s then flagINV else 0)
  | .inf n => (.ofRat (if n then -1 else 1), 0)
  | .fin n x =>
    if x = 0 then (.fin n 0, 0)
    else
      let a := ratAbs x
      let sgn : Rat := if x < 0 then -1 else 1
      if a < pow2 (-12) then
        let (r, f) := F.round rm x
        (r, f ||| flagNX)
      else if 9 ≤ a then (.ofRat sgn, flagNX)
      else F.roundZ rm (sgn * (1 - 2 * kernRC (kernE2 (2 * a * coefLE) + 1))) false

/-- floor of the square root of n, found bit by bit from bit `fuel` down. -/
def isqrt (n : Nat) : Nat → Nat → Nat
  | 0, r => r
  | fuel + 1, r =>
    let c := r + 2 ^ fuel
    if c * c ≤ n then isqrt n fuel c else isqrt n fuel r

/-- A rational that every format rounds as it rounds √x, for x > 0: the root cut to a multiple of 2^−200, with half
a unit added when something was cut off. No rounding boundary of a root lies inside such a unit. -/
def sqrtSticky (x : Rat) : Rat :=
  let n := (x * pow2 400).floor.toNat
  let r := isqrt n 300 0
  if (r : Rat) * (r : Rat) = x * pow2 400 then (r : Rat) * pow2 (-200)
  else ((2 * r + 1 : Nat) : Rat) * pow2 (-201)

/-- The square root of R40, rounded once. -/
def floatSqrt (F : Fmt) (rm : Rounding) (v : FVal) : FVal × Flags :=
  match v with
  | .nan s => (.nan false, if s then flagINV else 0)
  | .inf n => if n then (.nan false, flagINV) else (.inf false, 0)
  | .fin n x =>
    if x = 0 then (.fin n 0, 0)
    else if x < 0 then (.nan false, flagINV)
    else F.round rm (sqrtSticky x)

/-- The FP32 code of exp(x) of R52. -/
def rowExp (v : FVal) : FVal :=
  match v with
  | .nan _ => .nan false
  | .inf n => if n then .fin false 0 else .inf false
  | .fin _ x => if x = 0 then .ofRat 1 else (fp32.roundZ .rne (kernE2 (x * coefLE)) false).1

/-! ### Element arithmetic of R40 -/

/-- The NaN result of an operation that read the operands given: INV only for a signalling one. -/
def nanOf (vs : List FVal) : FVal × Flags := (.nan false, if vs.any FVal.isSNaN then flagINV else 0)

/-- The sign of an exact zero sum of operands of opposite sign (R37). -/
def zeroSumNeg (rm : Rounding) : Bool := rm == .rd

/-- a × b + c rounded once; add, subtract and multiply are its cases. `zs` is the sign of a zero result whose terms
are all zero with one sign. -/
def floatFma (F : Fmt) (rm : Rounding) (a b c : FVal) : FVal × Flags :=
  if a.isNaN || b.isNaN || c.isNaN then nanOf [a, b, c]
  else
    let pneg := a.neg? != b.neg?
    match a, b, c with
    | .fin _ x, .fin _ y, .fin cn z =>
      let s := x * y + z
      if s = 0 then
        let zneg := if pneg == cn then cn else zeroSumNeg rm
        (.fin zneg 0, 0)
      else F.round rm s
    | .fin _ _, .fin _ _, .inf cn => (.inf cn, 0)
    | .inf _, y, c =>
      if y.isZero then (.nan false, flagINV)
      else match c with
        | .inf cn => if cn == pneg then (.inf cn, 0) else (.nan false, flagINV)
        | _ => (.inf pneg, 0)
    | x, .inf _, c =>
      if x.isZero then (.nan false, flagINV)
      else match c with
        | .inf cn => if cn == pneg then (.inf cn, 0) else (.nan false, flagINV)
        | _ => (.inf pneg, 0)
    | _, _, _ => (.nan false, flagINV)

/-- The value with its sign turned; a NaN stays as it is. -/
def FVal.negate : FVal → FVal
  | .nan s => .nan s
  | .inf n => .inf (!n)
  | .fin n x => .fin (!n) (-x)

def FVal.abs : FVal → FVal
  | .nan s => .nan s
  | .inf _ => .inf false
  | .fin _ x => .fin false (ratAbs x)

def floatAdd (F : Fmt) (rm : Rounding) (a b : FVal) : FVal × Flags := floatFma F rm a (.ofRat 1) b
def floatSub (F : Fmt) (rm : Rounding) (a b : FVal) : FVal × Flags := floatFma F rm a (.ofRat 1) b.negate

/-- The product rounded once; a zero product has the sign of the factors. -/
def floatMul (F : Fmt) (rm : Rounding) (a b : FVal) : FVal × Flags :=
  if a.isNaN || b.isNaN then nanOf [a, b]
  else
    let neg := a.neg? != b.neg?
    match a, b with
    | .fin _ x, .fin _ y => F.roundZ rm (x * y) neg
    | x, y => if x.isZero || y.isZero then (.nan false, flagINV) else (.inf neg, 0)

/-- The quotient rounded once. -/
def floatDiv (F : Fmt) (rm : Rounding) (a b : FVal) : FVal × Flags :=
  if a.isNaN || b.isNaN then nanOf [a, b]
  else
    let neg := a.neg? != b.neg?
    match a, b with
    | .fin _ x, .fin _ y =>
      if y = 0 then (if x = 0 then (.nan false, flagINV) else (.inf neg, flagDZ))
      else F.roundZ rm (x / y) neg
    | .fin _ _, .inf _ => (.fin neg 0, 0)
    | .inf _, .fin _ _ => (.inf neg, 0)
    | _, _ => (.nan false, flagINV)

/-- Whether a is numerically below b, −0 counting below +0; neither is NaN. -/
def floatBelow (a b : FVal) : Bool :=
  match a, b with
  | .inf n, .inf m => n && !m
  | .inf n, _ => n
  | _, .inf m => !m
  | .fin n x, .fin m y => decide (x < y) || (decide (x = y) && n && !m)
  | _, _ => false

/-- Min (or max) of R40. -/
def floatMinMax (isMax : Bool) (a b : FVal) : FVal × Flags :=
  let fl : Flags := if a.isSNaN || b.isSNaN then flagINV else 0
  if a.isNaN && b.isNaN then (.nan false, fl)
  else if a.isNaN then (b, fl)
  else if b.isNaN then (a, fl)
  else if floatBelow a b then (if isMax then b else a, fl)
  else (if isMax then a else b, fl)

/-- Numeric comparison: none when an operand is NaN. -/
def floatCmp (a b : FVal) : Option Ordering :=
  if a.isNaN || b.isNaN then none
  else match a, b with
    | .fin _ x, .fin _ y => some (if x < y then .lt else if x = y then .eq else .gt)
    | x, y => some (if floatBelow x y then .lt else if floatBelow y x then .gt else .eq)

end Sys2Proof
end

