-- ==== Sys2Proof/Machine/Vec.lean ====
section
/-! DEFINITION. The vector engine (R203 to R218): what each VEC word computes of each element, its start with the checks
of R327, and its micro-steps (R206, R207). -/

namespace Sys2Proof.Machine

open Sys2Proof

/-! ### What a VEC word is -/

/-- How a word goes through its elements. -/
inductive VecForm where
  /-- element k from element k of each source -/
  | map
  /-- blocks of 32 elements to an MX type with scales (R42) -/
  | toMx
  /-- elements of an MX type with scales (R42) -/
  | ofMx
  /-- the tree of R217 -/
  | reduce
  | gather
  | scatter
  deriving DecidableEq, Repr

/-- What a VEC word does: its regions, its popped entries, its latency, what it requires of its regions' types, and
its element function, given the types of D and A, the entries popped, k, and the codes of a, b and d. -/
structure VecSpec where
  lat : Nat
  d : Fin 16
  a : Option (Fin 16)
  b : ElemType → ElemType → Option (Fin 16)
  readD : Bool
  /-- the queue operand and the entries it pops -/
  queue : Option (Fin 16 × Nat)
  form : ElemType → ElemType → VecForm
  types : ElemType → ElemType → ElemType → Option (BitVec 16)
  /-- the fault that the rounding mode or saturating flag raises with the types found at start -/
  elem : ElemType → ElemType → List Word → Nat → Nat → Nat → Nat → Nat × Flags
  rm : Rounding

/-- Every region named has the operation type (R203). -/
def typesAll (t : ElemType) (d a b : ElemType) : Option (BitVec 16) :=
  if d = t ∧ a = t ∧ b = t then none else some 0x0303

/-- A word of two sources in the operation type (R211). -/
def spec2 (lat : Nat) (t : ElemType) (d a b : Fin 16) (readD : Bool) (f : Nat → Nat → Nat → Nat × Flags) : VecSpec :=
  { lat, d, a := some a, b := fun _ _ => some b, readD, queue := none, form := fun _ _ => .map, types := typesAll t
    elem := fun _ _ _ _ x y z => f x y z, rm := .rne }

/-- A word of one source in the operation type (R211, R213). -/
def spec1 (lat : Nat) (t : ElemType) (d a : Fin 16) (f : Nat → Nat × Flags) : VecSpec :=
  { lat, d, a := some a, b := fun _ _ => none, readD := false, queue := none, form := fun _ _ => .map
    types := fun dt at' _ => typesAll t dt at' t, elem := fun _ _ _ _ x _ _ => f x, rm := .rne }

/-! ### Element functions -/

/-- An integer result under M0 (R212): it wraps, or is Sat, with SAT when Sat and the wrapped result differ. -/
def vecInt (t : ElemType) (sat : Bool) (x : Int) : Nat × Flags :=
  if sat then
    let v := intCode t.bits (satInt x (intLo t.signed t.bits) (intHi t.signed t.bits))
    (v, if v = intCode t.bits x then 0 else flagSAT)
  else (intCode t.bits x, 0)

def ElemType.int (t : ElemType) (c : Nat) : Int := intOf t.signed t.bits c

/-- A two-operand result: the float operation rounded once, or the integer operation (R211, R212). -/
def arith2 (t : ElemType) (r : Rounding) (sat : Bool) (f : Fmt → Rounding → FVal → FVal → FVal × Flags)
    (g : Int → Int → Int) (a b : Nat) : Nat × Flags :=
  match t.fmt with
  | some F => finishOp F sat (f F r (F.decode a) (F.decode b))
  | none => vecInt t sat (g (ElemType.int t a) (ElemType.int t b))

/-- A three-operand result: the sum of a product and d, each under its sign (R211). -/
def arith3 (t : ElemType) (r : Rounding) (sat : Bool) (pneg dneg : Bool) (a b d : Nat) : Nat × Flags :=
  match t.fmt with
  | some F =>
    let x := F.decode a
    let z := F.decode d
    finishOp F sat (floatFma F r (if pneg then x.negate else x) (F.decode b) (if dneg then z.negate else z))
  | none =>
    let m := ElemType.int t a * ElemType.int t b
    let z := ElemType.int t d
    vecInt t sat ((if pneg then -m else m) + (if dneg then -z else z))

/-- Division (R211, R212): the integer quotient of R184 at the type's width. -/
def elemDiv (t : ElemType) (r : Rounding) (sat : Bool) (a b : Nat) : Nat × Flags :=
  match t.fmt with
  | some F => finishOp F sat (floatDiv F r (F.decode a) (F.decode b))
  | none =>
    if b % 2 ^ t.bits = 0 then (2 ^ t.bits - 1, 0)
    else vecInt t sat (Int.tdiv (ElemType.int t a) (ElemType.int t b))

/-- `v.min` and `v.max` (R211, R40). -/
def elemMinMax (t : ElemType) (isMax : Bool) (sat : Bool) (a b : Nat) : Nat × Flags :=
  match t.fmt with
  | some F => finishOp F sat (floatMinMax isMax (F.decode a) (F.decode b))
  | none =>
    let x := ElemType.int t a
    let y := ElemType.int t b
    (intCode t.bits (if isMax then max x y else min x y), 0)

/-- `v.abs` and `v.neg` (R212): of a float, only the sign bit. -/
def elemSign (t : ElemType) (neg : Bool) (sat : Bool) (a : Nat) : Nat × Flags :=
  match t.fmt with
  | some F => match F.decode a with
    | .nan s => (F.nanCode, if s then flagINV else 0)
    | _ =>
      let top := 2 ^ (t.bits - 1)
      (if neg then a ^^^ top else a % top, 0)
  | none =>
    let x := ElemType.int t a
    vecInt t sat (if neg then -x else if x < 0 then -x else x)

/-- A function of one float operand, rounded into the same format (R211, R213). -/
def elemFloat (t : ElemType) (f : Fmt → FVal → FVal × Flags) (a : Nat) : Nat × Flags :=
  match t.fmt with
  | some F => finishOp F false (f F (F.decode a))
  | none => (a, 0)

/-- The shifts of R211 on patterns of w bits. -/
def elemShl (t : ElemType) (a b : Nat) : Nat × Flags := (a * 2 ^ (b % t.bits) % 2 ^ t.bits, 0)
def elemShr (t : ElemType) (a b : Nat) : Nat × Flags := (a / 2 ^ (b % t.bits), 0)
def elemSra (t : ElemType) (a b : Nat) : Nat × Flags :=
  (intCode t.bits (Int.fdiv (intOf true t.bits a) (2 ^ (b % t.bits) : Nat)), 0)

/-- Bits [2w−1:w] of the exact product (R211). -/
def elemMulh (t : ElemType) (a b : Nat) : Nat × Flags :=
  (intCode t.bits (Int.fdiv (ElemType.int t a * ElemType.int t b) (2 ^ t.bits : Nat)), 0)

/-- The conditions of the comparisons (R215), with INV. -/
inductive VecCond where
  | eq | ne | lt | le
  deriving DecidableEq, Repr

def elemCmp (t : ElemType) (c : VecCond) (a b : Nat) : Nat × Flags :=
  let yes := 2 ^ t.bits - 1
  match t.fmt with
  | some F =>
    let x := F.decode a
    let y := F.decode b
    let inv := match c with
      | .eq | .ne => x.isSNaN || y.isSNaN
      | .lt | .le => x.isNaN || y.isNaN
    let hold : Bool := match floatCmp x y, c with
      | none, .ne => true
      | none, _ => false
      | some o, .eq => o == .eq
      | some o, .ne => o != .eq
      | some o, .lt => o == .lt
      | some o, .le => o != .gt
    (if hold then yes else 0, if inv then flagINV else 0)
  | none =>
    let x := ElemType.int t a
    let y := ElemType.int t b
    let hold : Bool := match c with
      | .eq => decide (x = y)
      | .ne => decide (x ≠ y)
      | .lt => decide (x < y)
      | .le => decide (x ≤ y)
    (if hold then yes else 0, 0)

/-- The unsigned type of the same width (R215). -/
def unsignedOf (t : ElemType) : ElemType :=
  match t.bits with
  | 8 => .n8
  | 16 => .n16
  | 32 => .n32
  | _ => .n64

/-- The scalar of R214: the entry's low w bits. -/
def scalarOf (t : ElemType) (l : List Word) (n : Nat) : Nat := (l.getD n 0).toNat % 2 ^ t.bits

/-! ### The words -/

/-- A comparison: D of the unsigned type of the same width (R215). -/
def specCmp (t : ElemType) (c : VecCond) (d a b : Fin 16) : VecSpec :=
  { spec2 8 t d a b false fun x y _ => elemCmp t c x y with
    types := fun dt at' bt => if dt = unsignedOf t ∧ at' = t ∧ bt = t then none else some 0x0303 }

/-- A reduction (R217). -/
def specReduce (t : ElemType) (d a : Fin 16) (op : Nat → Nat → Nat × Flags) : VecSpec :=
  { spec2 20 t d a a false fun x y _ => op x y with
    b := fun _ _ => none, form := fun _ _ => .reduce, types := fun dt at' _ => typesAll t dt at' t }

/-- Data regions of the type, indices of `.i32` or `.n32` (R218). -/
def typesIndex (t : ElemType) (d a b : ElemType) : Option (BitVec 16) :=
  if d = t ∧ a = t ∧ (b = .i32 ∨ b = .n32) then none else some 0x0303

/-- The types of the words that pop a scalar: A of D's type, and no MX type (R214). -/
def typesQ (d a _b : ElemType) : Option (BitVec 16) := if a = d ∧ !d.isMx then none else some 0x0303
def typesFill (d _a _b : ElemType) : Option (BitVec 16) := if d.isMx then some 0x0303 else none

/-- The rounding mode and saturating flag that D's type, known at start, forbids (R212, R224). -/
def roundSat (t : ElemType) (r : Rounding) (sat : Bool) : Option (BitVec 16) :=
  if roundingOk t r && satOk t sat then none else some 0x0103

/-- A word that pops its scalar (R214). -/
def specQ (q : Fin 16) (n : Nat) (d : Fin 16) (a : Option (Fin 16)) (readD : Bool)
    (types : ElemType → ElemType → ElemType → Option (BitVec 16)) (r : Rounding) (sat : Bool)
    (f : ElemType → List Word → Nat → Nat → Nat → Nat × Flags) : VecSpec :=
  { lat := 8, d, a, b := fun _ _ => none, readD, queue := some (q, n), form := fun _ _ => .map
    types := fun dt at' bt => (roundSat dt r sat).or (types dt at' bt)
    elem := fun dt _ l k x _ z => f dt l k x z, rm := r }

/-- `v.iota`: an exact integer as an element (R214). -/
def elemIota (t : ElemType) (r : Rounding) (sat : Bool) (x : Int) : Nat × Flags :=
  match t.fmt with
  | some F => finishOp F sat (F.roundZ r (x : Rat) false)
  | none => vecInt t sat x

/-- `v.cvt` (R216): a pair with an MX side takes its scales from a third region; an MX type pairs only with a float
type, and a third region is named only then. Region TYPE comes before what R224 finds only at the start. DESIGN CHOICE, log
entry 23. -/
def specCvt (t : ElemType) (r : Rounding) (d a : Fin 16) (sat : Bool) (b : Fin 16) : VecSpec :=
  { lat := 8, d, a := some a, readD := false, queue := none, rm := r
    b := fun dt at' => if dt.isMx || at'.isMx then some b else none
    form := fun dt at' => if dt.isMx then .toMx else if at'.isMx then .ofMx else .map
    types := fun dt at' bt =>
      if dt ≠ t then some 0x0303
      else if (dt.isMx && !at'.isFloat) || (at'.isMx && !dt.isFloat) then some 0x0103
      else if dt.isMx || at'.isMx then (if bt = .n8 then none else some 0x0303)
      else if b.val ≠ 0 then some 0x0102 else none
    elem := fun dt at' _ _ x sc _ =>
      if at'.isMx then
        match dt.fmt with
        | some F => cvtFF (mxVal at'.mxWidth sc x) F r sat
        | none => (0, 0)
      else cvtElem at' dt r sat x }

/-- x = a + b (R211). -/
def specVAdd (t : ElemType) (r : Rounding) (d : Fin 16) (a : Fin 16) (sat : Bool) (b : Fin 16) : VecSpec :=
  spec2 8 t d a b false fun x y _ => arith2 t r sat floatAdd (fun x y => x + y) x y

/-- x = a − b (R211). -/
def specVSub (t : ElemType) (r : Rounding) (d : Fin 16) (a : Fin 16) (sat : Bool) (b : Fin 16) : VecSpec :=
  spec2 8 t d a b false fun x y _ => arith2 t r sat floatSub (fun x y => x - y) x y

/-- x = a × b (R211). -/
def specVMul (t : ElemType) (r : Rounding) (d : Fin 16) (a : Fin 16) (sat : Bool) (b : Fin 16) : VecSpec :=
  spec2 8 t d a b false fun x y _ => arith2 t r sat floatMul (fun x y => x * y) x y

/-- x = a / b (R211). -/
def specVDiv (t : ElemType) (r : Rounding) (d : Fin 16) (a : Fin 16) (sat : Bool) (b : Fin 16) : VecSpec :=
  spec2 14 t d a b false fun x y _ => elemDiv t r sat x y

/-- x = a × b + d (R211). -/
def specVFma (t : ElemType) (r : Rounding) (d : Fin 16) (a : Fin 16) (sat : Bool) (b : Fin 16) : VecSpec :=
  spec2 8 t d a b true fun x y z => arith3 t r sat false false x y z

/-- x = a × b − d (R211). -/
def specVFms (t : ElemType) (r : Rounding) (d : Fin 16) (a : Fin 16) (sat : Bool) (b : Fin 16) : VecSpec :=
  spec2 8 t d a b true fun x y z => arith3 t r sat false true x y z

/-- x = d − a × b (R211). -/
def specVFnma (t : ElemType) (r : Rounding) (d : Fin 16) (a : Fin 16) (sat : Bool) (b : Fin 16) : VecSpec :=
  spec2 8 t d a b true fun x y z => arith3 t r sat true false x y z

/-- The smaller (R211). -/
def specVMin (t : ElemType) (_r : Rounding) (d : Fin 16) (a : Fin 16) (sat : Bool) (b : Fin 16) : VecSpec :=
  spec2 8 t d a b false fun x y _ => elemMinMax t false sat x y

/-- The larger (R211). -/
def specVMax (t : ElemType) (_r : Rounding) (d : Fin 16) (a : Fin 16) (sat : Bool) (b : Fin 16) : VecSpec :=
  spec2 8 t d a b false fun x y _ => elemMinMax t true sat x y

/-- |a| (R211). -/
def specVAbs (t : ElemType) (_r : Rounding) (d : Fin 16) (a : Fin 16) (sat : Bool) : VecSpec :=
  spec1 8 t d a (elemSign t false sat)

/-- −a (R211). -/
def specVNeg (t : ElemType) (_r : Rounding) (d : Fin 16) (a : Fin 16) (sat : Bool) : VecSpec :=
  spec1 8 t d a (elemSign t true sat)

/-- The square root (R211). -/
def specVSqrt (t : ElemType) (r : Rounding) (d : Fin 16) (a : Fin 16) : VecSpec :=
  spec1 14 t d a (elemFloat t fun F v => floatSqrt F r v)

/-- The function of R51 (R213). -/
def specVExp2 (t : ElemType) (r : Rounding) (d : Fin 16) (a : Fin 16) : VecSpec :=
  spec1 14 t d a (elemFloat t fun F v => specExp2 F r v)

/-- The function of R51 (R213). -/
def specVLog2 (t : ElemType) (r : Rounding) (d : Fin 16) (a : Fin 16) : VecSpec :=
  spec1 14 t d a (elemFloat t fun F v => specLog2 F r v)

/-- The function of R51 (R213). -/
def specVRecip (t : ElemType) (r : Rounding) (d : Fin 16) (a : Fin 16) : VecSpec :=
  spec1 14 t d a (elemFloat t fun F v => specRecip F r v)

/-- The function of R51 (R213). -/
def specVRsqrt (t : ElemType) (r : Rounding) (d : Fin 16) (a : Fin 16) : VecSpec :=
  spec1 14 t d a (elemFloat t fun F v => specRsqrt F r v)

/-- The function of R51 (R213). -/
def specVTanh (t : ElemType) (r : Rounding) (d : Fin 16) (a : Fin 16) : VecSpec :=
  spec1 14 t d a (elemFloat t fun F v => specTanh F r v)

/-- a and b (R211). -/
def specVAnd (t : ElemType) (d : Fin 16) (a : Fin 16) (b : Fin 16) : VecSpec :=
  spec2 8 t d a b false fun x y _ => (x &&& y, 0)

/-- a or b (R211). -/
def specVOr (t : ElemType) (d : Fin 16) (a : Fin 16) (b : Fin 16) : VecSpec :=
  spec2 8 t d a b false fun x y _ => (x ||| y, 0)

/-- a xor b (R211). -/
def specVXor (t : ElemType) (d : Fin 16) (a : Fin 16) (b : Fin 16) : VecSpec :=
  spec2 8 t d a b false fun x y _ => (x ^^^ y, 0)

/-- a << c (R211). -/
def specVShl (t : ElemType) (d : Fin 16) (a : Fin 16) (b : Fin 16) : VecSpec :=
  spec2 8 t d a b false fun x y _ => elemShl t x y

/-- The pattern >> c (R211). -/
def specVShr (t : ElemType) (d : Fin 16) (a : Fin 16) (b : Fin 16) : VecSpec :=
  spec2 8 t d a b false fun x y _ => elemShr t x y

/-- The pattern >> c, its top bit shifted in (R211). -/
def specVSra (t : ElemType) (d : Fin 16) (a : Fin 16) (b : Fin 16) : VecSpec :=
  spec2 8 t d a b false fun x y _ => elemSra t x y

/-- The high half of the product (R211). -/
def specVMulh (t : ElemType) (d : Fin 16) (a : Fin 16) (b : Fin 16) : VecSpec :=
  spec2 8 t d a b false fun x y _ => elemMulh t x y

/-- The mask of a comparison (R215). -/
def specVCmpeq (t : ElemType) (d : Fin 16) (a : Fin 16) (b : Fin 16) : VecSpec :=
  specCmp t .eq d a b

/-- The mask of a comparison (R215). -/
def specVCmpne (t : ElemType) (d : Fin 16) (a : Fin 16) (b : Fin 16) : VecSpec :=
  specCmp t .ne d a b

/-- The mask of a comparison (R215). -/
def specVCmplt (t : ElemType) (d : Fin 16) (a : Fin 16) (b : Fin 16) : VecSpec :=
  specCmp t .lt d a b

/-- The mask of a comparison (R215). -/
def specVCmple (t : ElemType) (d : Fin 16) (a : Fin 16) (b : Fin 16) : VecSpec :=
  specCmp t .le d a b

/-- a where the mask d is not zero, else b (R215). -/
def specVSel (t : ElemType) (d : Fin 16) (a : Fin 16) (b : Fin 16) : VecSpec :=
  spec2 8 t d a b true fun x y z => ((canon t (if z = 0 then y else x)).1, 0)

/-- The conversion of R216. -/
def specVCvt (t : ElemType) (r : Rounding) (d : Fin 16) (a : Fin 16) (sat : Bool) (b : Fin 16) : VecSpec :=
  specCvt t r d a sat b

/-- The sum by the tree of R217. -/
def specVRsum (t : ElemType) (r : Rounding) (d : Fin 16) (a : Fin 16) (sat : Bool) : VecSpec :=
  specReduce t d a fun x y => arith2 t r sat floatAdd (fun m n => m + n) x y

/-- The largest by the tree of R217. -/
def specVRmax (t : ElemType) (d : Fin 16) (a : Fin 16) : VecSpec :=
  specReduce t d a fun x y => elemMinMax t true false x y

/-- The smallest by the tree of R217. -/
def specVRmin (t : ElemType) (d : Fin 16) (a : Fin 16) : VecSpec :=
  specReduce t d a fun x y => elemMinMax t false false x y

/-- The patterns moved (R216). -/
def specVCopy (t : ElemType) (d : Fin 16) (a : Fin 16) : VecSpec :=
  spec1 8 t d a (canon t)

/-- s's pattern (R214). -/
def specVFill (q : Fin 16) (d : Fin 16) : VecSpec :=
  specQ q 1 d none false typesFill .rne false fun t l _ _ _ => canon t (scalarOf t l 0)

/-- x = s + k (R214). -/
def specVIota (q : Fin 16) (r : Rounding) (d : Fin 16) (sat : Bool) : VecSpec :=
  specQ q 1 d none false typesFill r sat fun t l k _ _ => elemIota t r sat ((l.getD 0 0).toInt + (k : Int))

/-- min(max(a, lo), hi) (R214). -/
def specVClamp (q : Fin 16) (d : Fin 16) (a : Fin 16) : VecSpec :=
  specQ q 2 d (some a) false typesQ .rne false fun t l _ x _ =>
    let (m, f) := elemMinMax t true false x (scalarOf t l 0)
    let (v, g) := elemMinMax t false false m (scalarOf t l 1)
    (v, f ||| g)

/-- x = a + s (R214). -/
def specVAddq (q : Fin 16) (r : Rounding) (d : Fin 16) (a : Fin 16) (sat : Bool) : VecSpec :=
  specQ q 1 d (some a) false typesQ r sat fun t l _ x _ => arith2 t r sat floatAdd (fun m n => m + n) x (scalarOf t l 0)

/-- x = a × s (R214). -/
def specVMulq (q : Fin 16) (r : Rounding) (d : Fin 16) (a : Fin 16) (sat : Bool) : VecSpec :=
  specQ q 1 d (some a) false typesQ r sat fun t l _ x _ => arith2 t r sat floatMul (fun m n => m * n) x (scalarOf t l 0)

/-- x = a × s + d (R214). -/
def specVFmaq (q : Fin 16) (r : Rounding) (d : Fin 16) (a : Fin 16) (sat : Bool) : VecSpec :=
  specQ q 1 d (some a) true typesQ r sat fun t l _ x z => arith3 t r sat false false x (scalarOf t l 0) z

/-- d[k] := the element of A at b[k] (R218). -/
def specVGather (t : ElemType) (d : Fin 16) (a : Fin 16) (b : Fin 16) : VecSpec :=
  { spec2 8 t d a b false fun x _ _ => canon t x with form := fun _ _ => .gather, types := typesIndex t }

/-- The element of D at b[k] := a[k] (R218). -/
def specVScatter (t : ElemType) (d : Fin 16) (a : Fin 16) (b : Fin 16) : VecSpec :=
  { spec2 8 t d a b false fun x _ _ => canon t x with form := fun _ _ => .scatter, types := typesIndex t }

/-- The number of 1 bits (R211). -/
def specVCnt (t : ElemType) (d : Fin 16) (a : Fin 16) : VecSpec :=
  spec1 8 t d a fun x => (countOnes x t.bits, 0)

/-- The element function and regions of a VEC word; none of any other word. -/
def vecSpecOf (i : Instr) : Option VecSpec :=
  match i with
  | .vAdd _ t r d a sat b => some (specVAdd t r d a sat b)
  | .vSub _ t r d a sat b => some (specVSub t r d a sat b)
  | .vMul _ t r d a sat b => some (specVMul t r d a sat b)
  | .vDiv _ t r d a sat b => some (specVDiv t r d a sat b)
  | .vFma _ t r d a sat b => some (specVFma t r d a sat b)
  | .vFms _ t r d a sat b => some (specVFms t r d a sat b)
  | .vFnma _ t r d a sat b => some (specVFnma t r d a sat b)
  | .vMin _ t r d a sat b => some (specVMin t r d a sat b)
  | .vMax _ t r d a sat b => some (specVMax t r d a sat b)
  | .vAbs _ t r d a sat => some (specVAbs t r d a sat)
  | .vNeg _ t r d a sat => some (specVNeg t r d a sat)
  | .vSqrt _ t r d a => some (specVSqrt t r d a)
  | .vExp2 _ t r d a => some (specVExp2 t r d a)
  | .vLog2 _ t r d a => some (specVLog2 t r d a)
  | .vRecip _ t r d a => some (specVRecip t r d a)
  | .vRsqrt _ t r d a => some (specVRsqrt t r d a)
  | .vTanh _ t r d a => some (specVTanh t r d a)
  | .vAnd _ t d a b => some (specVAnd t d a b)
  | .vOr _ t d a b => some (specVOr t d a b)
  | .vXor _ t d a b => some (specVXor t d a b)
  | .vShl _ t d a b => some (specVShl t d a b)
  | .vShr _ t d a b => some (specVShr t d a b)
  | .vSra _ t d a b => some (specVSra t d a b)
  | .vMulh _ t d a b => some (specVMulh t d a b)
  | .vCmpeq _ t d a b => some (specVCmpeq t d a b)
  | .vCmpne _ t d a b => some (specVCmpne t d a b)
  | .vCmplt _ t d a b => some (specVCmplt t d a b)
  | .vCmple _ t d a b => some (specVCmple t d a b)
  | .vSel _ t d a b => some (specVSel t d a b)
  | .vCvt _ t r d a sat b => some (specVCvt t r d a sat b)
  | .vRsum _ t r d a sat => some (specVRsum t r d a sat)
  | .vRmax _ t d a => some (specVRmax t d a)
  | .vRmin _ t d a => some (specVRmin t d a)
  | .vCopy _ t d a => some (specVCopy t d a)
  | .vFill _ q d => some (specVFill q d)
  | .vIota _ q r d sat => some (specVIota q r d sat)
  | .vClamp _ q d a => some (specVClamp q d a)
  | .vAddq _ q r d a sat => some (specVAddq q r d a sat)
  | .vMulq _ q r d a sat => some (specVMulq q r d a sat)
  | .vFmaq _ q r d a sat => some (specVFmaq q r d a sat)
  | .vGather _ t d a b => some (specVGather t d a b)
  | .vScatter _ t d a b => some (specVScatter t d a b)
  | .vCnt _ t d a => some (specVCnt t d a)
  | _ => none

/-! ### Start -/

/-- A word that pops a scalar and is not an instruction with the type that its D has as it starts (R224): it faults without
popping (R328). -/
def Image.barred (m : Image) (i : Instr) : Bool :=
  let bad (d : Fin 16) (r : Rounding) (sat : Bool) : Bool := (roundSat (regionOf m.va[d.val]).ty r sat).isSome
  match i with
  | .vIota _ _ r d sat => bad d r sat
  | .vAddq _ _ r d _ sat => bad d r sat
  | .vMulq _ _ r d _ sat => bad d r sat
  | .vFmaq _ _ r d _ sat => bad d r sat
  | _ => false

/-- Lanes (R205), from the widest element read or written. -/
def lanesOf (l : List ElemType) : Nat :=
  let w := l.foldl (fun m t => max m t.bits) 0
  if 64 ≤ w then 512 else if 32 ≤ w then 1024 else if 16 ≤ w then 2048 else 4096

/-- The regions of a word as its start found them. -/
structure VecRegions where
  d : Region
  a : Option Region
  b : Option Region

/-- The regions of a word from its region words. -/
def VecSpec.regions (v : VecSpec) (wd wa wb : Word) : VecRegions :=
  let d := regionOf wd
  let a := v.a.map fun _ => regionOf wa
  let at' := match a with
    | some r => r.ty
    | none => d.ty
  { d, a, b := (v.b d.ty at').map fun _ => regionOf wb }

def VecRegions.aty (r : VecRegions) : ElemType :=
  match r.a with
  | some a => a.ty
  | none => r.d.ty

def VecRegions.bty (r : VecRegions) : ElemType :=
  match r.b with
  | some b => b.ty
  | none => r.d.ty

/-- The regions of A and B; D's where the word names none. -/
def VecRegions.ra (r : VecRegions) : Region := r.a.getD r.d
def VecRegions.rb (r : VecRegions) : Region := r.b.getD r.d

/-- Elements per micro-step (R205, R218). -/
def VecSpec.lanes (v : VecSpec) (r : VecRegions) : Nat :=
  match v.form r.d.ty r.aty with
  | .gather => 64
  | .scatter => 1
  | .toMx | .ofMx => lanesOf [r.d.ty, r.aty]
  | _ => lanesOf [r.d.ty, r.aty, r.bty]

/-- n of R204, R217 and R218. -/
def VecSpec.count (v : VecSpec) (r : VecRegions) : Nat :=
  match v.form r.d.ty r.aty with
  | .reduce => r.ra.count
  | .gather | .scatter => r.rb.count
  | _ => r.d.count

/-- ceil(n / L). -/
def ceilDiv (n l : Nat) : Nat := (n + l - 1) / l

/-- COUNT and layout of the regions named (R204, R216 to R218). -/
def VecSpec.counts (v : VecSpec) (r : VecRegions) : Bool :=
  let n := v.count r
  match v.form r.d.ty r.aty with
  | .map => (r.a.all fun a => decide (n ≤ a.count)) && (r.b.all fun b => decide (n ≤ b.count))
  | .toMx | .ofMx =>
    decide (n ≤ r.ra.count) && (r.b.all fun b => decide (n ≤ 32 * b.count) && b.stride == 1)
  | .reduce => decide (ceilDiv n (v.lanes r) ≤ r.d.count)
  | .gather => decide (n ≤ r.d.count)
  | .scatter => decide (n ≤ r.ra.count)

/-- The code and address that a word raises at its start (R327), in the order TYPE, COUNT, BASE. -/
def VecSpec.startFault (v : VecSpec) (r : VecRegions) : Option (BitVec 16 × Option Word) :=
  match v.types r.d.ty r.aty r.bty with
  | some c => some (c, none)
  | none =>
    if !(v.counts r) then some (0x0303, none)
    else
      match ((some r.d :: [r.a, r.b]).filterMap id).find? fun x => !x.aligned with
      | some x => some (0x0301, some (localAddr (x.base : Int)))
      | none => none

/-- The region words a word's start reads (R203). -/
def State.vecWords (s : State) (v : VecSpec) : Word × Word × Word :=
  let va := s.cur.va
  let wd := va[v.d.val]
  let wa := match v.a with
    | some a => va[a.val]
    | none => wd
  let wb := match v.b (regionOf wd).ty (regionOf wa).ty with
    | some b => va[b.val]
    | none => wd
  (wd, wa, wb)

/-- The start of a VEC word (R206, R327): a word without elements occupies the engine for this cycle alone. -/
def State.vecStart (s : State) (v : VecSpec) : State :=
  let (wd, wa, wb) := s.vecWords v
  let r := v.regions wd wa wb
  match v.startFault r with
  | some (c, a) => s.engineFault c a
  | none =>
    if v.count r = 0 then (s.freeEngine 1).finish
    else
      (s.setProg { s.prog with part := [wd.toNat, wa.toNat, wb.toNat], next := s.cur.cyc }).soon
        (rankEngine + s.focus.core.val) [.ev (.microStep s.focus.core s.focus.bank s.focus.q (ixCtx s.focus.ctx))]

/-! ### Micro-steps (R207) -/

/-- The elements that element k of the word reads. -/
def VecSpec.readsAt (v : VecSpec) (r : VecRegions) (k : Nat) : List ElemRef :=
  match v.form r.d.ty r.aty with
  | .map =>
    (r.a.toList.map fun a => ⟨a, k⟩) ++ (r.b.toList.map fun b => ⟨b, k⟩) ++ (if v.readD then [⟨r.d, k⟩] else [])
  | .toMx => r.a.toList.map fun a => ⟨a, k⟩
  | .ofMx => (r.a.toList.map fun a => ⟨a, k⟩) ++ (r.b.toList.map fun b => ⟨b, k / 32⟩)
  | .reduce => r.a.toList.map fun a => ⟨a, k⟩
  | .gather | .scatter => r.b.toList.map fun b => ⟨b, k⟩

/-- The elements that element k of the word touches besides: what it writes. -/
def VecSpec.writesAt (v : VecSpec) (r : VecRegions) (j k : Nat) : List ElemRef :=
  match v.form r.d.ty r.aty with
  | .toMx => [⟨r.d, k⟩, ⟨r.rb, k / 32⟩]
  | .reduce => [⟨r.d, j⟩]
  | .scatter => [⟨r.ra, k⟩]
  | _ => [⟨r.d, k⟩]

/-- The element functions of a micro-step on the elements ks. The flags of a block that R42 converts are those of its first
element. DESIGN CHOICE (log 103). -/
def State.vecOut (s : State) (core : CoreIx) (v : VecSpec) (r : VecRegions) (popped : List Word) (j : Nat)
    (ks : List Nat) : ElemOut :=
  let code (x : Region) (k : Nat) : Nat := s.elem core x k
  match v.form r.d.ty r.aty with
  | .map =>
    ks.foldl (fun o k =>
      let d := if v.readD then code r.d k else 0
      o.join (r.d.out k (v.elem r.d.ty r.aty popped k (code r.ra k) (code r.rb k) d))) ElemOut.empty
  | .ofMx =>
    ks.foldl (fun o k =>
      o.join (r.d.out k (v.elem r.d.ty r.aty popped k (code r.ra k) (code r.rb (k / 32)) 0))) ElemOut.empty
  | .toMx =>
    let blocks := (ks.map (· / 32)).eraseDups
    blocks.foldl (fun o b =>
      let xs := (List.range 32).map fun i => match r.aty.fmt with
        | some F => F.decode (code r.ra (32 * b + i))
        | none => .nan false
      let (cs, sc, fl) := mxBlock r.d.ty.mxWidth v.rm xs
      let w := (List.range 32).flatMap fun i => r.d.writes (32 * b + i) (cs.getD i 0)
      o.join { bytes := w ++ r.rb.writes b sc, flags := addFlags [] ((r.d.offset (32 * b)).toNat / 256) fl }) ElemOut.empty
  | .reduce =>
    let leaves := ks.map fun k => some (code r.ra k)
    let (x, fl) := treeOf (fun a b => v.elem r.d.ty r.aty popped 0 a b 0) 13 leaves
    match x with
    | some c => r.d.out j (c, fl)
    | none => ElemOut.empty
  | .gather =>
    ks.foldl (fun o k =>
      let ix := (ElemType.int r.bty (code r.rb k)).toNat
      o.join (r.d.out k (v.elem r.d.ty r.aty popped k (code r.ra ix) 0 0))) ElemOut.empty
  | .scatter =>
    ks.foldl (fun o k =>
      let ix := (ElemType.int r.bty (code r.rb k)).toNat
      o.join (r.d.out ix (v.elem r.d.ty r.aty popped k (code r.ra k) 0 0))) ElemOut.empty

/-- The lowest element of a micro-step whose index lies outside the data region (R218). -/
def State.badIndex (s : State) (core : CoreIx) (r : VecRegions) (bound : Nat) (ks : List Nat) : Option Nat :=
  ks.find? fun k =>
    let ix := ElemType.int r.bty (s.elem core r.rb k)
    !(decide (0 ≤ ix ∧ ix < (bound : Int)))

/-- The regions of the word in focus, kept from its start. -/
def Cur.vecRegions (c : Cur) (v : VecSpec) : VecRegions :=
  let word (i : Nat) : Word := BitVec.ofNat 64 (c.part.getD i 0)
  v.regions (word 0) (word 1) (word 2)

/-- The elements of micro-step j (R205). -/
def VecSpec.step (v : VecSpec) (r : VecRegions) (j : Nat) : List Nat :=
  let l := v.lanes r
  (List.range (min (v.count r) ((j + 1) * l) - j * l)).map (· + j * l)

def VecSpec.isGather (v : VecSpec) (r : VecRegions) : Bool := v.form r.d.ty r.aty == .gather
def VecSpec.isScatter (v : VecSpec) (r : VecRegions) : Bool := v.form r.d.ty r.aty == .scatter

/-- What a micro-step reads first: of a gather its indices, of a scatter its indices and values. -/
def VecSpec.firstReads (v : VecSpec) (r : VecRegions) (ks : List Nat) : List ElemRef :=
  ks.flatMap (v.readsAt r) ++ (if v.isScatter r then ks.map fun k => ⟨r.ra, k⟩ else [])

/-- The elements that the indices read name: a gather's sources, or a scatter's destinations (R218). -/
def State.indexed (s : State) (core : CoreIx) (v : VecSpec) (r : VecRegions) (ks : List Nat) : List ElemRef :=
  if v.isGather r || v.isScatter r then ks.map fun k =>
    let ix := (ElemType.int r.bty (s.elem core r.rb k)).toNat
    if v.isGather r then ⟨r.ra, ix⟩ else ⟨r.d, ix⟩
  else []

/-- The code and address that a micro-step raises once its first lines are read: poison, then an index outside the data
region, then an element outside layer 0 (R218, R327, R338). -/
def State.vecBad (s : State) (core : CoreIx) (v : VecSpec) (r : VecRegions) (ks : List Nat) : Option (BitVec 16 × Word) :=
  match s.poisonElems core (v.firstReads r ks) with
  | some a => some (0x0E01, a)
  | none =>
    let bound := if v.isGather r then r.ra.count else r.d.count
    match (if v.isGather r || v.isScatter r then s.badIndex core r bound ks else none) with
    | some k => some (0x0304, BitVec.ofNat 64 k)
    | none => (firstOutside (s.indexed core v r ks)).map fun e => (0x0302, localAddr (e.r.offset e.k))

/-- A micro-step whose last line is read: its results are formed from what its lines held when they were read, and are
written VLAT cycles later (R207). -/
def State.vecClose (s : State) (v : VecSpec) (lines : Store (List Host.Cell)) : State :=
  let core := s.focus.core
  let cu := s.prog
  let r := cu.vecRegions v
  let j := cu.mpc
  let ks := v.step r j
  let seen := s.withLines lines
  let src := if v.isGather r then seen.indexed core v r ks else []
  let s := s.noteElems core src
  match s.poisonElems core src with
  | some a => s.engineFault 0x0E01 (some a)
  | none =>
    let slot := match v.form r.d.ty r.aty with
      | .reduce => r.d.slot j 1
      | .scatter => (seen.indexed core v r ks).foldl (fun x e => { x with first := (e.r.offset e.k).toNat }) (r.d.slot 0 1)
      | _ => r.d.slot (ks.headD 0) ks.length
    let s1 := s.pendElems v.lat (seen.vecOut core v r cu.popped j ks) slot true
    s1.setProg { cu with
      mpc := j + 1, next := s.cur.cyc + 1 + s.lag, opened := false, reads := [], lines := []
      lastDone := decide (v.count r ≤ (j + 1) * v.lanes r) }

/-- The micro-step goes on with the lines it has read: the rest of its read step, its next step, the data of a gather, or
its results (R207, R218). -/
def State.vecGoOn (s : State) (v : VecSpec) (lines : Store (List Host.Cell)) (steps : List (List Nat)) : State :=
  let core := s.focus.core
  let cu := s.prog
  let r := cu.vecRegions v
  let ks := v.step r cu.mpc
  match steps with
  | l :: rest => s.setProg { cu with lines, reads := l :: rest, next := s.cur.cyc + 1 + s.lag }
  | [] =>
    if cu.part.getD 3 0 = 1 then s.vecClose v lines
    else
      let seen := s.withLines lines
      let s := s.noteElems core (v.firstReads r ks)
      match seen.vecBad core v r ks with
      | some (c, a) => s.engineFault c (some a)
      | none =>
        if v.isGather r then
          s.setProg { cu with
            lines, part := cu.part.take 3 ++ [1], next := s.cur.cyc + 1 + s.lag
            reads := readSteps ((elemLines (seen.indexed core v r ks)).map fun n => l0Line core (256 * n)) }
        else s.vecClose v lines

/-- The lines granted to the micro-step's read step are read (R207). -/
def State.vecRead (s : State) (v : VecSpec) : State :=
  let cu := s.prog
  let got := s.stepLines
  let lines := s.capture cu.lines got
  match cu.reads with
  | [] => s
  | l :: rest =>
    let left := l.filter fun n => !(got.contains n)
    if left.isEmpty then s.vecGoOn v lines rest else s.setProg { cu with lines, reads := left :: rest }

/-- One micro-step of a VEC word (R207, R327): it asks for the lines of its read span, once VE and RE have fewer than 32
micro-steps under way and a token is free, with the elements it names inside layer 0; or it reads the lines granted. -/
def State.vecMicro (s : State) (v : VecSpec) : State :=
  let core := s.focus.core
  let cu := s.prog
  let r := cu.vecRegions v
  let ks := v.step r cu.mpc
  if cu.opened then s.vecRead v
  else if !(s.veToken core) || decide (32 ≤ s.cur.inFlight) then
    (s.setProg { cu with next := s.cur.cyc + 1 }).noteToken core (s.veToken core)
  else match firstOutside (ks.flatMap fun k => v.readsAt r k ++ v.writesAt r cu.mpc k) with
    | some e => s.engineFault 0x0302 (some (localAddr (e.r.offset e.k)))
    | none =>
      let lines := (elemLines (v.firstReads r ks)).map fun n => l0Line core (256 * n)
      let s1 := s.modCore core fun k => { k with tokVe := k.tokVe + 1, asked := k.asked + 1 }
      let s2 := s1.setProg { cu with
        opened := true, lines := [], next := s.cur.cyc, part := cu.part.take 3 ++ [0]
        reads := if v.isGather r then [lines] else readSteps lines }
      if lines.isEmpty then s2.vecGoOn v [] [] else s2

/-! ### The meanings -/

/-- A region word is loaded into a region register in the start cycle (R210). -/
def execVSeta (p : Pred) (q d : Fin 16) (st : State) : Out :=
  engineWord st p (.vSeta p q d) fun s =>
    (((s.modCur fun m => { m with va := m.va.set d.val (s.popped 0) }).freeEngine 1).finish)

def execVAdd (p : Pred) (t : ElemType) (r : Rounding) (d : Fin 16) (a : Fin 16) (sat : Bool) (b : Fin 16) (st : State) : Out :=
  engineWord st p (.vAdd p t r d a sat b) fun s => s.vecStart (specVAdd t r d a sat b)
def execVSub (p : Pred) (t : ElemType) (r : Rounding) (d : Fin 16) (a : Fin 16) (sat : Bool) (b : Fin 16) (st : State) : Out :=
  engineWord st p (.vSub p t r d a sat b) fun s => s.vecStart (specVSub t r d a sat b)
def execVMul (p : Pred) (t : ElemType) (r : Rounding) (d : Fin 16) (a : Fin 16) (sat : Bool) (b : Fin 16) (st : State) : Out :=
  engineWord st p (.vMul p t r d a sat b) fun s => s.vecStart (specVMul t r d a sat b)
def execVDiv (p : Pred) (t : ElemType) (r : Rounding) (d : Fin 16) (a : Fin 16) (sat : Bool) (b : Fin 16) (st : State) : Out :=
  engineWord st p (.vDiv p t r d a sat b) fun s => s.vecStart (specVDiv t r d a sat b)
def execVFma (p : Pred) (t : ElemType) (r : Rounding) (d : Fin 16) (a : Fin 16) (sat : Bool) (b : Fin 16) (st : State) : Out :=
  engineWord st p (.vFma p t r d a sat b) fun s => s.vecStart (specVFma t r d a sat b)
def execVFms (p : Pred) (t : ElemType) (r : Rounding) (d : Fin 16) (a : Fin 16) (sat : Bool) (b : Fin 16) (st : State) : Out :=
  engineWord st p (.vFms p t r d a sat b) fun s => s.vecStart (specVFms t r d a sat b)
def execVFnma (p : Pred) (t : ElemType) (r : Rounding) (d : Fin 16) (a : Fin 16) (sat : Bool) (b : Fin 16) (st : State) : Out :=
  engineWord st p (.vFnma p t r d a sat b) fun s => s.vecStart (specVFnma t r d a sat b)
def execVMin (p : Pred) (t : ElemType) (r : Rounding) (d : Fin 16) (a : Fin 16) (sat : Bool) (b : Fin 16) (st : State) : Out :=
  engineWord st p (.vMin p t r d a sat b) fun s => s.vecStart (specVMin t r d a sat b)
def execVMax (p : Pred) (t : ElemType) (r : Rounding) (d : Fin 16) (a : Fin 16) (sat : Bool) (b : Fin 16) (st : State) : Out :=
  engineWord st p (.vMax p t r d a sat b) fun s => s.vecStart (specVMax t r d a sat b)
def execVAbs (p : Pred) (t : ElemType) (r : Rounding) (d : Fin 16) (a : Fin 16) (sat : Bool) (st : State) : Out :=
  engineWord st p (.vAbs p t r d a sat) fun s => s.vecStart (specVAbs t r d a sat)
def execVNeg (p : Pred) (t : ElemType) (r : Rounding) (d : Fin 16) (a : Fin 16) (sat : Bool) (st : State) : Out :=
  engineWord st p (.vNeg p t r d a sat) fun s => s.vecStart (specVNeg t r d a sat)
def execVSqrt (p : Pred) (t : ElemType) (r : Rounding) (d : Fin 16) (a : Fin 16) (st : State) : Out :=
  engineWord st p (.vSqrt p t r d a) fun s => s.vecStart (specVSqrt t r d a)
def execVExp2 (p : Pred) (t : ElemType) (r : Rounding) (d : Fin 16) (a : Fin 16) (st : State) : Out :=
  engineWord st p (.vExp2 p t r d a) fun s => s.vecStart (specVExp2 t r d a)
def execVLog2 (p : Pred) (t : ElemType) (r : Rounding) (d : Fin 16) (a : Fin 16) (st : State) : Out :=
  engineWord st p (.vLog2 p t r d a) fun s => s.vecStart (specVLog2 t r d a)
def execVRecip (p : Pred) (t : ElemType) (r : Rounding) (d : Fin 16) (a : Fin 16) (st : State) : Out :=
  engineWord st p (.vRecip p t r d a) fun s => s.vecStart (specVRecip t r d a)
def execVRsqrt (p : Pred) (t : ElemType) (r : Rounding) (d : Fin 16) (a : Fin 16) (st : State) : Out :=
  engineWord st p (.vRsqrt p t r d a) fun s => s.vecStart (specVRsqrt t r d a)
def execVTanh (p : Pred) (t : ElemType) (r : Rounding) (d : Fin 16) (a : Fin 16) (st : State) : Out :=
  engineWord st p (.vTanh p t r d a) fun s => s.vecStart (specVTanh t r d a)
def execVAnd (p : Pred) (t : ElemType) (d : Fin 16) (a : Fin 16) (b : Fin 16) (st : State) : Out :=
  engineWord st p (.vAnd p t d a b) fun s => s.vecStart (specVAnd t d a b)
def execVOr (p : Pred) (t : ElemType) (d : Fin 16) (a : Fin 16) (b : Fin 16) (st : State) : Out :=
  engineWord st p (.vOr p t d a b) fun s => s.vecStart (specVOr t d a b)
def execVXor (p : Pred) (t : ElemType) (d : Fin 16) (a : Fin 16) (b : Fin 16) (st : State) : Out :=
  engineWord st p (.vXor p t d a b) fun s => s.vecStart (specVXor t d a b)
def execVShl (p : Pred) (t : ElemType) (d : Fin 16) (a : Fin 16) (b : Fin 16) (st : State) : Out :=
  engineWord st p (.vShl p t d a b) fun s => s.vecStart (specVShl t d a b)
def execVShr (p : Pred) (t : ElemType) (d : Fin 16) (a : Fin 16) (b : Fin 16) (st : State) : Out :=
  engineWord st p (.vShr p t d a b) fun s => s.vecStart (specVShr t d a b)
def execVSra (p : Pred) (t : ElemType) (d : Fin 16) (a : Fin 16) (b : Fin 16) (st : State) : Out :=
  engineWord st p (.vSra p t d a b) fun s => s.vecStart (specVSra t d a b)
def execVMulh (p : Pred) (t : ElemType) (d : Fin 16) (a : Fin 16) (b : Fin 16) (st : State) : Out :=
  engineWord st p (.vMulh p t d a b) fun s => s.vecStart (specVMulh t d a b)
def execVCmpeq (p : Pred) (t : ElemType) (d : Fin 16) (a : Fin 16) (b : Fin 16) (st : State) : Out :=
  engineWord st p (.vCmpeq p t d a b) fun s => s.vecStart (specVCmpeq t d a b)
def execVCmpne (p : Pred) (t : ElemType) (d : Fin 16) (a : Fin 16) (b : Fin 16) (st : State) : Out :=
  engineWord st p (.vCmpne p t d a b) fun s => s.vecStart (specVCmpne t d a b)
def execVCmplt (p : Pred) (t : ElemType) (d : Fin 16) (a : Fin 16) (b : Fin 16) (st : State) : Out :=
  engineWord st p (.vCmplt p t d a b) fun s => s.vecStart (specVCmplt t d a b)
def execVCmple (p : Pred) (t : ElemType) (d : Fin 16) (a : Fin 16) (b : Fin 16) (st : State) : Out :=
  engineWord st p (.vCmple p t d a b) fun s => s.vecStart (specVCmple t d a b)
def execVSel (p : Pred) (t : ElemType) (d : Fin 16) (a : Fin 16) (b : Fin 16) (st : State) : Out :=
  engineWord st p (.vSel p t d a b) fun s => s.vecStart (specVSel t d a b)
def execVCvt (p : Pred) (t : ElemType) (r : Rounding) (d : Fin 16) (a : Fin 16) (sat : Bool) (b : Fin 16) (st : State) : Out :=
  engineWord st p (.vCvt p t r d a sat b) fun s => s.vecStart (specVCvt t r d a sat b)
def execVRsum (p : Pred) (t : ElemType) (r : Rounding) (d : Fin 16) (a : Fin 16) (sat : Bool) (st : State) : Out :=
  engineWord st p (.vRsum p t r d a sat) fun s => s.vecStart (specVRsum t r d a sat)
def execVRmax (p : Pred) (t : ElemType) (d : Fin 16) (a : Fin 16) (st : State) : Out :=
  engineWord st p (.vRmax p t d a) fun s => s.vecStart (specVRmax t d a)
def execVRmin (p : Pred) (t : ElemType) (d : Fin 16) (a : Fin 16) (st : State) : Out :=
  engineWord st p (.vRmin p t d a) fun s => s.vecStart (specVRmin t d a)
def execVCopy (p : Pred) (t : ElemType) (d : Fin 16) (a : Fin 16) (st : State) : Out :=
  engineWord st p (.vCopy p t d a) fun s => s.vecStart (specVCopy t d a)
def execVFill (p : Pred) (q : Fin 16) (d : Fin 16) (st : State) : Out :=
  engineWord st p (.vFill p q d) fun s => s.vecStart (specVFill q d)
def execVIota (p : Pred) (q : Fin 16) (r : Rounding) (d : Fin 16) (sat : Bool) (st : State) : Out :=
  engineWord st p (.vIota p q r d sat) fun s => s.vecStart (specVIota q r d sat)
def execVClamp (p : Pred) (q : Fin 16) (d : Fin 16) (a : Fin 16) (st : State) : Out :=
  engineWord st p (.vClamp p q d a) fun s => s.vecStart (specVClamp q d a)
def execVAddq (p : Pred) (q : Fin 16) (r : Rounding) (d : Fin 16) (a : Fin 16) (sat : Bool) (st : State) : Out :=
  engineWord st p (.vAddq p q r d a sat) fun s => s.vecStart (specVAddq q r d a sat)
def execVMulq (p : Pred) (q : Fin 16) (r : Rounding) (d : Fin 16) (a : Fin 16) (sat : Bool) (st : State) : Out :=
  engineWord st p (.vMulq p q r d a sat) fun s => s.vecStart (specVMulq q r d a sat)
def execVFmaq (p : Pred) (q : Fin 16) (r : Rounding) (d : Fin 16) (a : Fin 16) (sat : Bool) (st : State) : Out :=
  engineWord st p (.vFmaq p q r d a sat) fun s => s.vecStart (specVFmaq q r d a sat)
def execVGather (p : Pred) (t : ElemType) (d : Fin 16) (a : Fin 16) (b : Fin 16) (st : State) : Out :=
  engineWord st p (.vGather p t d a b) fun s => s.vecStart (specVGather t d a b)
def execVScatter (p : Pred) (t : ElemType) (d : Fin 16) (a : Fin 16) (b : Fin 16) (st : State) : Out :=
  engineWord st p (.vScatter p t d a b) fun s => s.vecStart (specVScatter t d a b)
def execVCnt (p : Pred) (t : ElemType) (d : Fin 16) (a : Fin 16) (st : State) : Out :=
  engineWord st p (.vCnt p t d a) fun s => s.vecStart (specVCnt t d a)

end Sys2Proof.Machine
end

