-- ==== Sys2Proof/Machine/Row.lean ====
section
/-! DEFINITION. The row engine (R219 to R223): the functions of R220, the words of R221, their start with the checks of
R327, and the chunks of the timetable of R222. -/

namespace Sys2Proof.Machine

open Sys2Proof

/-! ### The functions of R220, on FP32 codes -/

def fv (c : Nat) : FVal := fp32.decode c
def fcode (r : FVal × Flags) : Nat × Flags := (fp32.encode r.1, r.2)

/-- AddNE. -/
def rowAdd (a b : Nat) : Nat × Flags := fcode (floatAdd fp32 .rne (fv a) (fv b))
/-- Max of R40. -/
def rowMaxOf (a b : Nat) : Nat × Flags := fcode (floatMinMax true (fv a) (fv b))

/-- Exp(RoundNE(x − m, FP32)) of EXPSUM, with the flags of its roundings (R220, R52). -/
def rowExpOf (x m : Nat) : Nat × Flags :=
  let (d, f) := floatSub fp32 .rne (fv x) (fv m)
  match d with
  | .fin _ y =>
    if y = 0 then (fp32.encode (.ofRat 1), f)
    else
      let (e, g) := fp32.roundZ .rne (kernE2 (y * coefLE)) false
      (fp32.encode e, f ||| g)
  | d => (fp32.encode (rowExp d), f)

/-- Recip and Rsq of R220. -/
def rowRecip (s : Nat) : FVal × Flags := specRecip fp32 .rne (fv s)
def rowRsq (s : Nat) : FVal × Flags := specRsqrt fp32 .rne (fv s)

/-- An exact product of values rounded once into a format under RNE (R220, R40). -/
def productOf (F : Fmt) (l : List FVal) : FVal × Flags :=
  if l.any FVal.isNaN then nanOf l
  else
    let neg := l.foldl (fun n v => n != v.neg?) false
    let zero := l.any FVal.isZero
    let inf := l.any fun v => match v with
      | .inf _ => true
      | _ => false
    if zero && inf then (.nan false, flagINV)
    else if inf then (.inf neg, 0)
    else F.roundZ .rne (l.foldl (fun x v => match v with
      | .fin _ y => x * y
      | _ => x) 1) neg

/-- An FP32 value into D's type under RNE. -/
def rowPut (t : ElemType) (r : FVal × Flags) : Nat × Flags :=
  match t.fmt with
  | some F => (F.encode r.1, r.2)
  | none => (0, 0)

/-- A value exactly read into FP32 (R219); a signalling NaN stays one. -/
def rowRead (t : ElemType) (c : Nat) : Nat :=
  match t.fmt with
  | some F => match F.decode c with
    | .nan true => 0x7FA00000
    | v => fp32.encode v
  | none => 0

/-! ### The words -/

/-- The reduction phase of a word. -/
inductive RowRed where
  | none | max | sumsq | sum
  deriving DecidableEq, Repr

/-- The writing phase of a word. -/
inductive RowOut where
  | none | scale | norm | rms
  deriving DecidableEq, Repr

/-- What a ROW word is (R221): its phases, its regions, and which of D and B are vectors. -/
structure RowSpec where
  q : Fin 16
  d : Fin 8
  a : Fin 8
  b : Option (Fin 8)
  red : RowRed
  expsum : Bool
  out : RowOut
  /-- D is a vector that takes the reduction's result -/
  dVec : Bool
  /-- B is a vector -/
  bVec : Bool
  deriving DecidableEq, Repr

def specRowMax (q : Fin 16) (d a : Fin 8) : RowSpec :=
  { q, d, a, b := none, red := .max, expsum := false, out := .none, dVec := true, bVec := false }
def specRowExpsum (q : Fin 16) (d a b : Fin 8) : RowSpec :=
  { q, d, a, b := some b, red := .none, expsum := true, out := .none, dVec := false, bVec := true }
def specRowScale (q : Fin 16) (d a b : Fin 8) : RowSpec :=
  { q, d, a, b := some b, red := .none, expsum := false, out := .scale, dVec := false, bVec := true }
def specRowSoft (q : Fin 16) (d a : Fin 8) : RowSpec :=
  { q, d, a, b := none, red := .max, expsum := true, out := .scale, dVec := false, bVec := false }
def specRowSum (q : Fin 16) (d a : Fin 8) : RowSpec :=
  { q, d, a, b := none, red := .sum, expsum := false, out := .none, dVec := true, bVec := false }
def specRowNorm (q : Fin 16) (d a : Fin 8) : RowSpec :=
  { q, d, a, b := none, red := .sumsq, expsum := false, out := .norm, dVec := false, bVec := false }
def specRowRms (q : Fin 16) (d a b : Fin 8) : RowSpec :=
  { q, d, a, b := some b, red := .sumsq, expsum := false, out := .rms, dVec := false, bVec := false }

def rowSpecOf (i : Instr) : Option RowSpec :=
  match i with
  | .rowMax _ q d a => some (specRowMax q d a)
  | .rowExpsum _ q d a b => some (specRowExpsum q d a b)
  | .rowScale _ q d a b => some (specRowScale q d a b)
  | .rowSoft _ q d a => some (specRowSoft q d a)
  | .rowSum _ q d a => some (specRowSum q d a)
  | .rowNorm _ q d a => some (specRowNorm q d a)
  | .rowRms _ q d a b => some (specRowRms q d a b)
  | _ => none

/-- A row control word (R219). -/
structure RowCtl where
  rows : Nat
  apitch : Int
  dpitch : Int
  deriving DecidableEq, Repr

def rowCtl (w : Word) : RowCtl :=
  { rows := fld 15 0 w.toNat, apitch := (BitVec.ofNat 24 (fld 39 16 w.toNat)).toInt,
    dpitch := (BitVec.ofNat 24 (fld 63 40 w.toNat)).toInt }

/-- A word with the regions and the control word its start found. -/
structure RowRun where
  w : RowSpec
  rd : Region
  ra : Region
  rb : Region
  ctl : RowCtl

/-- P of R220: chunks of a row. -/
def RowRun.chunks (x : RowRun) : Nat := max 1 (ceilDiv x.ra.count 256)

/-- The phases of a word, with the cycles from a row's first reduction cycle to the phase's first (R222). -/
def RowRun.phases (x : RowRun) : List (Nat × Nat) :=
  let p := x.chunks
  let hasRed := x.w.red != .none
  let xs := if hasRed then p + 6 else 0
  let ss := if x.w.expsum then xs + p + 22 else if hasRed then p + 28 else 0
  (if hasRed then [(0, 0)] else []) ++ (if x.w.expsum then [(1, xs)] else []) ++
    (if x.w.out != .none then [(2, ss)] else [])

/-- Row i of a row-shaped region: the region moved by i pitches (R219). -/
def rowOf (r : Region) (pitch : Int) (i : Nat) (k : Nat) : Int :=
  (r.base : Int) + ((i : Int) * pitch + (k : Int) * r.stride) * (r.ty.bytes : Nat)

/-- An element of layer 0 by its offset and type. -/
structure RowElem where
  off : Int
  ty : ElemType

def RowElem.inside (e : RowElem) : Bool := decide (0 ≤ e.off ∧ e.off + (e.ty.bytes : Nat) ≤ (2 ^ 21 : Nat))

def State.rowElem (s : State) (core : CoreIx) (e : RowElem) : Nat :=
  s.read (keyL0 core.val e.off.toNat) e.ty.bytes

/-- The bytes of an element written. -/
def RowElem.writes (e : RowElem) (code : Nat) : List ByteWrite :=
  (List.range e.ty.bytes).map fun i => { off := e.off.toNat + i, val := code / 2 ^ (8 * i) % 256, mask := 255 }

/-- Element k of row i of A and of D, element i of the vector D or B, and gain k of B. -/
def RowRun.aAt (x : RowRun) (i k : Nat) : RowElem := ⟨rowOf x.ra x.ctl.apitch i k, x.ra.ty⟩
def RowRun.dAt (x : RowRun) (i k : Nat) : RowElem := ⟨rowOf x.rd x.ctl.dpitch i k, x.rd.ty⟩
def RowRun.dVecAt (x : RowRun) (i : Nat) : RowElem := ⟨x.rd.offset i, .f32⟩
def RowRun.bAt (x : RowRun) (i : Nat) : RowElem := ⟨x.rb.offset i, x.rb.ty⟩

/-! ### Start -/

def rowFloat (t : ElemType) : Bool := t == .f32 || t == .bf16 || t == .f16

/-- The code and address that a ROW word raises at its start (R327, R329). -/
def RowRun.startFault (x : RowRun) : Option (BitVec 16 × Option Word) :=
  let n := x.ra.count
  let vec (r : Region) : Bool := r.ty == .f32 && decide (x.ctl.rows ≤ r.count)
  let dOk := if x.w.dVec then vec x.rd else rowFloat x.rd.ty && decide (n ≤ x.rd.count)
  let bOk := match x.w.b with
    | none => true
    | some _ => if x.w.bVec then vec x.rb else x.rb.ty.isFloat && decide (n ≤ x.rb.count)
  if !(rowFloat x.ra.ty && dOk && bOk) then some (0x0303, none)
  else if x.w.dVec && x.ctl.dpitch != 0 then some (0x0307, none)
  else
    let rs := [x.ra, x.rd] ++ (if x.w.b.isSome then [x.rb] else [])
    match rs.find? fun r => !(r.base % r.ty.bytes == 0) with
    | some r => some (0x0301, some (localAddr (r.base : Int)))
    | none => none

/-- A ROW word with the region registers as they stand. -/
def State.rowRun (s : State) (w : RowSpec) : RowRun :=
  let ra := s.cur.ra
  { w, rd := regionOf ra[w.d.val], ra := regionOf ra[w.a.val], ctl := rowCtl (s.popped 0)
    rb := match w.b with
      | some b => regionOf ra[b.val]
      | none => regionOf 0 }

/-- A ROW word with the region words kept from its start. -/
def Cur.rowRun (c : Cur) (w : RowSpec) : RowRun :=
  let word (i : Nat) : Region := regionOf (BitVec.ofNat 64 (c.part.getD i 0))
  { w, rd := word 0, ra := word 1, rb := word 2, ctl := rowCtl (c.popped.getD 0 0) }

/-- The first cycle of a row of the timetable (R222). -/
def Cur.rowAt (c : Cur) (x : RowRun) (i : Nat) : Nat := c.fromAt + (i - c.fromRow) * x.chunks

/-- A row word begins, or goes on from its micro-PC with the chunk kept with it (R222, R223): the remaining phases of
the row it names run first, and younger rows follow on the timetable. -/
def Cur.rowBegin (c : Cur) (x : RowRun) (now : Nat) : Cur :=
  let row := c.mpc / 4
  let phase := c.mpc % 4
  let chunk := c.part.getD 3 0
  if row = 0 ∧ phase = (x.phases.head?.getD (0, 0)).1 ∧ chunk = 0 then { c with fromRow := 0, fromAt := now, rows := [] }
  else
    let ph := x.phases.filter fun y => decide (phase ≤ y.1)
    let off := (ph.head?.getD (0, 0)).2
    { c with
      rows := ph.map fun y =>
        { row, phase := Fin.ofNat 3 y.1, start := if y.1 = phase then now - chunk else now + (y.2 - off) - chunk }
      fromRow := row + 1
      fromAt := now + x.chunks }

/-- The start of a ROW word (R327, R222). -/
def State.rowStart (s : State) (w : RowSpec) : State :=
  let x := s.rowRun w
  match x.startFault with
  | some (c, a) => s.engineFault c a
  | none =>
    if x.ctl.rows = 0 then (s.freeEngine 1).finish
    else
      let ra := s.cur.ra
      let wb := match w.b with
        | some b => ra[b.val].toNat
        | none => 0
      let c := s.prog
      let first := (x.phases.head?.getD (0, 0)).1
      let c1 := if c.mpc = 0 then { c with mpc := first } else c
      let c2 := ({ c1 with part := [ra[w.d.val].toNat, ra[w.a.val].toNat, wb, c1.part.getD 3 0] } : Cur).rowBegin x s.cur.cyc
      (s.setProg { c2 with next := s.cur.cyc, halt := none }).soon (rankEngine + s.focus.core.val)
        [.ev (.microStep s.focus.core s.focus.bank s.focus.q (ixCtx s.focus.ctx))]

/-! ### Chunks -/

/-- What a cycle's chunks read in this cycle: row, phase and chunk (R222). -/
def Cur.rowDue (c : Cur) (x : RowRun) (t : Nat) : List (Nat × Nat × Nat) :=
  let p := x.chunks
  let own := c.rows.filterMap fun r =>
    if r.start ≤ t ∧ t < r.start + p then some (r.row, r.phase.val, t - r.start) else none
  let timed := x.phases.filterMap fun y =>
    if c.fromAt + y.2 ≤ t then
      let e := t - (c.fromAt + y.2)
      let row := c.fromRow + e / p
      if row < x.ctl.rows then some (row, y.1, e % p) else none
    else none
  own ++ timed

/-- The cycle in which the last row's last phase begins, and P more (R222). -/
def Cur.rowEnd (c : Cur) (x : RowRun) : Nat :=
  let last := (x.phases.getLast?.getD (0, 0)).2
  if c.fromRow < x.ctl.rows then c.rowAt x (x.ctl.rows - 1) + last + x.chunks
  else c.rows.foldl (fun m r => max m (r.start + x.chunks)) 0

/-- The elements of chunk c of row i that a phase reads, the vector elements first. -/
def RowRun.reads (x : RowRun) (i phase c : Nat) : List RowElem :=
  let n := x.ra.count
  let ks := (List.range (min n (256 * (c + 1)) - 256 * c)).map (· + 256 * c)
  let vecB := if x.w.bVec && c == 0 then [x.bAt i] else []
  match phase with
  | 0 => ks.map (x.aAt i)
  | 1 => vecB ++ ks.map (x.aAt i)
  | _ =>
    (if x.w.out == .scale then vecB else []) ++
      (if x.w.out == .scale && x.w.expsum then ks.map (x.dAt i) else ks.map (x.aAt i)) ++
      (if x.w.out == .rms then ks.map x.bAt else [])

/-- The elements that the same chunk writes. -/
def RowRun.writes (x : RowRun) (i phase c : Nat) : List RowElem :=
  let n := x.ra.count
  let ks := (List.range (min n (256 * (c + 1)) - 256 * c)).map (· + 256 * c)
  match phase with
  | 0 => if x.w.dVec then [x.dVecAt i] else []
  | _ => ks.map (x.dAt i)

/-- The value the engine keeps for a row and phase. -/
def Cur.rowVal (c : Cur) (row phase d : Nat) : Nat :=
  match c.acc.find? fun e => e.1 == 4 * row + phase with
  | some e => e.2
  | none => d

def Cur.rowSet (c : Cur) (row phase v : Nat) : Cur :=
  { c with acc := (4 * row + phase, v) :: c.acc.filter fun e => e.1 != 4 * row + phase }

/-- A chunk of values reduced by the tree and joined to the running value (R220). -/
def chunkReduce (op : Nat → Nat → Nat × Flags) (first : Bool) (run : Nat) (vs : List Nat) : Nat × Flags :=
  match treeOf op 9 (vs.map some) with
  | (none, f) => (run, f)
  | (some v, f) =>
    if first then (v, f)
    else
      let (r, g) := op run v
      (r, f ||| g)

/-- The identities of an empty row: −∞ for MAX, +0 for the sums (R220). -/
def RowRed.empty : RowRed → Nat
  | .max => 0xFF800000
  | _ => 0

/-- Elements that a chunk writes, each with its code and its flags, requested in n cycles; or flags alone, raised in the
cycle in which the chunk's result is ready (R222). The spec names no cycle for the flags of a chunk that writes nothing.
DESIGN CHOICE (log 104). -/
def State.pendRow (s : State) (n : Nat) (l : List (RowElem × Nat × Flags)) (step : Bool) (fl : Flags := 0) : State :=
  if l.isEmpty && fl == 0 then s
  else
    let o := l.foldl (fun (o : ElemOut) e =>
      o.join { bytes := e.1.writes e.2.1, flags := addFlags [] (e.1.off.toNat / 256) e.2.2 })
      { bytes := [], flags := match l with
        | [] => addFlags [] 0 fl
        | e :: _ => addFlags [] (e.1.off.toNat / 256) fl }
    let slot : ElemSlot := match l with
      | a :: b :: _ =>
        { first := a.1.off.toNat, stride := (b.1.off - a.1.off) / (a.1.ty.bytes : Nat), count := l.length, ty := a.1.ty }
      | [a] => { first := a.1.off.toNat, stride := 1, count := 1, ty := a.1.ty }
      | [] => { first := 0, stride := 0, count := 0, ty := .f32 }
    s.pendElems n o slot step

/-- One chunk performed, on the lines as they were read (R220 to R222). The reads are those of `seen`. -/
def State.rowChunk (s seen : State) (x : RowRun) (row phase c : Nat) : State :=
  let core := s.focus.core
  let cu := s.prog
  let n := x.ra.count
  let p := x.chunks
  let ks := (List.range (min n (256 * (c + 1)) - 256 * c)).map (· + 256 * c)
  let val (e : RowElem) : Nat := rowRead e.ty (seen.rowElem core e)
  let lastChunk := c + 1 = p
  match phase with
  | 0 =>
    let xs := ks.map fun k => val (x.aAt row k)
    let (vs, f0) := match x.w.red with
      | .sumsq =>
        let l := xs.map fun v => fcode (floatMul fp32 .rne (fv v) (fv v))
        (l.map (·.1), orFlags (l.map (·.2)))
      | _ => (xs, 0)
    let op := match x.w.red with
      | .max => rowMaxOf
      | _ => rowAdd
    let (v, f1) := chunkReduce op (c == 0) (if c = 0 then x.w.red.empty else cu.rowVal row 0 0) vs
    let s1 := s.setProg (cu.rowSet row 0 v)
    let fl := f0 ||| f1 ||| (if lastChunk then (canon .f32 v).2 else 0)
    if x.w.dVec && lastChunk then s1.pendRow 7 [((x.dVecAt row), (canon .f32 v).1, fl)] false
    else s1.pendRow 7 [] false fl
  | 1 =>
    let cu1 := if x.w.bVec && c == 0 then cu.rowSet row 0 (val (x.bAt row)) else cu
    let m := cu1.rowVal row 0 0
    let es := ks.map fun k => (k, rowExpOf (val (x.aAt row k)) m)
    let ws := es.map fun e => (e.1, rowPut x.rd.ty (match x.rd.ty.fmt with
      | some F => match fv e.2.1 with
        | .fin z y => F.roundZ .rne y z
        | v => (v, 0)
      | none => (.nan false, 0)))
    let (v, f1) := chunkReduce rowAdd (c == 0) (if c = 0 then 0 else cu1.rowVal row 1 0) (es.map fun e => e.2.1)
    let s1 := (s.setProg (cu1.rowSet row 1 v)).pendRow 14
      ((ws.zip es).map fun e => (x.dAt row e.1.1, e.1.2.1, e.1.2.2 ||| e.2.2.2)) true
    if x.w.bVec && lastChunk then s1.pendRow 22 [(x.bAt row, v, f1)] false else s1.pendRow 22 [] false f1
  | _ =>
    let cu1 := if x.w.out == .scale && x.w.bVec && c == 0 then cu.rowSet row 1 (val (x.bAt row)) else cu
    let sum := if x.w.out == .scale then cu1.rowVal row 1 0 else cu1.rowVal row 0 0
    let F := x.rd.ty.fmt.getD fp32
    let (fac, f0) : FVal × Flags := match x.w.out with
      | .scale => rowRecip sum
      | .norm => rowRsq sum
      | _ =>
        let (y, g) := floatDiv fp32 .rne (fv sum) (.ofRat (n : Rat))
        let (r, h) := rowRsq (fp32.encode y)
        (r, g ||| h)
    let zero := x.w.out != .scale && sum == 0
    let ws := ks.map fun k =>
      let v := if x.w.out == .scale && x.w.expsum then val (x.dAt row k) else val (x.aAt row k)
      let o := if zero then (FVal.fin false 0, (0 : Flags))
        else match x.w.out with
          | .rms => productOf F [fv v, fac, fv (val (x.bAt k))]
          | _ => productOf F [fv v, fac]
      (k, F.encode o.1, o.2)
    let fl := if zero then 0 else f0
    let s1 := s.setProg (if lastChunk then { cu1 with acc := cu1.acc.filter fun e => e.1 / 4 != row } else cu1)
    (s1.pendRow 8 (ws.map fun e => (x.dAt row e.1, e.2.1, e.2.2)) true).pendRow 8 [] false fl

/-- The code and address that a chunk raises before it reads (R327, R338). -/
def State.rowFault (s : State) (x : RowRun) (row phase c : Nat) : Option (BitVec 16 × Word) :=
  let core := s.focus.core
  let rd := x.reads row phase c
  match (rd ++ x.writes row phase c).find? fun e => !e.inside with
  | some e => some (0x0302, localAddr e.off)
  | none =>
    if s.poison.isEmpty then none
    else match (rd.filterMap fun e => s.poisonIn (keyL0 core.val e.off.toNat) e.ty.bytes) with
      | [] => none
      | g :: rest => some (0x0E01, localAddr ((rest.foldl min g % 2 ^ 21 : Nat) : Int))

/-- The chunks due in a cycle that are read: none of a row or phase behind one at which the word will stop. -/
def Cur.rowLive (c : Cur) (x : RowRun) (t : Nat) : List (Nat × Nat × Nat) :=
  (c.rowDue x t).filter fun d => match c.halt with
    | some h => decide (d.1 < h.row ∨ (d.1 = h.row ∧ d.2.1 < h.phase))
    | none => true

/-- A chunk's turn: performed, or the fault at which the word will stop is set down. -/
def State.rowTurn (s seen : State) (x : RowRun) (d : Nat × Nat × Nat) : State :=
  let cu := s.prog
  let (row, phase, c) := d
  let before := match cu.halt with
    | some h => decide (row < h.row ∨ (row = h.row ∧ phase < h.phase))
    | none => true
  if !before then s else
  let s := s.noteReads (((x.reads row phase c).filter fun e => e.inside).map fun e =>
    (keyL0 s.focus.core.val e.off.toNat, e.ty.bytes))
  match s.rowFault x row phase c with
    | some (code, addr) => s.setProg { cu with halt := some { row, phase, chunk := c, code, addr } }
    | none => s.rowChunk seen x row phase c

/-- The oldest row and phase not completed at a cycle, with the chunk it stands at (R91, R223). -/
def Cur.rowPoint (c : Cur) (x : RowRun) (t : Nat) : Nat × Nat × Nat :=
  let p := x.chunks
  match c.rows.find? fun r => decide (t < r.start + p) with
  | some r => (r.row, r.phase.val, t - r.start)
  | none =>
    let last := (x.phases.getLast?.getD (0, 0)).2
    let row := if t < c.fromAt + last + p then c.fromRow else c.fromRow + (t - (c.fromAt + last)) / p
    let at' := c.rowAt x row
    match x.phases.find? fun y => decide (t < at' + y.2 + p) with
    | some y => (row, y.1, t - (at' + y.2))
    | none => (row, 0, 0)

/-- The chunks of a cycle of a ROW word, their lines read. A word that faults does so when the rows before the faulting
one are complete (R316). -/
def State.rowClose (s : State) (x : RowRun) (lines : Store (List Host.Cell)) : State :=
  let t := s.cur.cyc + s.lag
  let s1 := s.each (s.prog.rowDue x t) fun s' d => s'.rowTurn (s.withLines lines) x d
  let c := { s1.prog with opened := false, reads := [], lines := [] }
  match c.halt with
  | some h =>
    if h.row ≤ (c.rowPoint x (t + 1)).1 then
      (s1.setProg { c with mpc := 4 * h.row + h.phase, part := c.part.set 3 h.chunk, halt := none }).engineFault h.code
        (some h.addr)
    else s1.setProg { c with next := t + 1 }
  | none =>
    let (row, ph, ch) := c.rowPoint x (t + 1)
    s1.setProg { c with mpc := 4 * row + ph, part := c.part.set 3 ch, next := t + 1
                        lastDone := decide (c.rowEnd x ≤ t + 1) }

/-- One cycle of a ROW word (R222): the lines of every chunk due are asked for; or those granted are read, and when none is
left the chunks are performed. A cycle in which one is not granted moves the timetable. -/
def State.rowMicro (s : State) (w : RowSpec) : State :=
  let cu := s.prog
  let x := cu.rowRun w
  if cu.opened then
    let got := s.stepLines
    let lines := s.capture cu.lines got
    let left := (cu.reads.headD []).filter fun n => !(got.contains n)
    if left.isEmpty then s.rowClose x lines else s.setProg { cu with lines, reads := [left] }
  else
    let es := (cu.rowLive x s.cur.cyc).flatMap fun d => (x.reads d.1 d.2.1 d.2.2).filter fun e => e.inside
    let lines := (es.map fun e => l0Line s.focus.core e.off.toNat).eraseDups
    if lines.isEmpty then s.rowClose x []
    else s.setProg { cu with opened := true, lines := [], reads := [lines], next := s.cur.cyc }

/-! ### The meanings -/

def execRowSeta (p : Pred) (q : Fin 16) (d : Fin 8) (st : State) : Out :=
  engineWord st p (.rowSeta p q d) fun s =>
    ((s.modCur fun m => { m with ra := m.ra.set d.val (s.popped 0) }).freeEngine 1).finish
def execRowMax (p : Pred) (q : Fin 16) (d a : Fin 8) (st : State) : Out :=
  engineWord st p (.rowMax p q d a) fun s => s.rowStart (specRowMax q d a)
def execRowExpsum (p : Pred) (q : Fin 16) (d a b : Fin 8) (st : State) : Out :=
  engineWord st p (.rowExpsum p q d a b) fun s => s.rowStart (specRowExpsum q d a b)
def execRowScale (p : Pred) (q : Fin 16) (d a b : Fin 8) (st : State) : Out :=
  engineWord st p (.rowScale p q d a b) fun s => s.rowStart (specRowScale q d a b)
def execRowSoft (p : Pred) (q : Fin 16) (d a : Fin 8) (st : State) : Out :=
  engineWord st p (.rowSoft p q d a) fun s => s.rowStart (specRowSoft q d a)
def execRowSum (p : Pred) (q : Fin 16) (d a : Fin 8) (st : State) : Out :=
  engineWord st p (.rowSum p q d a) fun s => s.rowStart (specRowSum q d a)
def execRowNorm (p : Pred) (q : Fin 16) (d a : Fin 8) (st : State) : Out :=
  engineWord st p (.rowNorm p q d a) fun s => s.rowStart (specRowNorm q d a)
def execRowRms (p : Pred) (q : Fin 16) (d a b : Fin 8) (st : State) : Out :=
  engineWord st p (.rowRms p q d a b) fun s => s.rowStart (specRowRms q d a b)

end Sys2Proof.Machine
end

