-- ==== Sys2Proof/Machine/Mat.lean ====
section
/-! DEFINITION. The matrix engine (R225 to R237): the blocks of a pass (R43 to R46), the tile commands with the checks of
R326, the accumulator path (R234), and the accumulator words (R236, R237). -/

namespace Sys2Proof.Machine

open Sys2Proof

/-! ### Blocks (R44, R45) -/

/-- A block of 32 aligned integers with its scale, and whether it is special. -/
structure Block where
  q : List Int
  scale : Rat
  special : Bool

/-- BlockAlign of R44. -/
def blockAlign (w : Nat) (xs : List FVal) : Block :=
  let zeros := xs.map fun _ => (0 : Int)
  if xs.any fun v => match v with
      | .fin _ _ => false
      | _ => true
  then ⟨zeros, 1, true⟩
  else
    let rs := xs.map fun v => match v with
      | .fin _ x => x
      | _ => 0
    if rs.all (· == 0) then ⟨zeros, 1, false⟩
    else
      let es := (rs.filter (· != 0)).map fun x => floorLog2 (ratAbs x)
      let e := es.foldl max (es.headD 0)
      ⟨rs.map fun x => satInt (roundNEInt (x * pow2 ((w : Int) - 2 - e))) (intLo true w) (intHi true w), pow2 e, false⟩

/-- MXINT elements requantised to w (R45), under a scale code. -/
def blockMx (w wn : Nat) (qs : List Int) (scale : Nat) : Block :=
  let q' := qs.map fun (q : Int) =>
    satInt (roundNEInt ((q : Rat) * pow2 ((w : Int) - (wn : Int)))) (intLo true w) (intHi true w)
  match scaleVal scale with
  | some v => ⟨q', v, false⟩
  | none => ⟨q', 0, true⟩

/-- The overflow of R47 under the saturation flag. -/
def passFinish (sat : Bool) (v : FVal) : Nat :=
  match v with
  | .inf n => if sat then (if n then 0xFF7FFFFF else 0x7F7FFFFF) else fp32.encode (.inf n)
  | v => fp32.encode v

/-- The contribution of a pair of blocks (R46). -/
def blockDot (w : Nat) (a b : Block) : Rat :=
  let dot : Int := (List.zipWith (fun x y => x * y) a.q b.q).foldl (fun s x => s + x) 0
  (dot : Rat) * pow2 (-2 * ((w : Int) - 2)) * a.scale * b.scale

/-- The pass value of an output; none when a block is special (R46, R48). -/
def passValue (w : Nat) (sat : Bool) (as bs : List Block) : Option Nat :=
  if (as.any Block.special) || (bs.any Block.special) then none
  else
    let cs := List.zipWith (blockDot w) as bs
    let nz := cs.filter (· != 0)
    if nz.isEmpty then some 0
    else
      let es := nz.map fun x => floorLog2 (ratAbs x)
      let emax := es.foldl max (es.headD 0)
      let l := pow2 (emax - 57)
      let parts := cs.map fun c => ((c / l).floor, decide (((c / l).floor : Rat) * l ≠ c))
      let s : Rat := ((parts.foldl (fun n p => n + p.1) 0 : Int) : Rat) * l
      let st := parts.any fun p => p.2
      some (passFinish sat (fp32.roundZ .rne (s + (if st then l / 2 else 0)) false).1)

/-- The new accumulator element (R46 to R48). -/
def accValue (clear sat : Bool) (old : Nat) (v : Option Nat) : Nat :=
  match v with
  | none => 0x7FC00000
  | some v =>
    if clear then v
    else
      let a := fp32.decode old
      let b := fp32.decode v
      let r := (floatAdd fp32 .rne a b).1
      let inf := match a, b with
        | .inf _, _ => true
        | _, .inf _ => true
        | _, _ => false
      passFinish (sat && !inf) r

/-! ### Format words (R228) -/

structure FormatWord where
  aty : ElemType
  bty : ElemType
  w : Nat
  sat : Bool
  clear : Bool
  asrc : Nat
  bsrc : Nat
  ascale : Nat
  bscale : Nat
  bar : Nat
  baren : Bool
  zeros : Bool
  deriving DecidableEq, Repr

def formatOf (x : Word) : FormatWord :=
  let v := x.toNat
  { aty := ElemType.ofCode (fld 3 0 v), bty := ElemType.ofCode (fld 7 4 v), w := fld 12 8 v, sat := bitAt 13 v,
    clear := bitAt 14 v, asrc := fld 19 16 v, bsrc := fld 23 20 v, ascale := fld 31 24 v, bscale := fld 39 32 v,
    bar := fld 49 40 v, baren := bitAt 50 v, zeros := fld 15 15 v == 0 && fld 63 51 v == 0 }

def passType (t : ElemType) : Bool :=
  t == .bf16 || t == .f16 || t == .e4m3 || t == .e5m2 || t.isMx

/-- The scale source of an operand obeys R228. -/
def scaleSrcOk (t : ElemType) (src scale : Nat) : Bool :=
  if t.isMx then (if 8 ≤ src then scale == 0 else src == 0) else src == 0 && scale == 0

/-- The format word is one of R228 (0x0503). -/
def FormatWord.ok (f : FormatWord) (kMajor : Bool) : Bool :=
  f.zeros && passType f.aty && passType f.bty && f.w % 2 == 0 && decide (4 ≤ f.w ∧ f.w ≤ 16) &&
    scaleSrcOk f.aty f.asrc f.ascale && scaleSrcOk f.bty f.bsrc f.bscale && !(kMajor && f.bty.isMx)

/-- E(w) of R43. -/
def passRow (w : Nat) : Nat := 32 * (3072 / (32 * w))

/-! ### A tile command -/

/-- A tile command with its descriptors and format. -/
structure TileCmd where
  f : FormatWord
  ta : Tile2
  tb : Tile2
  acc : Nat
  kMajor : Bool
  /-- the scale arrays of A and B, where they have one -/
  sa : Option Tile2
  sb : Option Tile2

def TileCmd.m (x : TileCmd) : Nat := x.ta.rows
def TileCmd.k (x : TileCmd) : Nat := x.ta.cols
def TileCmd.n (x : TileCmd) : Nat := if x.kMajor then x.tb.cols else x.tb.rows
def TileCmd.nb (x : TileCmd) : Nat := ceilDiv x.k 32

/-- Rows and elements per row of B as stored. -/
def TileCmd.bRows (x : TileCmd) : Nat := if x.kMajor then x.k else x.n
def TileCmd.bCols (x : TileCmd) : Nat := if x.kMajor then x.n else x.k

def State.tileCmd (s : State) (f : FormatWord) (d a b : Fin 8) (kMajor : Bool) : TileCmd :=
  let td := s.cur.td
  let at' (i : Nat) : Tile2 := tileOf (td[i % 8]'(Nat.mod_lt _ (by decide)))
  { f, ta := tileOf td[a.val], tb := tileOf td[b.val], acc := (tileOf td[d.val]).base, kMajor
    sa := if f.aty.isMx && decide (8 ≤ f.asrc) then some (at' f.asrc) else none
    sb := if f.bty.isMx && decide (8 ≤ f.bsrc) then some (at' f.bsrc) else none }

/-- The dimension rules of a tile command (0x0305). -/
def TileCmd.dimsOk (x : TileCmd) : Bool :=
  let match' := if x.kMajor then x.tb.rows == 0 else x.tb.cols == x.k
  let pitch (t : Tile2) (ty : ElemType) : Bool := decide (t.rows < 2 ∨ rowBytes ty t.cols ≤ t.pitch)
  decide (x.m ≤ 32 ∧ x.n ≤ 32 ∧ x.k ≤ passRow x.f.w) && match' &&
    (!(x.f.aty.isMx || x.f.bty.isMx) || x.k % 32 == 0) && pitch x.ta x.f.aty && pitch x.tb x.f.bty

/-- A tile's BASE, and the PITCH of MX rows, are aligned (R226). -/
def tileAligned (t : Tile2) (ty : ElemType) : Bool :=
  if ty.isMx then t.base % 8 == 0 && t.pitch % 8 == 0 else t.base % ty.bytes == 0

/-- The rows of bytes that an operand's elements occupy: first byte and length. -/
def tileSpans (t : Tile2) (ty : ElemType) (rows cols : Nat) : List (Nat × Nat) :=
  if cols = 0 then [] else (List.range rows).map fun i => (t.base + i * t.pitch, rowBytes ty cols)

/-- The spans a pass reads of A, of B and of the scale arrays (R230). -/
def TileCmd.aSpans (x : TileCmd) : List (Nat × Nat) :=
  if x.n = 0 then [] else tileSpans x.ta x.f.aty x.m x.k
def TileCmd.bSpans (x : TileCmd) : List (Nat × Nat) :=
  if x.m = 0 ∨ x.k = 0 then [] else tileSpans x.tb x.f.bty x.bRows x.bCols
def TileCmd.scaleSpans (x : TileCmd) : List (Nat × Nat) :=
  let one (t : Option Tile2) (rows : Nat) : List (Nat × Nat) :=
    match t with
    | some t => (List.range rows).map fun i => (t.base + i * t.pitch, x.nb)
    | none => []
  if x.m = 0 ∨ x.n = 0 ∨ x.k = 0 then [] else one x.sa x.m ++ one x.sb x.n

/-- The rows of the accumulator that a command writes: M rows of N FP32 elements (R226). -/
def TileCmd.accSpans (x : TileCmd) : List (Nat × Nat) :=
  if x.m = 0 ∨ x.n = 0 ∨ (x.k = 0 ∧ x.f.clear = false) then []
  else (List.range x.m).map fun i => (x.acc + 128 * i, 4 * x.n)

/-- The lines of spans of bytes. -/
def spanLines (l : List (Nat × Nat)) : List Nat :=
  (l.flatMap fun x => (List.range ((x.1 + x.2 - 1) / 256 + 1 - x.1 / 256)).map (· + x.1 / 256)).eraseDups

/-- The first span that leaves layer 0, with its first byte beyond it. -/
def spanOutside (l : List (Nat × Nat)) : Option Nat :=
  (l.find? fun x => decide (2 ^ 21 < x.1 + x.2)).map fun x => max x.1 (2 ^ 21)

/-- The bank group of the lines of an operand, when they have one. -/
def groupOf (lines : List Nat) : Option Nat := lines.head?.map fun n => l0Group (n * 256)
def oneGroup (lines : List Nat) : Bool := lines.all fun n => some (l0Group (n * 256)) == groupOf lines

/-- The checks of R326, in its order. -/
def TileCmd.startFault (x : TileCmd) : Option (BitVec 16 × Option Word) :=
  let la := spanLines x.aSpans
  let lb := spanLines x.bSpans
  let addr (n : Nat) : Option Word := some (localAddr (n : Int))
  if !(x.f.ok x.kMajor) then some (0x0503, none)
  else if !x.dimsOk then some (0x0305, none)
  else if !(tileAligned x.ta x.f.aty) then some (0x0301, addr x.ta.base)
  else if !(tileAligned x.tb x.f.bty) then some (0x0301, addr x.tb.base)
  else match spanOutside (x.aSpans ++ x.bSpans ++ x.scaleSpans ++ x.accSpans) with
    | some o => some (0x0302, addr o)
    | none =>
      if x.acc % 128 ≠ 0 then some (0x0504, addr x.acc)
      else if !(oneGroup la) then some (0x0502, addr x.ta.base)
      else if !(oneGroup lb) then some (0x0502, addr x.tb.base)
      else if la ≠ [] ∧ lb ≠ [] ∧ groupOf la = groupOf lb then some (0x0501, addr x.ta.base)
      else none

/-- Block b of an operand row whose element k has the code `code k`, entering the array (Enter of R230). -/
def enterBlock (w : Nat) (ty : ElemType) (k b : Nat) (code : Nat → Nat) (scale : Nat) : Block :=
  let ix := (List.range 32).map fun i => 32 * b + i
  match ty.fmt with
  | some F => blockAlign w (ix.map fun i => if i < k then F.decode (code i) else .fin false 0)
  | none => blockMx w ty.mxWidth (ix.map fun i => intOf true ty.mxWidth (code i)) scale

/-- The pass values of a command, from layer 0 as it stands (R230, R46). -/
def State.passVals (s : State) (core : CoreIx) (x : TileCmd) : List (Option Nat) :=
  let nbs := List.range x.nb
  let scale (t : Option Tile2) (c i b : Nat) : Nat :=
    match t with
    | some t => s.read (keyL0 core.val (t.base + i * t.pitch + b)) 1
    | none => c
  let arow (i : Nat) : List Block := nbs.map fun b =>
    enterBlock x.f.w x.f.aty x.k b (fun k => s.tileElem core x.ta x.f.aty i k) (scale x.sa x.f.ascale i b)
  let brow (j : Nat) : List Block := nbs.map fun b =>
    enterBlock x.f.w x.f.bty x.k b
      (fun k => if x.kMajor then s.tileElem core x.tb x.f.bty k j else s.tileElem core x.tb x.f.bty j k)
      (scale x.sb x.f.bscale j b)
  let bs := (List.range x.n).map brow
  (List.range x.m).flatMap fun i =>
    let a := arow i
    bs.map fun b => passValue x.f.w x.f.sat a b

/-- P of R233. -/
def TileCmd.cycles (x : TileCmd) : Nat := max 1 (ceilDiv (32 * x.nb * x.f.w ^ 2) 1024)

/-- Whether a core may issue a pass now (R310, R311). -/
def State.meToken (s : State) (core : CoreIx) : Bool :=
  !(s.tokHeld core) && decide ((s.core core).tokMe < fld 11 0 (s.col (coreCol core)).thermal.toNat)

/-- The accumulator lines of a pass, whose reads are requested from a cycle on (R234). -/
def accPlan (from' : Nat) (lines : List Nat) : List AccLine := lines.map fun line => { line, due := from', out := none }

/-- The asker of the word in focus. -/
def State.askerOf (s : State) (push : Option (Fin 16)) : Asker :=
  { tid := s.cur.tid, q := s.focus.q, ctx := ixCtx s.focus.ctx, push, mpc := s.prog.mpc }

/-- The pass of the word in focus, its values formed in a task cycle. -/
def State.passOf (s : State) (x : TileCmd) (formed : Nat) (vals : List (Option Nat)) : Pass :=
  let word := s.curQ.words.head?
  { tid := s.cur.tid, ctx := s.focus.ctx, nb := x.nb, formed, acc := x.acc, m := x.m, n := x.n, clear := x.f.clear
    sat := x.f.sat, vals, lines := accPlan (formed + 1) (spanLines x.accSpans), wrote := s.cur.cyc
    count := x.m * ((4 * x.n + 31) / 32), bar := if x.f.baren then some x.f.bar else none, post := none, bad := none
    pc := match word with
      | some w => w.pc
      | none => 0
    trap := match word with
      | some w => w.trap
      | none => false }

def State.addPass (s : State) (p : Pass) : State := s.modCur fun m => { m with passes := m.passes ++ [p] }

/-- P' of R233. -/
def TileCmd.busy (x : TileCmd) : Nat :=
  max x.cycles (readSpan (spanLines (x.aSpans ++ x.bSpans ++ x.scaleSpans)))

/-- The last operand line of a pass is read: its values are those of the lines as they were read, formed at T + P' + 1, and
the word occupies the array until T + P' (R233). T stands in `fromAt`. -/
def State.tileFormed (s : State) (x : TileCmd) (lines : Store (List Host.Cell)) : State :=
  let core := s.focus.core
  let cu := s.prog
  let keys := (x.aSpans ++ x.bSpans ++ x.scaleSpans).map fun y => (keyL0 core.val y.1, y.2)
  let s := s.noteReads keys
  match (if s.poison.isEmpty then none else keys.findSome? fun y => s.poisonIn y.1 y.2) with
  | some g => s.engineFault 0x0E01 (some (localAddr ((g % 2 ^ 21 : Nat) : Int)))
  | none =>
    let free := cu.fromAt + x.busy
    ((s.addPass (s.passOf x (free + 1) ((s.withLines lines).passVals core x))).setProg
      { cu with opened := false, reads := [], lines := [], lastDone := true, next := free }).modCur fun m =>
        { m with arrayFree := free }

/-- The lines granted to a pass are read; the cycle of its first lines is its T (R233). -/
def State.tileRead (s : State) (x : TileCmd) : State :=
  let cu := s.prog
  let got := s.stepLines
  let lines := s.capture cu.lines got
  match cu.reads with
  | [] => s
  | l :: rest =>
    let left := l.filter fun n => !(got.contains n)
    let first := cu.part.getD 0 0 != 2
    if !left.isEmpty then s.setProg { cu with lines, reads := left :: rest, part := if got.isEmpty then cu.part else [max 1 (cu.part.getD 0 0)] }
    else
      let cu1 := { cu with lines, part := [2], fromAt := if first then s.cur.cyc else cu.fromAt }
      if rest.isEmpty then (s.setProg cu1).tileFormed x lines
      else s.setProg { cu1 with reads := rest, next := s.cur.cyc + 1 + s.lag }

/-- A tile command starts, or goes on with the operand lines granted to it (R229 to R234). -/
def State.tileStart (s : State) (d a b : Fin 8) (kMajor : Bool) : State :=
  let core := s.focus.core
  let f := formatOf (s.popped 0)
  let x := s.tileCmd f d a b kMajor
  let now := s.cur.cyc
  if s.prog.opened then s.tileRead x
  else match x.startFault with
  | some (c, ad) => s.engineFault c ad
  | none =>
    let s := if f.baren then s.irrev else s
    if x.accSpans.isEmpty then
      -- nothing is read or written; the count 0 is posted at s + 2
      let s1 := if f.baren then s.sendCount 2 (s.ownBar (coreCol core) f.bar) 0 (some (s.askerOf none)) else s
      (s1.freeEngine 1).finish
    else if x.k = 0 then
      ((s.addPass (s.passOf x (now + 1) (List.replicate (x.m * x.n) (some 0)))).freeEngine 1).finish
    else if !(s.meToken core) then (s.setProg { s.prog with next := now + 1 }).noteToken core false
    else
      let lines := (spanLines (x.aSpans ++ x.bSpans ++ x.scaleSpans)).map fun n => l0Line core (256 * n)
      (s.modCore core fun k => { k with tokMe := k.tokMe + x.busy, asked := k.asked + 1 }).setProg
        { s.prog with opened := true, lines := [], reads := readSteps lines, next := now, part := [0] }

/-- The blocks of a pass whose contributions are formed (R91, R233): none before T, all at T + P'. Those between are
spread evenly over the cycles of the array. DESIGN CHOICE (log 105). -/
def Cur.blocksFormed (k : Cur) (nb cyc : Nat) : Nat := min nb (nb * (cyc + 1 - k.fromAt) / max 1 (k.next - k.fromAt))

/-- The micro-PC of the pass that occupies the array, as its cycle ends. -/
def Image.countBlocks (m : Image) (c : Fin 3) : Image :=
  match m.passes.getLast? with
  | some p => m.modEq 2 c fun e => { e with cur := e.cur.map fun k => { k with mpc := k.blocksFormed p.nb m.cyc } }
  | none => m

/-! ### The accumulator path (R234) -/

/-- The elements of a pass on a line: output and offset. -/
def Pass.onLine (p : Pass) (line : Nat) : List (Nat × Nat × Nat) :=
  ((List.range p.m).flatMap fun i => (List.range p.n).map fun j => (i, j, p.acc + 128 * i + 4 * j)).filter
    fun e => e.2.2 / 256 == line

/-- A line is read: the values that its write, requested 4 cycles later, will carry; or the poisoned granule met. -/
def State.accRead (s : State) (core : CoreIx) (p : Pass) (l : AccLine) (now : Nat) : AccLine × Option Word × State :=
  let es := p.onLine l.line
  let s1 := s.noteReads (es.map fun e => (keyL0 core.val e.2.2, 4))
  let bad := if s1.poison.isEmpty then none
    else (es.filterMap fun e => s1.poisonIn (keyL0 core.val e.2.2) 4).foldl (fun a g => some (match a with
      | some y => min y g
      | none => g)) none
  let out := es.map fun e =>
    (e.2.2, accValue p.clear p.sat (s1.read (keyL0 core.val e.2.2) 4) (p.vals.getD (e.1 * p.n + e.2.1) none))
  match bad with
  | some g => ({ l with out := some [], due := now + 4 }, some (localAddr ((g % 2 ^ 21 : Nat) : Int)), s1)
  | none => ({ l with out := some out, due := now + 4 }, none, s1)

/-- The accumulator lines of a pass that are served: a line not read yet is read, one that is read is written. -/
def State.passLines (s : State) (core : CoreIx) (now : Nat) (served : Nat → Bool) (p : Pass) : Pass × State :=
  let (ls, bad, w, s1) := p.lines.zipIdx.foldl (fun (a : List AccLine × Option Word × Nat × State) l =>
    let (acc, bad, w, s) := a
    if !(served l.2) then (acc ++ [l.1], bad, w, s)
    else match l.1.out with
      | none =>
        let (l', b, s') := s.accRead core p l.1 now
        (acc ++ [l'], bad.or b, w, s')
      | some out => (acc, bad, now, s.each out fun s e => s.write (keyL0 core.val e.1) 4 e.2)) ([], p.bad, p.wrote, s)
  ({ p with lines := ls, bad, wrote := w }, s1)

/-- A pass whose last write has been granted: its count is on its way, and a poisoned line is raised (R234, R338). -/
def State.passDone (s : State) (core : CoreIx) (bank : BankIx) (p : Pass) : State :=
  let s1 := match p.bar with
    | some ix =>
      s.postCount core 2 (s.ownBar (coreCol core) ix) p.count
        (some { tid := p.tid, q := 2, ctx := ixCtx p.ctx, push := none, mpc := p.nb })
    | none => s
  match p.bad with
  | some a => if (s1.img core bank).holds p.tid then s1.raiseAt core bank p.ctx 2 p.nb p.pc p.trap 0x0E01 a else s1
  | none => s1

/-- A pass is performed when its last write is granted, or with BAREN when its count is posted 2 cycles later (R234). -/
def Pass.over (p : Pass) (now : Nat) : Bool :=
  p.lines.isEmpty && (match p.post with
    | some n => decide (n ≤ now)
    | none => p.bar.isNone)

/-- The accumulator path of a bank in a cycle: the lines granted to it. -/
def State.accPath (s : State) (core : CoreIx) (bank : BankIx) : State :=
  let m := s.img core bank
  let now := m.cyc
  let granted := (s.core core).granted
  let (ps, s1) := m.passes.zipIdx.foldl (fun (a : List Pass × State) p =>
    let (p', s') := a.2.passLines core now (fun j => granted.any fun r => r.who == .acc bank p.2 j) p.1
    (a.1 ++ [p'], s')) ([], s)
  let done := ps.filter fun p => p.lines.isEmpty && p.post.isNone
  let ps' := ps.map fun p =>
    if p.lines.isEmpty && p.post.isNone && p.bar.isSome then { p with post := some (now + 2) } else p
  let s2 := s1.modImg core bank fun m => { m with passes := ps'.filter fun p => !(p.over now) }
  s2.each done fun s p => s.passDone core bank p

/-- PASS_ACCUMULATION (R234): read-modify-writes of the passes whose values are formed. -/
def execPassAccumulation (s : State) : Out :=
  match s.focus.event with
  | some (.passAccumulation core bank) => .next (s.accPath core bank)
  | _ => .fault (.nothingThere "PASS_ACCUMULATION")

/-! ### Accumulator words (R236, R237) -/

/-- The elements of a tile: row, column and offset. -/
def tileCells (t : Tile2) (ty : ElemType) : List (Nat × Nat × Nat) :=
  (List.range t.rows).flatMap fun i => (List.range t.cols).map fun j => (i, j, t.base + i * t.pitch + j * ty.bytes)

/-- What an accumulator word reads and writes: the types of its tiles, the element it reads of A for element (i, j) of
D, whether it reads D, its dimension rule, and its element function of d's and a's codes. -/
structure AccSpec where
  dty : ElemType
  aty : Option ElemType
  readD : Bool
  from' : Nat → Nat → Nat × Nat
  dims : Tile2 → Tile2 → Bool
  elem : Nat → Nat → Nat

def sameSize (d a : Tile2) : Bool := d.rows == a.rows && d.cols == a.cols

def accPitch (t : Tile2) (ty : ElemType) : Bool := decide (t.rows < 2 ∨ rowBytes ty t.cols ≤ t.pitch)

/-- Where an accumulator word reads A for element (i, j) of D. -/
def AccSpec.aAt (x : AccSpec) (a : Tile2) (t : ElemType) (i j : Nat) : Nat :=
  a.base + (x.from' i j).1 * a.pitch + (x.from' i j).2 * t.bytes

/-- The elements that an accumulator word reads: first byte and length. -/
def AccSpec.reads (x : AccSpec) (d a : Tile2) : List (Nat × Nat) :=
  let cells := tileCells d x.dty
  (if x.readD then cells.map fun e => (e.2.2, x.dty.bytes) else []) ++ (match x.aty with
    | some t => cells.map fun e => (x.aAt a t e.1 e.2.1, t.bytes)
    | none => [])

/-- The code and address that an accumulator word raises at its start (R326): of A only the elements it reads have to lie
in layer 0. -/
def AccSpec.startFault (x : AccSpec) (d a : Tile2) : Option (BitVec 16 × Option Word) :=
  let tiles := (d, x.dty) :: (match x.aty with
    | some t => [(a, t)]
    | none => [])
  if !(x.dims d a && tiles.all fun t => accPitch t.1 t.2) then some (0x0305, none)
  else match tiles.find? fun t => !(tileAligned t.1 t.2) with
    | some t => some (0x0301, some (localAddr (t.1.base : Int)))
    | none =>
      match spanOutside (tileSpans d x.dty d.rows d.cols ++ x.reads d a) with
      | some o => some (0x0302, some (localAddr (o : Int)))
      | none => none

/-- The last line of an accumulator word is read: it writes D 6 cycles later (R236). -/
def State.accClose (s : State) (x : AccSpec) (td ta : Tile2) (lines : Store (List Host.Cell)) : State :=
  let core := s.focus.core
  let cu := s.prog
  let keys := (x.reads td ta).map fun y => (keyL0 core.val y.1, y.2)
  let s := s.noteReads keys
  match (if s.poison.isEmpty then none else keys.findSome? fun y => s.poisonIn y.1 y.2) with
  | some g => s.engineFault 0x0E01 (some (localAddr ((g % 2 ^ 21 : Nat) : Int)))
  | none =>
    let seen := s.withLines lines
    let code (o n : Nat) : Nat := seen.read (keyL0 core.val o) n
    let bytes := (tileCells td x.dty).flatMap fun e =>
      let dv := if x.readD then code e.2.2 x.dty.bytes else 0
      let av := match x.aty with
        | some t => code (x.aAt ta t e.1 e.2.1) t.bytes
        | none => 0
      let v := x.elem dv av
      (List.range x.dty.bytes).map fun i => ({ off := e.2.2 + i, val := v / 2 ^ (8 * i) % 256, mask := 255 } : ByteWrite)
    (s.pendElems 6 { bytes, flags := [] } { first := td.base, stride := 0, count := 0, ty := x.dty } false).setProg
      { cu with opened := false, reads := [], lines := [], lastDone := true, next := s.cur.cyc + 1 + s.lag }

/-- An accumulator word starts, or goes on with the lines granted to it: it reads its tiles over its read span (R236). -/
def State.accStart (s : State) (x : AccSpec) (d a : Fin 8) : State :=
  let core := s.focus.core
  let cu := s.prog
  let td := tileOf s.cur.td[d.val]
  let ta := tileOf s.cur.td[a.val]
  if cu.opened then
    let got := s.stepLines
    let lines := s.capture cu.lines got
    match cu.reads with
    | [] => s
    | l :: rest =>
      let left := l.filter fun n => !(got.contains n)
      if !left.isEmpty then s.setProg { cu with lines, reads := left :: rest }
      else if rest.isEmpty then s.accClose x td ta lines
      else s.setProg { cu with lines, reads := rest, next := s.cur.cyc + 1 + s.lag }
  else match x.startFault td ta with
  | some (c, ad) => s.engineFault c ad
  | none =>
    if (tileCells td x.dty).isEmpty then (s.freeEngine 1).finish
    else
      let lines := (spanLines (x.reads td ta)).map fun n => l0Line core (256 * n)
      if lines.isEmpty then s.accClose x td ta []
      else s.setProg { cu with opened := true, lines := [], reads := readSteps lines, next := s.cur.cyc }

def anyDims (_d _a : Tile2) : Bool := true
def straight (i j : Nat) : Nat × Nat := (i, j)

/-- The element functions of R237 on FP32 codes. -/
def fpAdd (x y : Nat) : Nat := fp32.encode (floatAdd fp32 .rne (fp32.decode x) (fp32.decode y)).1
def fpMul (x y : Nat) : Nat := fp32.encode (floatMul fp32 .rne (fp32.decode x) (fp32.decode y)).1
def fpRelu (x : Nat) : Nat :=
  match fp32.decode x with
  | .nan _ => 0x7FC00000
  | v => if v.neg? then 0 else x
/-- `m.cvt` of an FP32 code to a float type, with the saturation flag of R38. -/
def fpCvt (t : ElemType) (sat : Bool) (x : Nat) : Nat :=
  match t.fmt with
  | some G => (cvtFF (fp32.decode x) G .rne sat).1
  | none => 0

def specMClr (t : ElemType) : AccSpec :=
  { dty := t, aty := none, readD := false, from' := straight, dims := anyDims, elem := fun _ _ => 0 }
def specMCvt (t : ElemType) (sat : Bool) : AccSpec :=
  { dty := t, aty := some .f32, readD := false, from' := straight, dims := sameSize, elem := fun _ a => fpCvt t sat a }
def specMCopy (t : ElemType) : AccSpec :=
  { dty := t, aty := some t, readD := false, from' := straight, dims := sameSize, elem := fun _ a => a }
def specMTr (t : ElemType) : AccSpec :=
  { dty := t, aty := some t, readD := false, from' := fun i j => (j, i), elem := fun _ a => a
    dims := fun d a => a.rows == d.cols && a.cols == d.rows && decide (d.rows ≤ 32 ∧ d.cols ≤ 32) }
def specMBias : AccSpec :=
  { dty := .f32, aty := some .f32, readD := true, from' := fun _ j => (0, j), elem := fpAdd
    dims := fun d a => a.rows == 1 && decide (d.cols ≤ a.cols) }
def specMAdd : AccSpec :=
  { dty := .f32, aty := some .f32, readD := true, from' := straight, dims := sameSize, elem := fpAdd }
def specMScl (sigma : Nat) : AccSpec :=
  { dty := .f32, aty := none, readD := true, from' := straight, dims := anyDims, elem := fun d _ => fpMul d sigma }
def specMRelu : AccSpec :=
  { dty := .f32, aty := none, readD := true, from' := straight, dims := anyDims, elem := fun d _ => fpRelu d }

/-- The accumulator word of an instruction, with its tiles D and A; the entry that `m.scl` has popped is its scale. -/
def State.accSpecOf (s : State) (i : Instr) : Option (AccSpec × Fin 8 × Fin 8) :=
  match i with
  | .mClr _ t d => some (specMClr t, d, d)
  | .mCvt _ t d a sat => some (specMCvt t sat, d, a)
  | .mBias _ d a => some (specMBias, d, a)
  | .mTr _ t d a => some (specMTr t, d, a)
  | .mScl _ _ d => some (specMScl ((s.popped 0).toNat % 2 ^ 32), d, d)
  | .mCopy _ t d a => some (specMCopy t, d, a)
  | .mAdd _ d a => some (specMAdd, d, a)
  | .mRelu _ d => some (specMRelu, d, d)
  | _ => none

/-! ### The meanings -/

def execMSett (p : Pred) (q : Fin 16) (d : Fin 8) (st : State) : Out :=
  engineWord st p (.mSett p q d) fun s =>
    ((s.modCur fun m => { m with td := m.td.set d.val (s.popped 0) }).freeEngine 1).finish
def execMMma (p : Pred) (d a b : Fin 8) (st : State) : Out :=
  engineWord st p (.mMma p d a b) fun s => s.tileStart d a b false
def execMMmat (p : Pred) (d a b : Fin 8) (st : State) : Out :=
  engineWord st p (.mMmat p d a b) fun s => s.tileStart d a b true
def execMClr (p : Pred) (t : ElemType) (d : Fin 8) (st : State) : Out :=
  engineWord st p (.mClr p t d) fun s => s.accStart (specMClr t) d d
def execMCvt (p : Pred) (t : ElemType) (d a : Fin 8) (sat : Bool) (st : State) : Out :=
  engineWord st p (.mCvt p t d a sat) fun s => s.accStart (specMCvt t sat) d a
def execMBias (p : Pred) (d a : Fin 8) (st : State) : Out :=
  engineWord st p (.mBias p d a) fun s => s.accStart specMBias d a
def execMTr (p : Pred) (t : ElemType) (d a : Fin 8) (st : State) : Out :=
  engineWord st p (.mTr p t d a) fun s => s.accStart (specMTr t) d a
def execMScl (p : Pred) (q : Fin 16) (d : Fin 8) (st : State) : Out :=
  engineWord st p (.mScl p q d) fun s => s.accStart (specMScl ((s.popped 0).toNat % 2 ^ 32)) d d
def execMCopy (p : Pred) (t : ElemType) (d a : Fin 8) (st : State) : Out :=
  engineWord st p (.mCopy p t d a) fun s => s.accStart (specMCopy t) d a
/-- The popped format word is discarded (R237). -/
def execMDrop (p : Pred) (st : State) : Out :=
  engineWord st p (.mDrop p) fun s => (s.freeEngine 1).finish
def execMAdd (p : Pred) (d a : Fin 8) (st : State) : Out :=
  engineWord st p (.mAdd p d a) fun s => s.accStart specMAdd d a
def execMRelu (p : Pred) (d : Fin 8) (st : State) : Out :=
  engineWord st p (.mRelu p d) fun s => s.accStart specMRelu d d

end Sys2Proof.Machine
end

