-- ==== Sys2Proof/Machine/Scatter.lean ====
section
/-! DEFINITION. The scatter-accumulate engine (R238 to R244): the operations of R240, the take of one element a cycle with
its meld window (R241), the updates performed at their homes (R242, R78), and the words of R239 and R243. -/

namespace Sys2Proof.Machine

open Sys2Proof

/-! ### Operations (R240) -/

/-- The update operations. -/
inductive SaOp where
  | add | min | max | and | or | xor | swap | cas | cnt
  deriving DecidableEq, Repr

/-- Operation slot in the SACC engine, as an update carries it. -/
def SaOp.slot : SaOp → Nat
  | .add => 1
  | .min => 2
  | .max => 3
  | .and => 4
  | .or => 5
  | .xor => 6
  | .swap => 7
  | .cas => 8
  | .cnt => 9

/-- The types T of an operation. -/
def SaOp.takes (o : SaOp) (t : ElemType) : Bool :=
  let ints := t == .i32 || t == .n32 || t == .i64 || t == .n64
  match o with
  | .add => ints || t == .f32 || t == .bf16
  | .min | .max | .swap | .cas => ints || t == .f32
  | .and | .or | .xor => ints
  | .cnt => t == .n32

/-- A word merges when it returns nothing and is not a swap or compare-and-swap (R241). -/
def SaOp.merges (o : SaOp) (ret : Bool) : Bool := !ret && o != .swap && o != .cas

/-- A value as it enters the meld window: a BF16 value as its exact FP32 value. -/
def SaOp.enter (o : SaOp) (t : ElemType) (v : Nat) : Nat :=
  if o = .add ∧ t = .bf16 then v * 65536 else v

/-- Float or integer minimum and maximum (R40). -/
def saMinMax (t : ElemType) (isMax : Bool) (a b : Nat) : Nat :=
  match t.fmt with
  | some F => F.encode (floatMinMax isMax (F.decode a) (F.decode b)).1
  | none =>
    let x := intOf t.signed t.bits a
    let y := intOf t.signed t.bits b
    intCode t.bits (if isMax then max x y else min x y)

/-- Merge of R241. -/
def SaOp.merge (o : SaOp) (t : ElemType) (m v : Nat) : Nat :=
  match o with
  | .add =>
    if t.isFloat then fp32.encode (floatAdd fp32 .rne (fp32.decode m) (fp32.decode v)).1
    else (m + v) % 2 ^ t.bits
  | .min => saMinMax t false m v
  | .max => saMinMax t true m v
  | .and => m &&& v
  | .or => m ||| v
  | .xor => m ^^^ v
  | .cnt => (m + 1) % 2 ^ 32
  | .swap | .cas => v

/-- The new value at the home, of the old value o, an update's value m and its expected value. -/
def saNew (slot : Nat) (t : ElemType) (o m expect : Nat) : Nat :=
  match slot with
  | 1 =>
    match t with
    | .bf16 => fpBF16.encode (floatAdd fpBF16 .rne (fpBF16.decode o) (fp32.decode m)).1
    | .f32 => fp32.encode (floatAdd fp32 .rne (fp32.decode o) (fp32.decode m)).1
    | t => (o + m) % 2 ^ t.bits
  | 2 => saMinMax t false o m
  | 3 => saMinMax t true o m
  | 4 => o &&& m
  | 5 => o ||| m
  | 6 => o ^^^ m
  | 7 => m
  | 8 => if o = expect then m else o
  | _ => (o + m) % 2 ^ 32

/-! ### A word -/

/-- An update word (R238). -/
structure SaWord where
  op : SaOp
  scope : Nat
  ret : Bool
  r : Nat
  i : Nat
  v : Option Nat
  deriving DecidableEq, Repr

def saWordOf (i : Instr) : Option SaWord :=
  match i with
  | .saAdd _ _ s e w i v => some ⟨.add, s.val, e, w.val, i.toNat, some v.val⟩
  | .saMin _ _ s e w i v => some ⟨.min, s.val, e, w.val, i.toNat, some v.val⟩
  | .saMax _ _ s e w i v => some ⟨.max, s.val, e, w.val, i.toNat, some v.val⟩
  | .saAnd _ _ s e w i v => some ⟨.and, s.val, e, w.val, i.toNat, some v.val⟩
  | .saOr _ _ s e w i v => some ⟨.or, s.val, e, w.val, i.toNat, some v.val⟩
  | .saXor _ _ s e w i v => some ⟨.xor, s.val, e, w.val, i.toNat, some v.val⟩
  | .saSwap _ _ s e w i v => some ⟨.swap, s.val, e, w.val, i.toNat, some v.val⟩
  | .saCas _ _ s w i v => some ⟨.cas, s.val, true, w.val, i.toNat, some v.val⟩
  | .saCnt _ _ s e w i => some ⟨.cnt, s.val, e, w.val, i.toNat, none⟩
  | _ => none

/-- The regions of a word as its start found them: index, value and return. -/
structure SaRegions where
  i : Region
  v : Option Region
  r : Option Region

def saRegions (x : SaWord) (wi wv wr : Nat) : SaRegions :=
  let region (n : Nat) : Region := regionOf (BitVec.ofNat 64 n)
  { i := region wi, v := x.v.map fun _ => region wv, r := if x.ret then some (region wr) else none }

def SaRegions.ty (g : SaRegions) : ElemType :=
  match g.v with
  | some v => v.ty
  | none => .n32

/-- What a SACC word raises at its start (R327, R238). -/
def SaRegions.startFault (g : SaRegions) (o : SaOp) : Option (BitVec 16 × Option Word) :=
  let n := g.i.count
  let ix := g.i.ty
  let others := g.v.toList ++ g.r.toList
  if !(ix == .i32 || ix == .n32 || ix == .i64 || ix == .n64) || !(o.takes g.ty) ||
      others.any (fun r => r.ty != g.ty || decide (r.count < n)) then some (0x0303, none)
  else match (g.i :: others).find? fun r => !r.aligned with
    | some r => some (0x0301, some (localAddr (r.base : Int)))
    | none => none

/-- The address of the element whose index code is c (R238). -/
def SaRegions.target (g : SaRegions) (base : Word) (c : Nat) : Word :=
  base + BitVec.ofInt 64 (intOf g.i.ty.signed g.i.ty.bits c) * BitVec.ofNat 64 g.ty.bytes

/-! ### Homes -/

/-- The place a key of the package's layers names. -/
def keyLoc (k : Nat) : Option Loc :=
  match spaceOf k with
  | .l0 core off => some ⟨core / 64, core / 8 % 8, core % 8, 0, off⟩
  | .tower col layer off => some ⟨col / 8, col % 8, 0, layer, off⟩
  | _ => none

/-- Whether two keys have one home (R78). -/
def sameHome (a b : Nat) : Bool :=
  match spaceOf a, spaceOf b with
  | .l0 c o, .l0 c' o' => c == c' && l0Bank o == l0Bank o'
  | .tower c l _, .tower c' l' _ => c == c' && l == l'
  | .far p d _, .far p' d' _ => p == p' && d == d'
  | .otherTower p, .otherTower p' => p == p'
  | .host _, .host _ => true
  | _, _ => false

/-- An access to the DRAM layer, as its bank's limits see it (R63). -/
def State.dramTouch (s : State) (k : Nat) (wr : Bool) : State :=
  match spaceOf k with
  | .tower col 4 off =>
    s.modDram (Fin.ofNat 32 col) (dramBankOf off) fun b =>
      { b with rwAt := max b.rwAt s.now, wrAt := if wr then s.now else b.wrAt }
  | _ => s

/-- Whether two updates come from one per-context SACC queue: of a bank, or of a task that has moved. -/
def Update.sameQueue (a b : Update) : Bool :=
  a.ctx == b.ctx && a.via == b.via && ((a.core == b.core && a.bank == b.bank) || a.tid == b.tid)

/-- The cycle up to which earlier updates of a queue to one home are on their way (R243). -/
def State.homeBusy (s : State) (x : Update) : Nat :=
  s.agenda.foldl (fun n e => match e.act with
    | .ev (.saHomeUpdate u) =>
      if u.sameQueue x = true ∧ u.old.isNone ∧ u.bad.isNone ∧ sameHome u.key x.key = true then max n e.due else n
    | _ => n) 0

/-- An update is sent, `n` cycles from now (R242). -/
def State.sendUpdate (s : State) (n : Nat) (x : SaWord) (t : ElemType) (addr : Word) (key val expect : Nat)
    (ret : Option Nat) : State :=
  let w := s.curQ.words.head?
  let u : Update :=
    { tid := s.cur.tid, ctx := ixCtx s.focus.ctx, core := s.focus.core, bank := s.focus.bank, op := x.op.slot, key, addr
      ty := t, val, expect, ret, back := 3, scope := x.scope, old := none, bad := none, ready := false
      pc := match w with
        | some w => w.pc
        | none => 0
      trap := match w with
        | some w => w.trap
        | none => false }
  match keyLoc key with
  | some l =>
    let at' := max (s.now + n + loadD l.layer + s.wayTo l) (s.homeBusy u)
    s.schedule at' rankUnit (.ev (.saHomeUpdate u))
  | none =>
    match s.awayPkg key with
    | some p =>
      (s.modPkg fun q => { q with away := q.away ++ [u] }).send p (.update { u with key := s.pkgKey key, via := some s.pkg.num })
    | none =>
      let (f, s1) := s.nextFree
      let at' := max (s.now + n + Config.freeLatency f) (s.homeBusy u)
      let (f', s2) := s1.nextFree
      s2.schedule at' rankMemory (.ev (.saHomeUpdate { u with back := Config.freeLatency f', ready := true }))

/-! ### Taking elements (R241) -/

/-- Why an element is not taken. -/
inductive SaStop where
  | fault (code : BitVec 16) (addr : Word)
  /-- its page is not resident (R332) -/
  | page

/-- The home of a target, or why its element is not taken (R327, R329, R354, R355, R332). -/
def State.saHome (s : State) (x : SaWord) (t : ElemType) (base a : Word) : Except SaStop Nat × State :=
  let core := s.focus.core
  let n := t.bytes
  if a.toNat % n ≠ 0 then (.error (.fault 0x0301 a), s)
  else if isGeneric base then
    match locOf core a, locOf core base with
    | some l, some lb =>
      if l.layer ≠ lb.layer then (.error (.fault 0x0701 a), s)
      else if s.reservedBank l then (.error (.fault 0x0703 a), s)
      else match s.capFault l n s.view with
        | some c => (.error (.fault c a), s)
        | none =>
          if l.layer = 4 ∧ s.rowOpen l.colIx l.off = false then (.error (.fault 0x0801 a), s) else (.ok l.key, s)
    | _, _ => (.error (.fault 0x0701 a), s)
  else if isGeneric a then (.error (.fault 0x0701 a), s)
  else
    match s.translate (some (s.focus.core, s.focus.q)) a.toNat true with
    | (.fault c, s1) => (.error (.fault c a), s1)
    | (.absent _, s1) => (.error .page, s1)
    | (.pa k, s1) =>
      match spaceOf k with
      | .host _ =>
        let ints := t == .i32 || t == .n32 || t == .i64 || t == .n64
        if !((x.op == .add || x.op == .swap || x.op == .cas) && ints) then (.error (.fault 0x0C01 a), s1)
        else if !s1.pkg.pcieUp then (.error (.fault 0x0C02 a), s1)
        else (.ok k, s1)
      | .tower col layer off =>
        let l : Loc := ⟨col / 8, col % 8, 0, layer, off⟩
        if s1.reservedBank l then (.error (.fault 0x0703 a), s1)
        else match s1.capFault l n s1.view with
          | some c => (.error (.fault c a), s1)
          | none =>
            if layer = 4 ∧ s1.rowOpen l.colIx off = false then (.error (.fault 0x0801 a), s1) else (.ok k, s1)
      | .far p _ _ | .otherTower p =>
        if p = 0 ∨ s1.reaches (s1.pkgOfKey p) = true then (.ok k, s1) else (.error (.fault 0x0C02 a), s1)
      | .l0 _ _ => (.error (.fault 0x0701 a), s1)

/-- The whole meld window is sent, one entry a cycle from this cycle on (R241, R244, R355). -/
def State.saDrain (s : State) (x : SaWord) (t : ElemType) : State :=
  let l := s.prog.window
  let s1 := s.each (l.zip (List.range l.length)) fun s e => s.sendUpdate e.2 x t e.1.1 e.1.2.1 e.1.2.2 0 none
  s1.setProg { s1.prog with window := [] }

/-- The task in focus waits for the page of a virtual address (R332, R92). -/
def State.pageWait (s : State) (va : Word) : State :=
  let core := s.focus.core
  let bank := s.focus.bank
  let who : Asker := { tid := s.cur.tid, q := s.focus.q, ctx := ixCtx s.focus.ctx, push := none, mpc := s.prog.mpc }
  let asked := s.agenda.any fun e => match e.act with
    | .ev (.migrationService a _) => a.tid == who.tid && a.q == who.q && a.ctx == who.ctx
    | .ev (.migrationComplete a _) => a.tid == who.tid && a.q == who.q && a.ctx == who.ctx
    | _ => false
  let s1 := s.after 0 rankStop (.taskStop core bank .pageWait)
  if asked then s1 else s1.after 1 rankUnit (.migrationService who va)

/-- The last update of the word has been sent: SA starts its next word in the cycle after (R241). -/
def State.saDone (s : State) : State := (s.freeEngine 1).finish

/-- The slice a home lies in has been accessed (R344). -/
def State.touchKey (s : State) (k : Nat) : State :=
  match keyLoc k with
  | some l => if s.wordLive then s.touch l else s
  | none => s

/-- Whether a home lies in a slice that has been retired since the word's task saw it, after that task's boundary
(R346). -/
def State.saCutAt (s : State) (k : Nat) : Bool :=
  !s.wordLive && (match keyLoc k with
    | some l => s.sliceCut l.colIx l.layer s.view
    | none => false)

/-- An update word is cut off (R346): its window's other entries are sent, a record reports it, and it is performed. -/
def State.saCut (s : State) (x : SaWord) (t : ElemType) (a : Word) : State :=
  let s1 := (s.setProg { s.prog with window := s.prog.window.filter fun e => !(s.saCutAt e.2.1) }).saDrain x t
  (s1.toRing (coreDie s.focus.core) (s.faultRec 0x0804 3 4 s.prog.mpc 0 a none s.focus.core.val)).saDone

/-- The elements that taking element k reads: its index, its value, and of a compare-and-swap the value expected. -/
def SaRegions.readsAt (g : SaRegions) (o : SaOp) (k : Nat) : List ElemRef :=
  (g.i :: (g.v.toList ++ (if o = .cas then g.r.toList else []))).map fun r => ⟨r, k⟩

/-- Element k of an update word is taken, its lines read (R241). -/
def State.saTake (s : State) (x : SaWord) (g : SaRegions) (lines : Store (List Host.Cell)) : State :=
  let core := s.focus.core
  let now := s.cur.cyc
  let t := g.ty
  let k := s.prog.mpc
  let seen := s.withLines lines
  let s1 := s.setProg { s.prog with opened := false, reads := [], lines }
  match s1.poisonElems core (g.readsAt x.op k) with
  | some a => (s1.saDrain x t).engineFault 0x0E01 (some a)
  | none =>
    let a := g.target (s1.popped 0) (seen.elem core g.i k)
    let v := match g.v with
      | some r => seen.elem core r k
      | none => 1
    let ex := match g.r with
      | some r => if x.op = .cas then seen.elem core r k else 0
      | none => 0
    let (h, s4) := (if s1.wordLive then s1 else s1.beforeRecovery s1.view).saHome x t (s1.popped 0) a
    let s4 := { s4 with cols := s1.cols }
    match h with
    | .error (.fault code ad) => (s4.saDrain x t).engineFault code (some ad)
    | .error .page =>
      let s5 := s4.saDrain x t
      (s5.setProg { s5.prog with next := now + 1 }).pageWait a
    | .ok key =>
      if s4.saCutAt key then s4.saCut x t a else
      let s5 := s4.touchKey key
      let next (s : State) (w : List (Word × Nat × Nat)) : State :=
        let cu := { s.prog with mpc := k + 1, next := now + 1, window := w }
        if k + 1 = g.i.count ∧ w = [] then (s.setProg cu).saDone else s.setProg cu
      if !(x.op.merges x.ret) then
        let ret : Option Nat := g.r.map fun (r : Region) => (r.offset k).toNat
        next (s5.sendUpdate 0 x t a key (x.op.enter t v) ex ret) []
      else
        let w : List (Word × Nat × Nat) := s5.prog.window
        let m := x.op.enter t v
        if w.any fun e => e.1 == a then
          next s5 (w.map fun e => if e.1 = a then (e.1, e.2.1, x.op.merge t e.2.2 m) else e)
        else if w.length = 64 then
          match w with
          | e :: rest => next (s5.sendUpdate 0 x t e.1 e.2.1 e.2.2 0 none) (rest ++ [(a, key, m)])
          | [] => next s5 [(a, key, m)]
        else next s5 (w ++ [(a, key, m)])

/-- A cycle of an update word (R241): its next element asks for the lines it needs that the word has not read, and is taken
with the last of them; past its last element an entry of its window is sent. -/
def State.saMicro (s : State) (x : SaWord) : State :=
  let cu := s.prog
  let core := s.focus.core
  let now := s.cur.cyc
  let g := saRegions x (cu.part.getD 0 0) (cu.part.getD 1 0) (cu.part.getD 2 0)
  let t := g.ty
  let k := cu.mpc
  match cu.window.find? fun e => s.saCutAt e.2.1 with
  | some e => s.saCut x t e.1
  | none =>
  if cu.opened then
    let got := s.stepLines
    let lines := s.capture cu.lines got
    let left := (cu.reads.headD []).filter fun n => !(got.contains n)
    let s1 := s.each got fun s n => s.noteRead (n * 256) 256
    if left.isEmpty then s1.saTake x g lines else s1.setProg { cu with lines, reads := [left] }
  else if g.i.count ≤ k then
    match cu.window with
    | [] => s.saDone
    | e :: rest =>
      let s1 := s.sendUpdate 0 x t e.1 e.2.1 e.2.2 0 none
      if rest.isEmpty then s1.saDone else s1.setProg { s1.prog with window := rest, next := now + 1 }
  else
    match firstOutside ((g.i :: (g.v.toList ++ g.r.toList)).map fun r => ⟨r, k⟩) with
    | some e => (s.saDrain x t).engineFault 0x0302 (some (localAddr (e.r.offset e.k)))
    | none =>
      let need := ((elemLines (g.readsAt x.op k)).map fun n => l0Line core (256 * n)).filter fun n =>
        (cu.lines.find n).isNone
      if need.isEmpty then s.saTake x g cu.lines
      else s.setProg { cu with opened := true, reads := [need], next := now }

/-- Whether a target lies outside the layer 0 window of a task on a core (R361). -/
def Image.outsideWindow (m : Image) (core : CoreIx) (a : Word) : Bool :=
  match genericLoc core a with
  | .ok l =>
    !(l.layer == 0 && l.coreIx == core && decide (blkL0Base m.blk ≤ l.off) &&
      decide (l.off < blkL0Base m.blk + blkL0Size m.blk))
  | .error _ => true

/-- An update word starts, or goes on after a stop or a retry: it holds its base, and takes its first element in this
cycle (R241, R327). -/
def State.saStart (s : State) (x : SaWord) : State :=
  let sa := s.cur.sa
  let reg (i : Nat) : Nat := (sa[i % 8]'(Nat.mod_lt _ (by decide))).toNat
  let wi := reg x.i
  let wv := reg (x.v.getD 0)
  let wr := reg x.r
  let g := saRegions x wi wv wr
  match g.startFault x.op with
  | some (c, a) => s.engineFault c a
  | none =>
    if g.i.count = 0 then s.saDone
    else
      let base := s.popped 0
      let far := (List.range g.i.count).any fun k =>
        g.i.inside k && s.cur.outsideWindow s.focus.core (g.target base (s.elem s.focus.core g.i k))
      let s1 := if far then s.irrev else s
      (s1.setProg { s1.prog with part := [wi, wv, wr], opened := false, reads := [], lines := [], next := s.cur.cyc }).soon
        (rankEngine + s.focus.core.val) [.ev (.microStep s.focus.core s.focus.bank s.focus.q (ixCtx s.focus.ctx))]

/-! ### At the home (R242, R78) -/

/-- The micro-PC of a word of a queue: its own while it heads the queue, else past its last element. -/
def Image.mpcOf (m : Image) (q : Fin 13) (c : Fin 3) (pc : BitVec 15) : Nat :=
  match (m.eqAt q c).words with
  | w :: _ =>
    if w.pc = pc then
      (match (m.eqAt q c).cur with
      | some k => k.mpc
      | none => 0)
    else 0
  | [] => 0

/-- A request for the line at a key, on behalf of an update. -/
def Update.request (u : Update) (key : Nat) (cls : Fin 5) (now : Nat) : LineReq :=
  { line := key / 256, wr := true, cls, since := now, ord := if cls = 1 then 4 else ordSa u.core
    who := .unit (.saHomeUpdate { u with ready := true }) }

/-- The answer of an update reaches SA: its old value is requested into the return region, class ENGWR, and written when it
is granted; or the fault it met is raised against its word (R242, R338). -/
def State.saAnswer (s : State) (u : Update) : State :=
  match u.bad with
  | some (code, a) =>
    match s.bankOf u.tid with
    | some (core, bank) =>
      let c := ctxIx u.ctx
      s.raiseAt core bank c 4 ((s.img core bank).mpcOf 4 c u.pc) u.pc u.trap code a
    | none => s.report (coreDie u.core) code a
  | none =>
    match u.ret, u.old with
    | some o, some v =>
      if u.ready then s.write (keyL0 u.core.val o) u.ty.bytes v
      else s.askLine rankUnit (u.request (keyL0 u.core.val o) 1 s.now)
    | _, _ => s

/-- Why an update has no effect at its home: its slice is gone, the granule is poisoned, or the row is not open (R338,
R345, R349); for one of another package, whose sender cannot see this package's capacities, also that its place is outside
them, or in the reserved banks. -/
def State.homeBad (s : State) (u : Update) : Option (BitVec 16 × Word) :=
  let gone := match keyLoc u.key with
    | some l =>
      l.layer != 0 && ((s.slice l.colIx (Fin.ofNat 4 (l.layer - 1))).retired ||
        (u.via.isSome && (s.capFault l u.ty.bytes s.now).isSome))
    | none => false
  let reserved := match keyLoc u.key with
    | some l => u.via.isSome && s.reservedBank l
    | none => false
  let closed := match spaceOf u.key with
    | .tower col 4 off => !(s.rowOpen (Fin.ofNat 32 col) off)
    | _ => false
  if reserved then some (0x0703, u.addr)
  else if gone then some (0x0802, u.addr)
  else match s.poisonIn u.key u.ty.bytes with
  | some g => some (0x0E01, u.addr + BitVec.ofInt 64 ((g : Int) - (u.key : Int)))
  | none => if closed then some (0x0801, u.addr) else none

/-- An update is performed at its home as one step (R161), and its answer sets out: its old value is requested 3 cycles
later, L − D of R242, or the answer goes to the package that sent it. -/
def State.homeUpdate (s : State) (u : Update) : State :=
  let n := u.ty.bytes
  let s1 := s.noteRead u.key n
  let answer (s : State) (u : Update) : State :=
    match u.via with
    | some p => s.send p (.updated u)
    | none => s.schedule (s.now + u.back) rankUnit (.ev (.saHomeUpdate { u with ready := false }))
  match s1.homeBad u with
  | some b => answer s1 { u with bad := some b }
  | none =>
    let o := s1.read u.key n
    let s2 := (s1.write u.key n (saNew u.op u.ty o u.val u.expect)).dramTouch u.key true
    if u.ret.isSome ∨ u.via.isSome = true then answer s2 { u with old := some o } else s2

/-- An update of another package has arrived: its home here takes it as one of this package's (R78). -/
def State.updateHere (s : State) (u : Update) : State :=
  let v := { u with key := s.pkgKey u.key, ready := false }
  match keyLoc v.key with
  | some _ => s.schedule (max s.now (s.homeBusy v)) rankUnit (.ev (.saHomeUpdate v))
  | none =>
    let (f, s1) := s.nextFree
    s1.schedule (max (s1.now + Config.freeLatency f) (s1.homeBusy v)) rankMemory (.ev (.saHomeUpdate { v with ready := true }))

/-- SA_HOME_UPDATE (R242): an update reaches its home and asks for its line, class SACC in layer 0; it is performed when its
bank or port accepts it; its answer reaches SA. -/
def execSaHomeUpdate (s : State) : Out :=
  match s.focus.event with
  | some (.saHomeUpdate u) =>
    .next (if u.old.isSome || u.bad.isSome then s.saAnswer u
      else if u.ready then s.homeUpdate u
      else s.askLine rankUnit (u.request u.key 4 s.now))
  | _ => .fault (.nothingThere "SA_HOME_UPDATE")

/-! ### The meanings -/

def execSaSeta (p : Pred) (q : Fin 16) (d : Fin 8) (st : State) : Out :=
  engineWord st p (.saSeta p q d) fun s =>
    ((s.modCur fun m => { m with sa := m.sa.set d.val (s.popped 0) }).freeEngine 1).finish
def execSaAdd (p : Pred) (q : Fin 16) (sc : Fin 8) (e : Bool) (w : Fin 8) (i : BitVec 3) (v : Fin 8) (st : State) : Out :=
  engineWord st p (.saAdd p q sc e w i v) fun s => s.saStart ⟨.add, sc.val, e, w.val, i.toNat, some v.val⟩
def execSaMin (p : Pred) (q : Fin 16) (sc : Fin 8) (e : Bool) (w : Fin 8) (i : BitVec 3) (v : Fin 8) (st : State) : Out :=
  engineWord st p (.saMin p q sc e w i v) fun s => s.saStart ⟨.min, sc.val, e, w.val, i.toNat, some v.val⟩
def execSaMax (p : Pred) (q : Fin 16) (sc : Fin 8) (e : Bool) (w : Fin 8) (i : BitVec 3) (v : Fin 8) (st : State) : Out :=
  engineWord st p (.saMax p q sc e w i v) fun s => s.saStart ⟨.max, sc.val, e, w.val, i.toNat, some v.val⟩
def execSaAnd (p : Pred) (q : Fin 16) (sc : Fin 8) (e : Bool) (w : Fin 8) (i : BitVec 3) (v : Fin 8) (st : State) : Out :=
  engineWord st p (.saAnd p q sc e w i v) fun s => s.saStart ⟨.and, sc.val, e, w.val, i.toNat, some v.val⟩
def execSaOr (p : Pred) (q : Fin 16) (sc : Fin 8) (e : Bool) (w : Fin 8) (i : BitVec 3) (v : Fin 8) (st : State) : Out :=
  engineWord st p (.saOr p q sc e w i v) fun s => s.saStart ⟨.or, sc.val, e, w.val, i.toNat, some v.val⟩
def execSaXor (p : Pred) (q : Fin 16) (sc : Fin 8) (e : Bool) (w : Fin 8) (i : BitVec 3) (v : Fin 8) (st : State) : Out :=
  engineWord st p (.saXor p q sc e w i v) fun s => s.saStart ⟨.xor, sc.val, e, w.val, i.toNat, some v.val⟩
def execSaSwap (p : Pred) (q : Fin 16) (sc : Fin 8) (e : Bool) (w : Fin 8) (i : BitVec 3) (v : Fin 8) (st : State) : Out :=
  engineWord st p (.saSwap p q sc e w i v) fun s => s.saStart ⟨.swap, sc.val, e, w.val, i.toNat, some v.val⟩
def execSaCas (p : Pred) (q : Fin 16) (sc : Fin 8) (w : Fin 8) (i : BitVec 3) (v : Fin 8) (st : State) : Out :=
  engineWord st p (.saCas p q sc w i v) fun s => s.saStart ⟨.cas, sc.val, true, w.val, i.toNat, some v.val⟩
def execSaCnt (p : Pred) (q : Fin 16) (sc : Fin 8) (e : Bool) (w : Fin 8) (i : BitVec 3) (st : State) : Out :=
  engineWord st p (.saCnt p q sc e w i) fun s => s.saStart ⟨.cnt, sc.val, e, w.val, i.toNat, none⟩

/-- It starts after every earlier word of its queue is performed, and is performed in that cycle (R243). One order of
updates holds for every observer here, so that the scope it widens to changes no value. -/
def execSaScope (p : Pred) (sc : Fin 8) (st : State) : Out :=
  engineWord st p (.saScope p sc) fun s => (s.freeEngine 1).finish
def execSaFlush (p : Pred) (st : State) : Out :=
  engineWord st p (.saFlush p) fun s => (s.freeEngine 1).finish

end Sys2Proof.Machine
end

