-- ==== Sys2Proof/Machine/Xfer.lean ====
section
/-! DEFINITION. The XFER words (R247 to R258): shape slots, shaped copies, byte copies and far-stream copies with the
sectors they write and count (R67 to R72), stops of a copy (R256), the DRAM-layer commands and the layer power hints. -/

namespace Sys2Proof.Machine

open Sys2Proof

/-! ### What a copy moves -/

/-- A place a copy reads or writes: a key of memory with the generic address that reached it, or a virtual address. -/
inductive Addr where
  | key (k : Nat) (a : Word)
  | va (v : Nat)
  deriving DecidableEq, Repr

def Addr.num : Addr → Nat
  | .key k _ => k
  | .va v => v

/-- The address as a fault gives it (R319). -/
def Addr.shown : Addr → Word
  | .key _ a => a
  | .va v => BitVec.ofNat 64 v

def Addr.add (a : Addr) (n : Nat) : Addr :=
  match a with
  | .key k a => .key (k + n) (a + BitVec.ofNat 64 n)
  | .va v => .va (v + n)

/-- What is written at a destination: bytes moved, a fill pattern, or a block converted on entry (R35): the conversion,
the block's place, its scale's place, and whether the scale byte is meant. -/
inductive CopySrc where
  | at (a : Addr)
  | fill (v : Nat)
  | block (conv : Nat) (a scale : Addr) (isScale : Bool)
  deriving DecidableEq, Repr

/-- An element, or a block, that a copy writes; or the code it raises at its sector. -/
structure CopyUnit where
  dst : Addr
  len : Nat
  src : CopySrc
  bad : Option (BitVec 16 × Word)
  deriving DecidableEq, Repr

/-- A copy (R253 to R255). -/
structure CopyCmd where
  units : List CopyUnit
  /-- sectors go in ascending tile index, not in ascending destination address (R256) -/
  byTile : Bool
  /-- S and k of R71 -/
  first : Nat
  per : Nat
  fs : Bool
  /-- the tile's bytes: first key and length -/
  tile : Nat × Nat
  /-- its generic sides -/
  locs : List Loc
  bar : Word
  deriving DecidableEq, Repr

/-- S of R71. -/
def copyS (layer : Nat) : Nat :=
  match layer with
  | 0 => 12
  | 1 => 26
  | 2 => 38
  | 3 => 52
  | _ => 118

/-- k of R71. -/
def copyPer (q : Nat) : Nat :=
  match q with
  | 5 => 16
  | 6 => 8
  | 7 => 8
  | _ => 2

/-- The command entry obeys R250. -/
def cmdOk (c : Word) (bytes : Bool) : Bool :=
  fld 31 23 c.toNat == 0 && fld 63 33 c.toNat == 0 && (fld 22 0 c.toNat == 0 || fld 1 0 c.toNat == 1) &&
    (!bytes || !(bitAt 32 c.toNat))

/-- A dimension entry: its origin, its extent, and whether bits [63:48] are zero. -/
def dimEntry (w : Word) : Int × Nat := ((BitVec.ofNat 32 w.toNat).toInt, fld 47 32 w.toNat)
def dimOk (w : Word) : Bool := fld 63 48 w.toNat == 0

/-- Bytes of a unit of a type and elements it holds along dimension 0: packed MX rows go 32 elements at a time (R68). -/
def unitBytes (t : ElemType) : Nat :=
  match t with
  | .mx4 => 16
  | .mx6 => 24
  | t => t.bytes
def unitElems (t : ElemType) : Nat :=
  match t with
  | .mx4 | .mx6 => 32
  | _ => 1

/-- T of a tile is a multiple of the element size, or of 8 for packed rows (R253). -/
def tileAlign (t : ElemType) : Nat :=
  match t with
  | .mx4 | .mx6 => 8
  | t => t.bytes

/-- The coordinates of a linear index under extents, dimension 0 first. -/
def coordsOf (ext : List Nat) (lin : Nat) : List Nat :=
  match ext with
  | [] => []
  | e :: rest => (lin % e) :: coordsOf rest (lin / e)

/-- Element coordinates in the tensor; none when one is out of range (R68). -/
def inRange (org : List Int) (dim : List Nat) (c : List Nat) : Option (List Nat) :=
  match org, dim, c with
  | o :: os, d :: ds, x :: xs =>
    let p := o + (x : Int)
    if 0 ≤ p ∧ p < (d : Int) then (inRange os ds xs).map fun r => p.toNat :: r else none
  | _, _, _ => some []

/-- Σ iₜ × STRIDE[t]. -/
def strideSum (stride : List Int) (c : List Nat) : Int :=
  match stride, c with
  | s :: ss, x :: xs => s * (x : Int) + strideSum ss xs
  | _, _ => 0

/-! ### The checks of a copy's start (R327, R329, R354) -/

/-- A generic address in one of the layers listed of the issuing core's die, a multiple of `al`. -/
def State.dieLoc (s : State) (a : Word) (layers : List Nat) (al : Nat) : Except (BitVec 16) Loc :=
  let core := s.focus.core
  match genericLoc core a with
  | .error c => .error c
  | .ok l =>
    if l.die ≠ (coreDie core).val ∨ layers.contains l.layer = false ∨ a.toNat % al ≠ 0 then .error 0x0704
    else if s.reservedBank l then .error 0x0703
    else .ok l

/-- The code an n-byte piece at an offset of a place raises: outside its layer, misaligned, in the reserved banks, or
beyond its capacity. -/
def State.pieceFault (s : State) (l : Loc) (off : Int) (n al : Nat) : Option (BitVec 16) :=
  if off < 0 ∨ (2 ^ 31 : Int) ≤ off ∨ off % (al : Int) ≠ 0 then some 0x0704
  else
    let p := { l with off := off.toNat }
    if s.reservedBank p then some 0x0703 else s.capFault p n s.view

/-- The address of a piece, as a fault gives it. -/
def pieceAddr (base : Word) (off : Int) : Word := base + BitVec.ofInt 64 off

/-- A shaped copy's parts: its dimensions as units of the tile. -/
structure TileShape where
  org : List Int
  ext : List Nat
  dim : List Nat
  stride : List Int
  deriving DecidableEq, Repr

/-- Tile and tensor counted in units of `per` elements along dimension 0, `ub` bytes apart when packed. -/
def tileShape (v : ShapeView) (dims : List (Int × Nat)) (per ub : Nat) : TileShape :=
  let pad := dims ++ List.replicate (5 - dims.length) ((0 : Int), 1)
  let head {α : Type} (f : α → α) (l : List α) : List α :=
    match l with
    | x :: rest => f x :: rest
    | [] => []
  if per = 1 then { org := pad.map (·.1), ext := pad.map (·.2), dim := v.dim, stride := v.stride }
  else
    { org := head (fun o => Int.fdiv o (per : Int)) (pad.map (·.1)), ext := head (· / per) (pad.map (·.2))
      dim := head (· / per) v.dim, stride := head (fun _ => (ub : Int)) v.stride }

def TileShape.count (t : TileShape) : Nat := t.ext.foldl (· * ·) 1

/-- Tile units with the tensor coordinates of those in range. -/
def TileShape.cells (t : TileShape) : List (Nat × Option (List Nat)) :=
  (List.range t.count).map fun n => (n, inRange t.org t.dim (coordsOf t.ext n))

/-- The origin and extent of dimension 0 are whole blocks. -/
def blocksOk (dims : List (Int × Nat)) : Bool :=
  match dims with
  | d :: _ => d.1 % 32 == 0 && d.2 % 32 == 0
  | [] => true

/-- A fill unit of a type: its pattern, repeated over a packed block (R67). -/
def fillUnit (t : ElemType) (fill : Nat) : Nat :=
  (List.range (unitElems t)).foldl (fun v i => v + fillCode t fill * 2 ^ (t.bits * i)) 0

/-- The source element type and destination type of a conversion (R255). -/
def convSrcBytes (conv : Nat) : Nat := if conv ≤ 2 then 16 else 32
def convDst (conv : Nat) : ElemType := if conv = 1 ∨ conv = 3 then .bf16 else .mx8
def convScaled (conv : Nat) : Bool := conv == 2 || conv == 4

/-- What a shaped copy of the core in focus moves (R253, R255), or the code it raises at its start, in the order of
R329. -/
def State.shapedCmd (s : State) (q : Fin 13) (store : Bool) (conv : Nat) (slot scaleSlot : BitVec 512)
    (popped : List Word) : Except (BitVec 16 × Option Word) CopyCmd :=
  let v := shapeOf slot
  let fs := q.val = 9
  let c := popped.getD 0 0
  let t := popped.getD 1 0
  let u := popped.getD 2 0
  let dimWords := popped.drop (if convScaled conv then 3 else 2)
  let dims := dimWords.map dimEntry
  let per := if conv = 0 then unitElems v.ty else 32
  let srcUb := if conv = 0 then unitBytes v.ty else convSrcBytes conv
  let ub := if conv = 0 then unitBytes v.ty else 32 * (convDst conv).bytes
  let sh := tileShape v dims per srcUb
  let sv := shapeOf scaleSlot
  if !(cmdOk c false) || !(dimWords.all dimOk) || (per == 32 && !(blocksOk dims)) then .error (0x0307, none)
  else if v.rank = 0 ∨ 5 < v.rank ∨ (per = 32 ∧ v.dim.headD 0 % 32 ≠ 0) then .error (0x0306, none)
  else if fs ∧ (v.layer ≠ 7 ∨ (conv ≠ 0 ∧ (v.ty ≠ convDst conv ∨ sv.ty ≠ .n8 ∨ sv.rank = 0 ∨ 5 < sv.rank))) then
    .error (0x0306, none)
  else if ¬fs ∧ 4 < v.layer then .error (0x0306, none)
  else match s.dieLoc t [0, 1, 2, 3, 4] (if conv = 0 then tileAlign v.ty else (convDst conv).bytes) with
    | .error e => .error (e, some t)
    | .ok tl =>
      let side : Except (BitVec 16) (Option Loc) :=
        if fs then .ok none
        else match genericLoc s.focus.core v.base with
          | .error e => .error e
          | .ok l => .ok (some l)
      match side with
      | .error e => .error (e, some v.base)
      | .ok sl =>
        let h := match sl with
          | some l => max l.layer tl.layer
          | none => 0
        if (match sl with
            | some l => decide (l.layer ≠ v.layer) || decide (q.val ≠ 4 + max 1 h)
            | none => false) then .error (0x0306, none)
        else
          let total := ub * sh.count
          if 0 < total ∧ (s.capFault tl total s.view).isSome = true then .error (0x0802, some t)
          else
            let scaleLoc : Except (BitVec 16) (Option Loc) :=
              if convScaled conv then (s.dieLoc u [0, 1, 2, 3, 4] 1).map some else .ok none
            match scaleLoc with
            | .error e => .error (e, some u)
            | .ok ul =>
              if (match ul with
                  | some l => decide (0 < sh.count) && (s.capFault l sh.count s.view).isSome
                  | none => false) then .error (0x0802, some u)
              else
                let fill := cmdFill c && !store
                -- the tensor side of a unit, and the code it raises
                let tensor (x : List Nat) : Addr × Option (BitVec 16 × Word) :=
                  let o := strideSum sh.stride x
                  match sl with
                  | some l =>
                    let off := (l.off : Int) + o
                    (.key ({ l with off := off.toNat } : Loc).key (pieceAddr v.base o),
                      (s.pieceFault l off srcUb (tileAlign v.ty)).map fun e => (e, pieceAddr v.base o))
                  | none =>
                    let a := pieceAddr v.base o
                    (.va a.toNat,
                      if conv = 0 ∧ a.toNat % tileAlign v.ty ≠ 0 then some (0x0704, a) else none)
                -- the scale of the block at the coordinates x (R255)
                let scale (x : List Nat) : Addr × Option (BitVec 16 × Word) :=
                  let o := strideSum sv.stride x
                  let a := pieceAddr sv.base o
                  let inside := (inRange (List.replicate 5 0) sv.dim x).isSome
                  let bad : Option (BitVec 16 × Word) := if inside then none else some (0x0306, a)
                  if sv.layer = 7 then (.va a.toNat, bad)
                  else match genericLoc s.focus.core sv.base with
                    | .ok l =>
                      let off := (l.off : Int) + o
                      (.key ({ l with off := off.toNat } : Loc).key a,
                        bad.orElse fun _ => (s.pieceFault l off 1 1).map fun e => (e, a))
                    | .error e => (.va a.toNat, bad.orElse fun _ => some (e, a))
                let tile (n : Nat) : Addr := .key (tl.key + ub * n) (t + BitVec.ofNat 64 (ub * n))
                let units : List CopyUnit := sh.cells.flatMap fun e =>
                  match e.2 with
                  | some x =>
                    if conv = 0 then
                      let (a, bad) := tensor x
                      if store then [{ dst := a, len := ub, src := .at (tile e.1), bad }]
                      else [{ dst := tile e.1, len := ub, src := .at a, bad }]
                    else
                      let (a, bad) := tensor x
                      let (sa, bad') := scale x
                      let bad := bad.orElse fun _ => bad'
                      { dst := tile e.1, len := ub, src := .block conv a sa false, bad } ::
                        (match ul with
                        | some l => [{ dst := .key (l.key + e.1) (u + BitVec.ofNat 64 e.1), len := 1, src := .block conv a sa true, bad }]
                        | none => [])
                  | none =>
                    if !fill then []
                    else if conv = 0 then [{ dst := tile e.1, len := ub, src := .fill (fillUnit v.ty v.fill), bad := none }]
                    else
                      let code := if convScaled conv then v.fill % 2 ^ 8 else v.fill % 2 ^ 16
                      let bits := 8 * (convDst conv).bytes
                      { dst := tile e.1, len := ub, bad := none
                        src := .fill ((List.range 32).foldl (fun w i => w + code * 2 ^ (bits * i)) 0) } ::
                        (match ul with
                        | some l => [{ dst := .key (l.key + e.1) (u + BitVec.ofNat 64 e.1), len := 1, src := .fill (fld 15 8 v.fill), bad := none }]
                        | none => [])
                -- the in-range elements of the tensor do not overlap the tile (R253)
                let spans := sh.cells.filterMap fun e => e.2.map fun x => (tensor x).1.num
                let lo := spans.foldl min (spans.headD 0)
                let hi := spans.foldl max 0 + srcUb
                if sl.isSome ∧ spans ≠ [] ∧ lo < tl.key + total ∧ tl.key < hi then .error (0x0307, some t)
                else
                  .ok { units, byTile := store, fs, tile := (tl.key, total), locs := tl :: sl.toList, bar := cmdBar c
                        first := copyS (if store then tl.layer else v.layer), per := copyPer q.val }

/-- What a byte copy moves (R254), in pieces of one destination sector each, or the code it raises at its start. -/
def State.bytesCmd (s : State) (q : Fin 13) (popped : List Word) : Except (BitVec 16 × Option Word) CopyCmd :=
  let c := popped.getD 0 0
  let a := popped.getD 1 0
  let d := popped.getD 2 0
  let n := popped.getD 3 0
  let len := n.toNat
  if !(cmdOk c true) || decide (2 ^ 31 < len) then .error (0x0307, none)
  else match s.dieLoc a [0, 1, 2, 3, 4] 1, s.dieLoc d [0, 1, 2, 3, 4] 1 with
    | .error e, _ => .error (e, some a)
    | _, .error e => .error (e, some d)
    | .ok la, .ok ld =>
      if q.val ≠ 4 + max 1 (max la.layer ld.layer) then .error (0x0306, none)
      else if 0 < len ∧ (s.capFault la len s.view).isSome = true then .error (0x0802, some a)
      else if 0 < len ∧ (s.capFault ld len s.view).isSome = true then .error (0x0802, some d)
      else if 0 < len ∧ la.key < ld.key + len ∧ ld.key < la.key + len then .error (0x0307, some d)
      else
        let k0 := ld.key
        let sectors := if len = 0 then [] else
          (List.range ((k0 + len - 1) / 32 + 1 - k0 / 32)).map (· + k0 / 32)
        let units := sectors.map fun x =>
          let lo := max k0 (32 * x)
          let hi := min (k0 + len) (32 * x + 32)
          ({ dst := .key lo (d + BitVec.ofNat 64 (lo - k0)), len := hi - lo, bad := none
             src := .at (.key (la.key + (lo - k0)) (a + BitVec.ofNat 64 (lo - k0))) } : CopyUnit)
        .ok { units, byTile := false, first := copyS la.layer, per := copyPer q.val, fs := false
              tile := (ld.key, len), locs := [la, ld], bar := cmdBar c }

/-! ### Sectors in write order (R69, R256) -/

/-- A number placed in ascending order, once. -/
def insertOnce (n : Nat) : List Nat → List Nat
  | [] => [n]
  | x :: rest => if n < x then n :: x :: rest else if n = x then x :: rest else x :: insertOnce n rest

/-- The destination sectors a unit touches. -/
def CopyUnit.sectors (u : CopyUnit) : List Nat :=
  if u.len = 0 then []
  else (List.range ((u.dst.num + u.len - 1) / 32 + 1 - u.dst.num / 32)).map (· + u.dst.num / 32)

/-- The destination sectors in the order in which they are written: ascending destination address, of stores ascending tile
linear index (R256). -/
def CopyCmd.sectors (x : CopyCmd) : List Nat :=
  let all := x.units.flatMap CopyUnit.sectors
  if x.byTile then all.eraseDups else all.foldl (fun l n => insertOnce n l) []

/-! ### One sector -/

/-- Why a sector is not written. -/
inductive SectorStop where
  | fault (code : BitVec 16) (addr : Word)
  | page (va : Word)
  /-- its source lies in another package and has not arrived -/
  | remote (pa : Nat)
  deriving DecidableEq, Repr

/-- Of the pages from the one of a virtual address to that of its last byte, the first above page p, or an earlier find. -/
def pageAbove (p : Nat) (a : Addr) (n : Nat) (best : Option Nat) : Option Nat :=
  match a with
  | .key _ _ => best
  | .va v =>
    let hi := (v + (n - 1)) / 4096
    if hi ≤ p then best
    else
      let x := max (v / 4096) (p + 1)
      some (match best with
        | some y => min x y
        | none => x)

/-- The next page above p, in address order, that a copy touches. -/
def CopyCmd.nextPage (x : CopyCmd) (p : Nat) : Option Nat :=
  x.units.foldl (fun best u =>
    let b := pageAbove p u.dst u.len best
    match u.src with
    | .fill _ => b
    | .at a => pageAbove p a u.len b
    | .block conv a sa _ => pageAbove p sa 1 (pageAbove p a (convSrcBytes conv) b)) none

/-- The copy in focus touches the page of a virtual address: for the first time, its stream buffer requests the translation
of the command's next page (R76). -/
def State.touchPage (s : State) (x : CopyCmd) (v : Nat) (wr : Bool) : State :=
  let p := v / 4096
  match s.prog.copy with
  | none => s
  | some r =>
    if r.pages.contains p then s
    else
      let s1 := s.setProg { s.prog with copy := some { r with pages := r.pages ++ [p] } }
      match x.nextPage p with
      | none => s1
      | some n => s1.after 1 rankUnit (.walkFill s.focus.core s.focus.q (BitVec.ofNat 64 (4096 * n)) wr s.pkg.tgen)

/-- The key of an address of a copy, checked as its sector's first (R349, R351, R354, R374, R375): a line that has been read
addressed an open row; a line of the tensor side must not lie in the tile (R255). -/
def State.copyKey (s : State) (x : CopyCmd) (a : Addr) (wr : Bool) : Except SectorStop Nat × State :=
  let closed (s : State) (k : Nat) (ad : Word) : Except SectorStop Nat :=
    match spaceOf k with
    | .tower col 4 off =>
      let got := !wr && (s.prog.lines.find (k / 256)).isSome
      if got || s.rowOpen (Fin.ofNat 32 col) off then .ok k else .error (.fault 0x0801 ad)
    | _ => .ok k
  match a with
  | .key k ad => (closed s k ad, s)
  | .va v =>
    let ad := BitVec.ofNat 64 v
    if fld 63 57 v ≠ 0 then (.error (.fault 0x0701 ad), s)
    else match (s.touchPage x v wr).translate (some (s.focus.core, s.focus.q)) v wr with
      | (.fault c, s1) => (.error (.fault c ad), s1)
      | (.absent _, s1) => (.error (.page ad), s1)
      | (.pa k, s1) =>
        match spaceOf k with
        | .host _ => if s1.pkg.pcieUp then (.ok k, s1) else (.error (.fault 0x0F02 ad), s1)
        | .far p _ _ | .otherTower p =>
          if p = 0 ∨ s1.reaches (s1.pkgOfKey p) = true then (.ok k, s1) else (.error (.fault 0x0F01 ad), s1)
        | .tower col layer off =>
          let l : Loc := ⟨col / 8, col % 8, 0, layer, off⟩
          if s1.reservedBank l then (.error (.fault 0x0703 ad), s1)
          else match s1.capFault l 1 s1.view with
            | some c => (.error (.fault c ad), s1)
            | none =>
              if x.tile.1 / 256 ≤ k / 256 ∧ k / 256 * 256 < x.tile.1 + x.tile.2 then (.error (.fault 0x0307 ad), s1) else (closed s1 k ad, s1)
        | .l0 _ _ => (.error (.fault 0x0701 ad), s1)

/-- The keys of n bytes from an address. -/
def State.copyKeys (s : State) (x : CopyCmd) (a : Addr) (wr : Bool) : Nat → Except SectorStop (List Nat) × State
  | 0 => (.ok [], s)
  | n + 1 =>
    match s.copyKeys x a wr n with
    | (.error e, s1) => (.error e, s1)
    | (.ok l, s1) =>
      match s1.copyKey x (a.add n) wr with
      | (.error e, s2) => (.error e, s2)
      | (.ok k, s2) => (.ok (l ++ [k]), s2)

/-- The bytes at keys, each with whether its granule is poisoned: of a line that has been read as it was then, memory's, or
those that have arrived from another package. -/
def State.copyBytes (s : State) (keys : List Nat) : Except SectorStop (List (Byte × Bool)) × State :=
  match keys.find? fun k => (s.awayPkg k).isSome && (s.prog.held.find k).isNone with
  | some k => (.error (.remote k), s)
  | none =>
    let s1 := if s.latent.isEmpty then s else s.each ((keys.map granuleOf).eraseDups) State.readGranule
    let byte (k : Nat) : Byte × Bool :=
      match s1.prog.held.find k, s1.awayPkg k with
      | some v, some _ => (BitVec.ofNat 8 v, decide (256 ≤ v))
      | _, _ => (memGet ((s1.prog.lines.find (k / 256)).getD s1.mem) k, s1.poison.contains (granuleOf k))
    (.ok (keys.map byte), s1)

/-- n bytes from an address. -/
def State.copyRead (s : State) (x : CopyCmd) (a : Addr) (n : Nat) : Except SectorStop (List (Byte × Bool)) × State :=
  match s.copyKeys x a false n with
  | (.error e, s1) => (.error e, s1)
  | (.ok ks, s1) => s1.copyBytes ks

/-- A block as it enters FS (R35): the destination's bytes, or its scale byte. -/
def convBlock (conv : Nat) (src : List Byte) (scale : Nat) (isScale : Bool) : List Byte :=
  let v := src.foldr (fun b n => b.toNat + 256 * n) 0
  let w := if conv ≤ 2 then 4 else 8
  let cs := (List.range 32).map fun i => v / 2 ^ (w * i) % 2 ^ w
  let bytes (l : List Nat) (n : Nat) : List Byte :=
    l.flatMap fun c => (List.range n).map fun i => BitVec.ofNat 8 (c / 2 ^ (8 * i))
  match conv with
  | 1 => bytes (mxfp4ToBf16 scale cs) 2
  | 3 => bytes (e8m0ToBf16 scale cs) 2
  | 2 =>
    let (l, k) := mxfp4ToMx8 scale cs
    if isScale then [BitVec.ofNat 8 k] else bytes l 1
  | _ =>
    let (l, k) := e8m0ToMx8 scale cs
    if isScale then [BitVec.ofNat 8 k] else bytes l 1

/-- The bytes of a unit that fall in a sector: first byte and number. -/
def CopyUnit.part (u : CopyUnit) (sec : Nat) : Nat × Nat :=
  let lo := max u.dst.num (32 * sec)
  let hi := min (u.dst.num + u.len) (32 * sec + 32)
  (lo - u.dst.num, hi - lo)

/-- The bytes a unit writes in a sector. -/
def State.unitBytesIn (s : State) (x : CopyCmd) (u : CopyUnit) (sec : Nat) :
    Except SectorStop (List (Byte × Bool)) × State :=
  let (o, n) := u.part sec
  match u.src with
  | .fill v => (.ok ((List.range n).map fun i => (BitVec.ofNat 8 (v / 2 ^ (8 * (o + i))), false)), s)
  | .at a => s.copyRead x (a.add o) n
  | .block conv a sa isScale =>
    match s.copyRead x a (convSrcBytes conv) with
    | (.error e, s1) => (.error e, s1)
    | (.ok l, s1) =>
      match s1.copyRead x sa 1 with
      | (.error e, s2) => (.error e, s2)
      | (.ok k, s2) =>
        let bad := (l ++ k).any (·.2)
        let scale := match k with
          | b :: _ => b.1.toNat
          | [] => 0
        let out := convBlock conv (l.map (·.1)) scale isScale
        (.ok (((out.drop o).take n).map fun b => (b, bad)), s2)

/-- The cells a unit writes in a sector, after those already found. -/
def State.sectorStep (x : CopyCmd) (sec : Nat)
    (acc : Except SectorStop (List (Nat × Byte × Bool)) × State) (u : CopyUnit) :
    Except SectorStop (List (Nat × Byte × Bool)) × State :=
  match acc with
  | (.error e, s) => (.error e, s)
  | (.ok l, s) =>
    match u.bad with
    | some (c, a) => (.error (.fault c a), s)
    | none =>
      let (o, n) := u.part sec
      match s.unitBytesIn x u sec with
      | (.error e, s1) => (.error e, s1)
      | (.ok bs, s1) =>
        match s1.copyKeys x (u.dst.add o) true n with
        | (.error e, s2) => (.error e, s2)
        | (.ok ks, s2) => (.ok (l ++ (ks.zip bs).map fun p => (p.1, p.2.1, p.2.2)), s2)

/-- Everything a copy writes in one destination sector, in tile order; nothing of a sector that faults (R327). -/
def State.sectorCells (s : State) (x : CopyCmd) (sec : Nat) :
    Except SectorStop (List (Nat × Byte × Bool)) × State :=
  (x.units.filter fun u => u.sectors.contains sec).foldl (State.sectorStep x sec) (.ok [], s)

/-- Whether source data is written in a sector (R69). -/
def CopyCmd.counts (x : CopyCmd) (sec : Nat) : Bool :=
  x.units.any fun u => u.sectors.contains sec && (match u.src with
    | .fill _ => false
    | _ => true)

/-! ### The run of a copy (R71, R72) -/

/-- Whether a copy moves bytes of a slice that has been retired since its task saw it (R345, R346). -/
def State.cutOff (s : State) (x : CopyCmd) : Bool :=
  x.locs.any fun l => s.sliceCut l.colIx l.layer s.view

/-- The event of the copy in focus. -/
def State.copyEvent (s : State) (p : CopyPart) : Event :=
  .copyCompletion s.focus.core s.focus.bank s.focus.q (ixCtx s.focus.ctx) p

/-- What copies do in a cycle comes before the banks and ports of that cycle act. -/
def State.copyRank (_ : State) : Nat := rankUnit

/-- The word in focus is performed, and the core's queue of that engine may start its next word in the cycle after
(R249). -/
def State.copyDone (s : State) : State :=
  s.modCur fun m => (m.finish s.focus.q s.focus.ctx).modEng s.focus.q fun e => { e with free := m.cyc + 1 }

/-- Whether an act is a step of the copy in focus. -/
def State.copyMine (s : State) (a : Act) : Bool := a.copyOf s.focus.core s.focus.bank s.focus.q (ixCtx s.focus.ctx)

/-- What the copy in focus has read and not yet written. -/
def State.copyUnwritten (s : State) : List (Nat × Byte × Bool) :=
  (s.pendingActs.filter s.copyMine).flatMap fun a => match a with
    | .ev (.copyCompletion _ _ _ _ (.land _ cells)) => cells
    | .ev (.copyCompletion _ _ _ _ (.put _ cells)) => cells
    | _ => []

/-- A copy is cut off (R346): it writes and posts nothing further, its barrier is lost, and a record reports it. -/
def State.copyCut (s : State) (x : CopyCmd) : State :=
  let mpc := s.prog.mpc - (s.copyUnwritten.map (·.1 / 32)).eraseDups.length
  let sec := (x.sectors.drop mpc).headD 0
  let addr := match x.units.find? fun u => u.sectors.contains sec with
    | some u => (u.dst.add (u.part sec).1).shown
    | none => 0
  let s1 := s.withdraw s.copyMine
  let mine := match s.curQ.words.head? with
    | some w => s.cur.holds w.tid
    | none => false
  let rec' := s.faultRec 0x0804 (if mine then s.focus.ctx.val else 3) s.focus.q.val mpc s.cx.pc.toNat addr
    (if mine then s.cur.task else none) s.focus.core.val
  (((s1.toRing (coreDie s.focus.core) rec').loseName x.bar).itemBack 0).copyDone

/-- The copy of the word in focus, from its entries and the slots it read at its start. -/
def State.copyCmd (s : State) (i : Instr) : Option (Except (BitVec 16 × Option Word) CopyCmd) :=
  let cu := s.prog
  let slot := (cu.copy.map (·.slot)).getD 0
  let scale := (cu.copy.map (·.scale)).getD 0
  match i with
  | .xLd1 _ _ _ | .xLd2 _ _ _ | .xLd3 _ _ _ | .xLd4 _ _ _ =>
    some (s.shapedCmd s.focus.q false 0 slot scale cu.popped)
  | .xSt1 _ _ _ | .xSt2 _ _ _ | .xSt3 _ _ _ | .xSt4 _ _ _ =>
    some (s.shapedCmd s.focus.q true 0 slot scale cu.popped)
  | .xCp1 _ _ | .xCp2 _ _ | .xCp3 _ _ | .xCp4 _ _ => some (s.bytesCmd s.focus.q cu.popped)
  | .xFld _ _ _ c _ => some (s.shapedCmd s.focus.q false c.val slot scale cu.popped)
  | .xFst _ _ _ => some (s.shapedCmd s.focus.q true 0 slot scale cu.popped)
  | _ => none

/-- The sectors of one turn of an engine that takes k lines: those of the next k destination lines, a line that an earlier
turn of the copy has written counting no more (R71, R256). -/
def nextSectors : List Nat → Nat → List Nat → List Nat
  | [], _, _ => []
  | n :: rest, k, seen =>
    if seen.contains (n / 8) then n :: nextSectors rest k seen
    else match k with
      | 0 => []
      | k + 1 => n :: nextSectors rest k (n / 8 :: seen)

/-- The sectors of the next turn. -/
def CopyCmd.turnSectors (x : CopyCmd) (served : Nat) : List Nat :=
  nextSectors (x.sectors.drop served) (if x.fs then 1 else x.per) (((x.sectors.take served).map (· / 8)).eraseDups)

/-- Cycles from a turn to the first request for a source line: the data of every source come in the 6 cycles before the
write that are those of the copy's own way (R71, R63). DESIGN CHOICE (log 106). -/
def CopyCmd.lead (x : CopyCmd) : Nat := if x.first = 12 then 6 else if x.first = 118 then 2 else 0

/-- The copy in focus as its engine runs it. -/
def State.run (s : State) : CopyRun :=
  s.prog.copy.getD { slot := 0, scale := 0, bound := false, bar := 0, served := 0, asked := 0, writes := 0, pages := [] }
def State.modRun (s : State) (f : CopyRun → CopyRun) : State := s.setProg { s.prog with copy := some (f s.run) }

/-- A copy that has stopped short, at a fault, a page wait or a stop: no turn and no read of it is to come, and it goes on
as a new word that reads its slots again (R94, R249, R256). -/
def State.copyHalt (s : State) : State :=
  let s1 := s.withdraw fun a => s.copyMine a && (match a with
    | .ev (.copyCompletion _ _ _ _ (.turn)) => true
    | .ev (.copyCompletion _ _ _ _ (.fetch _)) => true
    | .ev (.copyCompletion _ _ _ _ (.line _)) => true
    | _ => false)
  (s1.setProg { s1.prog with waiting := false, opened := false, reads := [], lines := [] }).modRun fun r =>
    { r with bound := false, served := s1.prog.mpc }

/-- A copy's task waits for a page (R332): the word waits at its micro-PC. -/
def State.copyPage (s : State) (va : Word) : State :=
  let s1 := s.copyHalt
  (s1.setProg { s1.prog with next := s1.cur.cyc + 1 }).pageWait va

/-! ### Turns (R70, R72) -/

/-- The requester number of the copy in focus at banks and ports (R61). -/
def State.copyOrd (s : State) : Nat :=
  if s.focus.q = 9 then ordFs (coreDie s.focus.core) else ordCe (coreCol s.focus.core) s.focus.q

/-- Cores that share the engine of a queue, and the place of a core in its round. -/
def engineCores (q : Fin 13) : Nat := if q = 9 then 64 else 8

/-- The core whose turn an engine's round is at, and the cycle after its last turn. -/
def State.roundAt (s : State) : Nat × Nat :=
  let e : Fin 4 := Fin.ofNat 4 (s.focus.q.val - 5)
  if s.focus.q = 9 then
    let d := s.die (coreDie s.focus.core)
    (d.fsNext.val, d.fsAt)
  else
    let k := s.col (coreCol s.focus.core)
    ((k.ceNext[e.val]).val, k.ceAt[e.val])

/-- The turns of a copy engine, and of FS: one core in a cycle, round-robin in ascending core order (R70, R72). -/
def State.engineTurn (s : State) : Bool :=
  let n := engineCores s.focus.q
  let (next, at') := s.roundAt
  let far (c : CoreIx) : Nat := (c.val % n + n - next) % n
  let rival (a : Act) : Bool := match a with
    | .ev (.copyCompletion c _ q _ .turn) =>
      c.val / n == s.focus.core.val / n && q == s.focus.q && decide (far c < far s.focus.core)
    | _ => false
  decide (at' ≠ s.now + 1) && !(s.agenda.any fun x => x.due == s.now && rival x.act)

def State.turnTaken (s : State) : State :=
  let core := s.focus.core
  let e : Fin 4 := Fin.ofNat 4 (s.focus.q.val - 5)
  if s.focus.q = 9 then
    s.modDie (coreDie core) fun d => { d with fsNext := Fin.ofNat 64 (core.val + 1), fsAt := s.now + 1 }
  else
    s.modCol (coreCol core) fun k =>
      { k with ceNext := k.ceNext.set e.val (Fin.ofNat 8 (core.val + 1)), ceAt := k.ceAt.set e.val (s.now + 1) }

def State.copyNext (s : State) (n rank : Nat) (p : CopyPart) : State :=
  s.schedule (s.now + n) rank (.ev (s.copyEvent p))

/-- The copy in focus asks for a turn of its engine, and is served the lines of one; a line of far memory comes after a free
number of cycles (R72). -/
def State.copyTurn (s : State) (x : CopyCmd) : State :=
  if !s.engineTurn then s.copyNext 1 s.copyRank .turn
  else
    let s1 := s.turnTaken
    let served := s1.run.served
    let secs := x.turnSectors served
    let n := secs.length
    if n = 0 then s1.copyNext (if x.fs then 1 else x.first + 1) (rankCount - 1) .post
    else
      let s2 := s1.modRun fun r => { r with served := served + n }
      if x.fs then
        let (f, s3) := s2.nextFree
        s3.copyNext (1 + Config.freeLatency f) s3.copyRank (.fetch n)
      else
        let s3 := s2.copyNext x.lead s2.copyRank (.fetch n)
        if served + n < x.sectors.length then s3.copyNext 1 s3.copyRank .turn else s3

/-! ### Source lines -/

/-- The lines that bytes of a copy's source lie in, where they are served line by line. -/
def State.sourceLines (s : State) (a : Addr) (n : Nat) : List Nat :=
  let key (b : Addr) : Option Nat := match b with
    | .key k _ => some k
    | .va v => (match (s.translate (some (s.focus.core, s.focus.q)) v false).1 with
      | .pa k => some k
      | _ => none)
  if n = 0 then []
  else (([a, a.add (n - 1)].filterMap key).map (· / 256)).filter fun l => lineHome l != .away

/-- The lines that a unit reads for a sector. -/
def State.unitLines (s : State) (u : CopyUnit) (sec : Nat) : List Nat :=
  let (o, n) := u.part sec
  match u.src with
  | .fill _ => []
  | .at a => s.sourceLines (a.add o) n
  | .block conv a sa _ => s.sourceLines a (convSrcBytes conv) ++ s.sourceLines sa 1

def State.sectorLines (s : State) (x : CopyCmd) (sec : Nat) : List Nat :=
  (x.units.filter fun u => u.sectors.contains sec).flatMap fun u => s.unitLines u sec

/-- A line of the DRAM layer: a copy reads each with one command (R253). -/
def dramLine (l : Nat) : Bool :=
  match lineHome l with
  | .slice _ 3 => true
  | _ => false

/-- The lines that a copy keeps from one turn to the next. -/
def keptLines (l : Store (List Host.Cell)) : Store (List Host.Cell) := l.filter fun x => dramLine x.1

/-- Every source line of the sectors asked for is read: they are read sector by sector (R71, R327), and what they write is
due in the cycle in which R71 writes it. -/
def State.copyFetched (s : State) (x : CopyCmd) : State :=
  let cu := s.prog
  let secs := (x.sectors.drop cu.mpc).take s.run.asked
  let step (a : Option SectorStop × List (Nat × Byte × Bool) × Nat × Nat × State) (sec : Nat) :
      Option SectorStop × List (Nat × Byte × Bool) × Nat × Nat × State :=
    match a with
    | (some e, r) => (some e, r)
    | (none, cells, n, w, s) =>
      match s.sectorCells x sec with
      | (.error e, s1) => (some e, cells, n, w, s1)
      | (.ok l, s1) => (none, cells ++ l, n + 1, w + (if x.counts sec then 1 else 0), s1)
  let (stop, cells, n, w, s1) := secs.foldl step (none, [], 0, 0, s)
  let lines := ((cells.map (·.1 / 256)).eraseDups).length
  let s2 := (s1.setProg
    { s1.prog with mpc := cu.mpc + n, sent := cu.sent + w, reads := [], lines := keptLines s1.prog.lines }).modRun fun r =>
      { r with asked := r.asked - n, writes := r.writes + lines }
  let s3 := if cells.isEmpty then s2
    else s2.copyNext ((if x.fs then 1 else x.first - x.lead) + s2.lag) s2.copyRank (.land cu.started cells)
  match stop with
  | some (.fault c a) => s3.copyHalt.engineFault c (some a)
  | some (.page va) => s3.copyPage va
  | some (.remote pa) =>
    s3.send ((s3.awayPkg pa).getD 0) (.read (s3.askerOf none) (s3.pkgKey pa) 32)
  | none =>
    if x.fs ∧ cu.mpc + n < x.sectors.length then s3.copyNext 1 s3.copyRank .turn else s3

/-- A copy asks for a line, of class COPY (R59). -/
def State.copyAsk (s : State) (line : Nat) (wr : Bool) (p : CopyPart) : State :=
  s.askLine s.copyRank
    { line, wr, cls := 3, since := s.now, ord := s.copyOrd, who := .unit (s.copyEvent p) }

/-- The copy asks for the source lines of its next n sectors. -/
def State.copyFetch (s : State) (x : CopyCmd) (n : Nat) : State :=
  let secs := (x.sectors.drop s.prog.mpc).take n
  let asks := ((secs.flatMap fun sec => s.sectorLines x sec).eraseDups).filter fun l => (s.prog.lines.find l).isNone
  let s1 := (s.setProg { s.prog with reads := [asks] }).modRun fun r => { r with asked := n }
  if asks.isEmpty then s1.copyFetched x else s1.each asks fun s l => s.copyAsk l false (.line l)

/-- A source line is granted, and read; of the DRAM layer its command issues now, and finds its row open or not (R63). -/
def State.copyLine (s : State) (x : CopyCmd) (l : Nat) : State :=
  let cu := s.prog
  let shut := match spaceOf (l * 256) with
    | .tower col 4 off => !(s.rowOpen (Fin.ofNat 32 col) off)
    | _ => false
  let lines := if shut then cu.lines else s.capture cu.lines [l]
  let rest := (cu.reads.headD []).erase l
  let s1 := s.setProg { cu with lines, reads := [rest] }
  if rest.isEmpty then s1.copyFetched x else s1

/-! ### Destination lines -/

/-- Runs of bytes at rising keys within one unit of 8 bytes. -/
def unitRuns (l : List (Nat × Byte × Bool)) : List (Nat × List (Byte × Bool)) :=
  l.foldr (fun c acc => match acc with
    | (k, bs) :: rest => if c.1 + 1 = k ∧ c.1 / 8 = k / 8 then (c.1, c.2 :: bs) :: rest else (c.1, [c.2]) :: acc
    | [] => [(c.1, [c.2])]) []

/-- Bytes read by a copy are written: here, to host memory through the bridge, or in another package, each unit whole (R145,
R160, R304). -/
def State.copyWrite (s : State) (cells : List (Nat × Byte × Bool)) : State :=
  let here := cells.filter fun c => (s.awayPkg c.1).isNone
  let away := cells.filter fun c => (s.awayPkg c.1).isSome
  let s1 := (s.writeCells here).each ((here.map fun c => c.1 / 256).eraseDups) fun s n => s.dramTouch (n * 256) true
  s1.each (unitRuns away) fun s c => s.send ((s.awayPkg c.1).getD 0) (.write (s.pkgKey c.1) c.2)

/-- What the copy has read asks for its destination lines. -/
def State.copyLand (s : State) (word : Nat) (cells : List (Nat × Byte × Bool)) : State :=
  s.each ((cells.map (·.1 / 256)).eraseDups) fun s l =>
    s.copyAsk l true (.put word (cells.filter fun c => c.1 / 256 == l))

/-- A destination line is granted, and written; the last of a copy is followed by its count 2 cycles later (R71). -/
def State.copyPut (s : State) (word : Nat) (cells : List (Nat × Byte × Bool)) (sectors : Nat) : State :=
  let s1 := s.copyWrite cells
  if s1.prog.started ≠ word ∨ s1.run.writes = 0 then s1
  else
    let s2 := s1.modRun fun r => { r with writes := r.writes - 1 }
    if s2.run.writes = 0 ∧ sectors ≤ s2.prog.mpc ∧ s2.run.bound = true then
      s2.copyNext (2 + s2.lag) (rankCount - 1) .post
    else s2

/-- Whether a virtual address now translates to host memory or another package (R361); nothing is changed. -/
def State.leavesPackage (s : State) (a : Addr) : Bool :=
  match a with
  | .key _ _ => false
  | .va v =>
    match (s.translate (some (s.focus.core, s.focus.q)) v true).1 with
    | .pa k => (match spaceOf k with
      | .host _ => true
      | _ => (remoteKey k).isSome)
    | _ => false

/-- The copy in focus starts, or goes on from its micro-PC: it reads its slots, and asks for a turn of its engine (R249,
R252). One that has waited for weight since its start keeps the slots that it read then. -/
def State.copyAccept (s : State) (i : Instr) (slot scale : BitVec 512) : State :=
  let old := s.run
  let run := if old.bound then old else { old with slot, scale, served := s.prog.mpc, asked := 0 }
  let s0 := s.modRun fun _ => run
  match (if s0.wordLive then s0 else s0.beforeRecovery s0.view).copyCmd i with
  | none => s0
  | some (.error (c, a)) => s0.engineFault c a
  | some (.ok x) =>
    if s0.cutOff x then s0.copyCut x
    else
      let (s0, held) := if nameKind x.bar = 1 then s0.takeItem else (s0.dropItem, true)
      let s0 := (s0.setProg { s0.prog with waiting := true }).modRun fun r => { r with bound := true, bar := x.bar }
      if !held then s0 else
      let s1 := if nameKind x.bar = 1 ∨ (x.byTile = true ∧ x.units.any (fun u => s0.leavesPackage u.dst) = true) then s0.irrev
        else s0
      let s2 := if s1.wordLive then s1.each x.locs State.touch else s1
      s2.copyNext 0 s2.copyRank .turn

/-! ### Shape slots (R251) -/

/-- The slot holds the descriptor, or the evicted descriptor is written; the word is performed (R251). -/
def State.slotStart (s : State) (load : Bool) (slot : Fin 32) : State :=
  let a := s.popped 0
  if !load && a == 0 then
    (s.modCur fun m => { m with ts := m.ts.set slot.val 0 }).copyDone
  else match s.dieLoc a [0, 1] 64 with
    | .error c => s.engineFault c (some a)
    | .ok l =>
      match s.capFault l 64 s.view with
      | some c => s.engineFault c (some a)
      | none =>
        let s1 := (s.touch l).setProg { s.prog with waiting := true }
        if load then
          let d := BitVec.ofNat 512 (s1.read l.key 64)
          let s2 := s1.noteRead l.key 64
          s2.schedule (s2.now + loadL l.layer + s2.wayTo l) s2.copyRank (.ev (s2.copyEvent (.slot slot d)))
        else
          let v := (s1.cur.ts[slot.val]).toNat
          let cells := (List.range 64).map fun i => (l.key + i, BitVec.ofNat 8 (v / 2 ^ (8 * i)), false)
          let s2 := s1.modCur fun m => { m with ts := m.ts.set slot.val 0 }
          let n := loadD l.layer + s2.wayTo l
          s2.copyNext n s2.copyRank (.land s2.prog.started cells)

/-! ### COPY_COMPLETION -/

/-- The count of the copy in focus sets out, and the word is performed. -/
def State.copyPost (s : State) (x : CopyCmd) (w : EngWord) : State :=
  ((s.sendCount 0 x.bar s.prog.sent (some { s.askerOf none with tid := w.tid })).itemBack (s.countWay x.bar)).copyDone

/-- One event of the copy in focus; an evicted descriptor that is written ends its word (R251). -/
def State.copyStep (s : State) (p : CopyPart) : State :=
  match s.curQ.words.head? with
  | none => (match p with
    | .land word cells => s.copyLand word cells
    | .put _ cells => s.copyWrite cells
    | _ => s)
  | some w =>
    let cmd := (s.beforeRecovery s.view).copyCmd w.instr
    match p with
    | .land word cells => s.copyLand word cells
    | .slot n d => (s.modCur fun m => { m with ts := m.ts.set n.val d }).copyDone
    | .put word cells =>
      (match cmd with
      | some (.ok x) => s.copyPut word cells x.sectors.length
      | some (.error _) => s.copyWrite cells
      | none => if s.prog.started = word then (s.copyWrite cells).copyDone else s.copyWrite cells)
    | p =>
      match cmd with
      | some (.ok x) =>
        if s.cutOff x then s.copyCut x
        else match p with
          | .turn => s.copyTurn x
          | .fetch n => s.copyFetch x n
          | .line l => s.copyLine x l
          | .post => s.copyPost x w
          | _ => s
      | _ => s.copyDone

/-- COPY_COMPLETION (R71): what a copy has read is written, and its sectors are counted into its barrier. -/
def execCopyCompletion (s : State) : Out :=
  match s.focus.event with
  | some (.copyCompletion core bank q ctx p) =>
    .next ((s.focusOn .perform core bank (ctxIx ctx) q).copyStep p)
  | _ => .fault (.nothingThere "COPY_COMPLETION")

/-! ### DRAM-layer commands, tokens, transform starts and power hints (R257, R258, R260) -/

/-- A DRAM-layer command sets out to the CE4 of its slice (R257). -/
def State.dramStart (s : State) (kind : Fin 3) : State :=
  let a := s.popped 0
  match s.dieLoc a [4] 1 with
  | .error c => s.engineFault c (some a)
  | .ok l =>
    let zeros := if kind.val = 0 then fld 10 0 l.off == 0 else fld 25 0 l.off == 0
    if !zeros then s.engineFault 0x0307 (some a)
    else match s.capFault l 1 s.view with
      | some c => s.engineFault c (some a)
      | none =>
        let cmd : DramCmd :=
          { kind, col := l.colIx, bank := dramBankOf l.off, row := dramRowOf l.off, who := some (s.askerOf none) }
        let n := if l.colIx = coreCol s.focus.core then 0 else 4
        let s1 := s.setProg { s.prog with waiting := true }
        s1.schedule (s1.now + n) rankMemory (.ev (.dramCommandIssue cmd))

/-- The word in focus is accepted in `n` cycles, and XT may start its next word in the cycle after (R249). -/
def State.slot512 (s : State) (n : Fin 32) : BitVec 512 := s.cur.ts[n.val]

/-! ### The meanings -/

def execXLdshape (p : Pred) (q : Fin 16) (sl : Fin 32) (st : State) : Out :=
  engineWord st p (.xLdshape p q sl) fun s => s.slotStart true sl
def execXEvict (p : Pred) (q : Fin 16) (sl : Fin 32) (st : State) : Out :=
  engineWord st p (.xEvict p q sl) fun s => s.slotStart false sl
def execXLd1 (p : Pred) (q : Fin 16) (sl : Fin 32) (st : State) : Out :=
  engineWord st p (.xLd1 p q sl) fun s => s.copyAccept (.xLd1 p q sl) (s.slot512 sl) 0
def execXSt1 (p : Pred) (q : Fin 16) (sl : Fin 32) (st : State) : Out :=
  engineWord st p (.xSt1 p q sl) fun s => s.copyAccept (.xSt1 p q sl) (s.slot512 sl) 0
def execXCp1 (p : Pred) (q : Fin 16) (st : State) : Out :=
  engineWord st p (.xCp1 p q) fun s => s.copyAccept (.xCp1 p q) 0 0
def execXLd2 (p : Pred) (q : Fin 16) (sl : Fin 32) (st : State) : Out :=
  engineWord st p (.xLd2 p q sl) fun s => s.copyAccept (.xLd2 p q sl) (s.slot512 sl) 0
def execXSt2 (p : Pred) (q : Fin 16) (sl : Fin 32) (st : State) : Out :=
  engineWord st p (.xSt2 p q sl) fun s => s.copyAccept (.xSt2 p q sl) (s.slot512 sl) 0
def execXCp2 (p : Pred) (q : Fin 16) (st : State) : Out :=
  engineWord st p (.xCp2 p q) fun s => s.copyAccept (.xCp2 p q) 0 0
def execXLd3 (p : Pred) (q : Fin 16) (sl : Fin 32) (st : State) : Out :=
  engineWord st p (.xLd3 p q sl) fun s => s.copyAccept (.xLd3 p q sl) (s.slot512 sl) 0
def execXSt3 (p : Pred) (q : Fin 16) (sl : Fin 32) (st : State) : Out :=
  engineWord st p (.xSt3 p q sl) fun s => s.copyAccept (.xSt3 p q sl) (s.slot512 sl) 0
def execXCp3 (p : Pred) (q : Fin 16) (st : State) : Out :=
  engineWord st p (.xCp3 p q) fun s => s.copyAccept (.xCp3 p q) 0 0
def execXLd4 (p : Pred) (q : Fin 16) (sl : Fin 32) (st : State) : Out :=
  engineWord st p (.xLd4 p q sl) fun s => s.copyAccept (.xLd4 p q sl) (s.slot512 sl) 0
def execXSt4 (p : Pred) (q : Fin 16) (sl : Fin 32) (st : State) : Out :=
  engineWord st p (.xSt4 p q sl) fun s => s.copyAccept (.xSt4 p q sl) (s.slot512 sl) 0
def execXCp4 (p : Pred) (q : Fin 16) (st : State) : Out :=
  engineWord st p (.xCp4 p q) fun s => s.copyAccept (.xCp4 p q) 0 0
def execXDact (p : Pred) (q : Fin 16) (st : State) : Out :=
  engineWord st p (.xDact p q) fun s => s.dramStart 0
def execXDpre (p : Pred) (q : Fin 16) (st : State) : Out :=
  engineWord st p (.xDpre p q) fun s => s.dramStart 1
def execXDref (p : Pred) (q : Fin 16) (st : State) : Out :=
  engineWord st p (.xDref p q) fun s => s.dramStart 2
def execXFld (p : Pred) (q : Fin 16) (sl : Fin 32) (c : Fin 8) (k : Fin 32) (st : State) : Out :=
  engineWord st p (.xFld p q sl c k) fun s => s.copyAccept (.xFld p q sl c k) (s.slot512 sl) (s.slot512 k)
def execXFst (p : Pred) (q : Fin 16) (sl : Fin 32) (st : State) : Out :=
  engineWord st p (.xFst p q sl) fun s => s.copyAccept (.xFst p q sl) (s.slot512 sl) 0

end Sys2Proof.Machine
end

