-- ==== Sys2Proof/Machine/Dram.lean ====
section
/-! DEFINITION. The tower: commands of the DRAM layer and its refresh (R62 to R64, R257, R349, R350), the repair of slices
(R340 to R348), and the power of layers 2 and 3 (R66, R258). -/

namespace Sys2Proof.Machine

open Sys2Proof

/-! ### Words that CE4 and firmware answer -/

/-- The word that asked is performed, and its core's queue may start its next word in the cycle after (R249). -/
def State.wordDone (s : State) (a : Asker) : State :=
  s.modWord a fun m => (m.finish a.q (ctxIx a.ctx)).modEng a.q fun e => { e with free := m.cyc + 1 }

/-- The word that asked faults where it is carried out; a word of a stopped task is checked again when it next starts
(R333). -/
def State.wordFault (s : State) (a : Asker) (code : BitVec 16) (addr : Option Word) : State :=
  let c := ctxIx a.ctx
  let s1 := s.modWord a fun m =>
    m.modEq a.q c fun e => { e with cur := e.cur.map fun k => { k with waiting := false } }
  match bankWithWord s1.cores a.tid a.q c with
  | some (core, bank) =>
    if (s1.bank core bank).status = .running then
      let old := s1.focus
      let s2 := (s1.focusOn .perform core bank c a.q).engineFault code addr
      { s2 with focus := old }
    else s1
  | none => s1

/-! ### Commands (R63) -/

/-- The first cycle from which a precharge of a bank is permitted. -/
def DramBank.prechargeAt (b : DramBank) : Nat :=
  match b.row with
  | some _ => max b.busy (max (b.actAt + 80) (b.wrAt + 20))
  | none => max b.busy b.readyAt

/-- The cycles up to which a repair holds a bank of the DRAM layer. -/
def State.dramHeld (s : State) (c : ColIx) (b : Fin 32) : Nat :=
  let x := s.slice c 3
  max (x.held.get 0 b.val) (x.held.get 0 (1000 + busGroup 4 b.val))

/-- The first cycle in which CE4 may issue a command. -/
def State.commandAt (s : State) (x : DramCmd) : Nat :=
  let b := s.dram x.col x.bank
  let held := s.dramHeld x.col x.bank
  match x.kind.val with
  | 0 =>
    -- one activate per slice in a cycle
    let used := (s.col x.col).dram.any fun e => e.1 != x.bank.val && e.2.row.isSome && e.2.actAt == s.now
    max held (max (max b.busy b.readyAt) (if used then s.now + 1 else 0))
  | 1 => max held (if b.row.isSome then b.prechargeAt else b.busy)
  | _ => max held (max b.busy b.readyAt)

/-- The forced refresh of a bank is due anew (R64). -/
def State.refreshAt (s : State) (c : ColIx) (b : Fin 32) (n : Nat) : State :=
  let s1 := s.withdraw fun a => match a with
    | .ev (.forcedRefresh c' b') => c' == c && b' == b
    | _ => false
  s1.schedule n rankRefresh (.ev (.forcedRefresh c b))

def State.window (s : State) (c : ColIx) : Nat := fld 13 0 (s.col c).refwin.toNat

/-- CE4 issues a command (R63, R257). -/
def State.issueCommand (s : State) (x : DramCmd) : State :=
  match x.kind.val with
  | 0 => s.modDram x.col x.bank fun b => { b with row := some x.row, actAt := s.now }
  | 1 => s.modDram x.col x.bank fun b => if b.row.isSome then { b with row := none, readyAt := s.now + 40 } else b
  | _ =>
    let e := s.now + 160
    (s.modDram x.col x.bank fun b => { b with readyAt := e, window := e }).refreshAt x.col x.bank (e + s.window x.col)

/-- DRAM_COMMAND_ISSUE (R63): at the first cycle that its limits allow; to a bank with an open row, an activate or a
refresh raises 0x0803 and nothing is issued (R349). -/
def execDramCommandIssue (s : State) : Out :=
  match s.focus.event with
  | some (.dramCommandIssue x) =>
    let at' := s.commandAt x
    if s.now < at' then .next (s.schedule at' rankMemory (.ev (.dramCommandIssue x)))
    else if x.kind ≠ 1 ∧ (s.dram x.col x.bank).row.isSome = true then
      match x.who with
      | some a =>
        let addr := match bankWithWord s.cores a.tid a.q (ctxIx a.ctx) with
          | some (c, b) => (((s.img c b).eqAt a.q (ctxIx a.ctx)).cur.bind fun k => k.popped.head?)
          | none => none
        .next (s.wordFault a 0x0803 addr)
      | none => .next s
    else
      let s1 := s.issueCommand x
      .next (match x.who with
        | some a => s1.wordDone a
        | none => s1)
  | _ => .fault (.nothingThere "DRAM_COMMAND_ISSUE")

/-! ### Forced refresh (R64, R350) -/

/-- A bank that holds its die's stores: the device refreshes it itself (R62). -/
def State.ownRefresh (s : State) (c : ColIx) (b : Fin 32) : Bool :=
  (s.die (colDie c)).storesCol == c.val % 8 && decide (30 ≤ b.val)

/-- FORCED_REFRESH (R64): a bank has missed its window. -/
def execForcedRefresh (s : State) : Out :=
  match s.focus.event with
  | some (.forcedRefresh c b) =>
    let x := s.dram c b
    let held := s.dramHeld c b
    let at' := max held x.prechargeAt
    if s.ownRefresh c b then .next s
    else if s.now < at' then .next (s.refreshAt c b at')
    else
      let e := s.now + (if x.row.isSome then 240 else 160)
      let s1 := s.modDram c b fun x => { x with busy := e }
      let s2 := s1.modCol c fun k =>
        let n := fld 47 32 k.rfstall.toNat
        if n = 2 ^ 16 - 1 then k else { k with rfstall := k.rfstall + BitVec.ofNat 64 (2 ^ 32) }
      .next (s2.schedule e rankRead (.ev (.forcedRefreshEnd c b)))
  | _ => .fault (.nothingThere "FORCED_REFRESH")

/-- FORCED_REFRESH_END (R64): the bank's next window starts, its row as before. -/
def execForcedRefreshEnd (s : State) : Out :=
  match s.focus.event with
  | some (.forcedRefreshEnd c b) =>
    let s1 := s.modDram c b fun x =>
      { x with window := s.now, actAt := if x.row.isSome then s.now - 40 else x.actAt }
    .next (s1.refreshAt c b (s.now + s.window c))
  | _ => .fault (.nothingThere "FORCED_REFRESH_END")

/-- The hottest sensor of a column. -/
def State.hottest (s : State) (c : ColIx) : Nat := (s.col c).temps.toList.foldl max 0

/-- A column whose hottest sensor reads 105 °C or above trips, and one whose hottest sensor reads below 100 °C ends the
throttling of its cores (R372). -/
def State.heat (s : State) (c : ColIx) : State :=
  let t := s.hottest c
  if 105 ≤ t then s.after 0 rankUnit (.thermalTrip c)
  else if t < 100 then
    s.each (List.range 8) fun s k =>
      if (s.core (colCore c k)).throttled then
        s.after 0 rankUnit (.throttleEnd (colCore c k) (s.core (colCore c k)).front) else s
  else s

/-- DRAM_SENSOR_READING (R64, R311): a sensor of the column reads; HOT follows the DRAM layer's reading, and the thermal
manager writes the window when it changes. -/
def execDramSensorReading (s : State) : Out :=
  match s.focus.event with
  | some (.dramSensorReading c layer t) =>
    let hot := decide (85 < t)
    let s1 := (s.modCol c fun k => { k with temps := k.temps.set layer.val t }).heat c
    if layer.val ≠ 4 ∨ hot = bitAt 14 (s.col c).refwin.toNat then .next s1
    else
      let v : Word := BitVec.ofNat 64 ((if hot then 4387 else 8775) + bit64 hot 14)
      .next ((s1.modCol c fun k => { k with refwin := v }).planRefresh c)
  | _ => .fault (.nothingThere "DRAM_SENSOR_READING")

/-! ### Repair (R336, R342 to R348) -/

/-- CORRECTED_REWRITE (R336): the stored granule is rewritten corrected, unless a write has cancelled it. -/
def execCorrectedRewrite (s : State) : Out :=
  match s.focus.event with
  | some (.correctedRewrite g) =>
    .next { s with latent := s.latent.filter fun e => !(e.1 == g && !e.2.uncorr) }
  | _ => .fault (.nothingThere "CORRECTED_REWRITE")

/-- REPAIR_WINDOW (R342): the counts of a new window begin at 0. -/
def execRepairWindow (s : State) : Out :=
  match s.focus.event with
  | some .repairWindow =>
    let cols : Store Column := s.cols.map fun (k : Nat × Column) =>
      (k.1, { k.2 with slices := k.2.slices.map fun x => { x with laneErr := [], bankErr := [] } })
    let cores : Store Core := s.cores.map fun (k : Nat × Core) => (k.1, { k.2 with bankErr := [] })
    .next (({ s with cols, cores } : State).after (2 ^ 24) rankUnit .repairWindow)
  | _ => .fault (.nothingThere "REPAIR_WINDOW")

/-- A control access to one of the banks of a slice that p names is in progress (R343). -/
def State.bankInUse (s : State) (c : ColIx) (l : Fin 4) (p : Nat → Bool) : Bool :=
  let here (k : Nat) : Bool := match spaceOf k with
    | .tower col layer off => col == c.val && layer == l.val + 1 && p (sliceBank layer off)
    | _ => false
  s.agenda.any fun x => match x.act with
    | .ev (.accessPoint (.load _ k _ _ _ _ _)) => here k
    | .ev (.accessPoint (.store _ k _ _)) => here k
    | _ => false

/-- LANE_REPLACEMENT (R343): a spare lane of the bus takes over, its group held for 64 cycles; a bus without one is
retimed (R342). -/
def execLaneReplacement (s : State) : Out :=
  match s.focus.event with
  | some (.laneReplacement c l bus g) =>
    let x := s.slice c l
    if x.condemned.isSome then .next s
    else if x.spares.get 0 bus = 8 then .next (s.retimeBus c l bus g)
    else if s.bankInUse c l (fun b => busGroup (l.val + 1) b == bus / 8) then
      .next (s.after 1 rankRefresh (.laneReplacement c l bus g))
    else
      let e := s.now + 64
      let s1 := s.modSlice c l fun x =>
        { x with spares := x.spares.put bus (x.spares.get 0 bus + 1), held := x.held.put (1000 + bus / 8) e }
      .next (s1.schedule e rankRead (.ev (.laneReplacementEnd c l bus)))
  | _ => .fault (.nothingThere "LANE_REPLACEMENT")

/-- LANE_REPLACEMENT_END (R343): the bus group is released. -/
def execLaneReplacementEnd (s : State) : Out :=
  match s.focus.event with
  | some (.laneReplacementEnd c l bus) =>
    .next (s.modSlice c l fun x => { x with held := x.held.del (1000 + bus / 8) })
  | _ => .fault (.nothingThere "LANE_REPLACEMENT_END")

/-- Cycles for which a talon replacement holds its bank (R343). -/
def talonCycles (l : Fin 4) : Nat :=
  match l.val with
  | 0 => 2068
  | 1 => 4128
  | 2 => 4142
  | _ => 4194304

/-- TALON_REPLACEMENT (R343): the repair holds the bank and reads every line of it, corrected or poisoned; with the talon
empty the slice is condemned (R342). -/
def execTalonReplacement (s : State) : Out :=
  match s.focus.event with
  | some (.talonReplacement c l g) =>
    let bank := match spaceOf g with
      | .tower _ layer off => sliceBank layer off
      | _ => 0
    let held := (s.slice c l).held.get 0 bank
    if (s.slice c l).condemned.isSome then .next s
    else if s.now < held then .next s
    else if s.talonEmpty c l then .next (s.condemn c l g)
    else
      let d := s.dram c (Fin.ofNat 32 bank)
      let at' := if l.val = 3 then max d.busy d.prechargeAt else s.now
      if s.bankInUse c l (· == bank) then .next (s.after 1 rankRefresh (.talonReplacement c l g))
      else if s.now < at' then .next (s.schedule at' rankRefresh (.ev (.talonReplacement c l g)))
      else
        let mine := s.latent.filter fun e => match spaceOf e.1 with
          | .tower col layer off => col == c.val && layer == l.val + 1 && sliceBank layer off == bank
          | _ => false
        let s1 := s.each mine fun s e => s.countEcc e.1 e.2.uncorr
        let s2 := mine.foldl (fun s e =>
          if e.2.uncorr then { s with poison := (s.poison.erase e.1) ++ [e.1], latent := s.latent.del e.1 }
          else { s with latent := s.latent.del e.1 }) s1
        let e := s2.now + talonCycles l
        let s3 := s2.modSlice c l fun x => { x with held := x.held.put bank e }
        .next (s3.schedule e rankRead (.ev (.talonReplacementEnd c l bank)))
  | _ => .fault (.nothingThere "TALON_REPLACEMENT")

/-- TALON_REPLACEMENT_END (R343): the talon bank has taken the addresses; a DRAM-layer bank's row is as before and its
refresh has been served. -/
def execTalonReplacementEnd (s : State) : Out :=
  match s.focus.event with
  | some (.talonReplacementEnd c l bank) =>
    let s1 := s.modSlice c l fun x => { x with held := x.held.del bank }
    let s2 := s1.modCol c fun k =>
      { k with busTiming := k.busTiming.set l.val (k.busTiming[l.val] + BitVec.ofNat 64 (2 ^ 24)) }
    if l.val = 3 then
      let b : Fin 32 := Fin.ofNat 32 bank
      .next ((s2.modDram c b fun x => { x with window := s.now }).refreshAt c b (s.now + s.window c))
    else .next s2
  | _ => .fault (.nothingThere "TALON_REPLACEMENT_END")

/-- Every image of the package: those in the banks and those out of their cores. -/
def State.images (s : State) : List Image :=
  (s.cores.flatMap fun k => [k.2.banks[0].img, k.2.banks[1].img]) ++
    (s.dies.flatMap fun d => d.2.saved.map fun x => x.img)

/-- Whether a task that accessed a slice before it was condemned has not reached its boundary (R345). -/
def State.sliceInUse (s : State) (c : ColIx) (l : Fin 4) : Bool :=
  s.images.any fun m => m.task.isSome && m.touched.contains (4 * c.val + l.val)

/-- The key of entry e of a die's allocation table (R66). -/
def State.allocKey (s : State) (d : DieIx) (e : Nat) : Nat :=
  let v := (s.die d).allocBase.toNat
  keyTower (8 * d.val + fld 34 32 v) 1 (fld 30 0 v + 16 * e)

def State.allocCount (s : State) (d : DieIx) : Nat := fld 63 48 (s.die d).allocBase.toNat

/-- The place, length and LIVE of entry e of a die's allocation table. -/
def State.allocEntry (s : State) (d : DieIx) (e : Nat) : Option (Loc × Nat) :=
  let k := s.allocKey d e
  if bitAt 0 (s.read (k + 12) 1) then
    (locOf (dieCore d 0) (BitVec.ofNat 64 (s.read k 8))).map fun l => (l, s.read (k + 8) 4)
  else none

/-- SLICE_RETIRED (R345): at the recovery point the slice is retired, firmware clears the entries of the allocation table
that lie in it, and a die's stores move out of it (R347). -/
def execSliceRetired (s : State) : Out :=
  match s.focus.event with
  | some (.sliceRetired c l) =>
    let x := s.slice c l
    if x.condemned.isNone || x.retired || s.sliceInUse c l then .next s
    else
      let d := colDie c
      let s0 := s.modSlice c l fun x => { x with retired := true }
      let copies := (s0.agenda.filterMap fun e => match e.act with
        | .ev (.copyCompletion core b q k _) => some (core, b, q, k)
        | _ => none).eraseDups
      let s1 := s0.each copies fun s x =>
        s.after 0 rankUnit (.copyCompletion x.1 x.2.1 x.2.2.1 x.2.2.2 .check)
      let s1 := if l.val ≠ 0 then s1 else match (s1.col c).tsRun with
        | some p => s1.after 0 rankMemory
            (.tsDataPosting { col := c, tid := p.tid, core := p.core, ctx := ixCtx p.ctx, pc := p.pc, part := .check })
        | none => s1
      let s2 := (List.range (s1.allocCount d)).foldl (fun s e =>
        match s.allocEntry d e with
        | some (p, _) =>
          if p.colIx = c ∧ p.layer = l.val + 1 then
            s.write (s.allocKey d e + 12) 1 (s.read (s.allocKey d e + 12) 1 - 1)
          else s
        | none => s) s1
      .next (if l.val = 3 ∧ (s2.die d).storesCol = c.val % 8 then
        (s2.announceStores d).modDie d fun k => { k with storesCol := s2.newStores d }
      else s2)
  | _ => .fault (.nothingThere "SLICE_RETIRED")

/-- Slices condemned and not retired whose recovery point may have come (R345): tried at every task boundary. -/
def State.checkRetire (s : State) : State :=
  let l := s.cols.flatMap fun k => (List.finRange 4).filterMap fun i =>
    let x := k.2.slices[i.val]
    if x.condemned.isSome && !x.retired then some (Fin.ofNat 32 k.1, i) else none
  s.each l fun s p => s.after 0 rankUnit (.sliceRetired p.1 p.2)

/-! ### Power of layers 2 and 3 (R66, R258) -/

/-- The index of layer 2 or 3 in a die's power state. -/
def layerIx (layer : Nat) : Fin 2 := if layer = 3 then 1 else 0

/-- A power-up of a layer begins, unless it is powered or waking (R66). -/
def State.wakeLayer (s : State) (d : DieIx) (layer : Nat) : State :=
  let i := layerIx layer
  let k := s.die d
  let s0 := s.modDie d fun k => { k with down := k.down.set i.val false }
  if k.on[i.val] || k.waking[i.val].isSome then s0
  else
    (s0.modDie d fun k => { k with waking := k.waking.set i.val (some (s.now + 4500)) }).after 4500 rankLand
      (.layerWakeComplete d (Fin.ofNat 5 layer))

/-- The power controller accepts a hint (R258). -/
def State.powerHint (s : State) (d : DieIx) (layer : Nat) (up : Bool) : State :=
  if up then
    let s1 := s.wakeLayer d 2
    if layer = 3 then s1.wakeLayer d 3 else s1
  else
    let s1 := s.modDie d fun k =>
      { k with down := (k.down.set 1 true).set (layerIx layer).val true }
    s1.offAsked d

/-- LAYER_WAKE_COMPLETE (R66): the layer is powered, and every byte of it reads zero. -/
def execLayerWakeComplete (s : State) : Out :=
  match s.focus.event with
  | some (.layerWakeComplete d layer) =>
    let inLayer (k : Nat) : Bool := match spaceOf k with
      | .tower col l _ => col / 8 == d.val && l == layer.val
      | _ => false
    let i := layerIx layer.val
    .next ({ s with
      mem := s.mem.filter fun c => !(inLayer c.1)
      poison := s.poison.filter fun k => !(inLayer k)
      latent := s.latent.filter fun e => !(inLayer e.1) }.modDie d fun k =>
        { k with on := k.on.set i.val true, waking := k.waking.set i.val none })
  | _ => .fault (.nothingThere "LAYER_WAKE_COMPLETE")

/-- The die holds no user task: no record, no hand entry, no running and no saved task, but the firmware's own (R66). -/
def State.dieEmpty (s : State) (d : DieIx) : Bool :=
  let cores := (List.range 64).map fun k => s.core (dieCore d k)
  let system (slot : Nat) : Bool := match (s.die d).records.find slot with
    | some r => r.system
    | none => false
  let free (b : Bank) : Bool := match b.img.task with
    | some t => t.system
    | none => true
  (s.die d).records.all (fun r => r.2.husk || r.2.system) && (s.die d).saved.isEmpty &&
    cores.all fun k => k.hand.all (fun h => system h.slot) && free k.banks[0] && free k.banks[1]

/-- Live entries of a die's allocation table: index, place and length. -/
def State.allocs (s : State) (d : DieIx) : List (Nat × Loc × Nat) :=
  (List.range (s.allocCount d)).filterMap fun e => (s.allocEntry d e).map fun p => (e, p.1, p.2)

/-- Allocated bytes fit in the layers below a layer (R66). -/
def State.fitsBelow (s : State) (d : DieIx) (layer : Nat) : Bool :=
  let used := (s.allocs d).foldl (fun n e => n + e.2.2) 0
  let room := (List.range (layer - 1)).foldl (fun n i =>
    n + (List.range 8).foldl (fun n k => n + s.sliceCap (Fin.ofNat 32 (8 * d.val + k)) (i + 1) s.now) 0) 0
  decide (used ≤ room)

/-- Whether firmware can move an allocation of n bytes to a place: of its die, in a layer below, within its capacity, and apart
from every other live allocation (R66). -/
def State.canHold (s : State) (d : DieIx) (layer : Nat) (e n : Nat) (l : Loc) : Bool :=
  l.die == d.val && decide (1 ≤ l.layer ∧ l.layer < layer ∧ l.off + n ≤ s.sliceCap l.colIx l.layer s.now) &&
    (s.allocs d).all fun x => x.1 == e || x.2.1.colIx != l.colIx || x.2.1.layer != l.layer ||
      decide (x.2.1.off + x.2.2 ≤ l.off ∨ l.off + n ≤ x.2.1.off)

/-- Firmware moves one live allocation out of a layer, to a place of its choice, and rewrites its entry (R66); none when its
choice cannot hold it. -/
def State.moveAlloc (s : State) (d : DieIx) (layer : Nat) (e : Nat × Loc × Nat) : Option State :=
  if e.2.1.layer ≠ layer then some s
  else
    let (f, s1) := s.nextFree
    match locOf (dieCore d 0) (Config.freePlace f) with
    | some l =>
      if s1.canHold d layer e.1 e.2.2 l then
        let cells := (List.range e.2.2).map fun i =>
          (l.key + i, memGet s1.mem (e.2.1.key + i), s1.poison.contains (granuleOf (e.2.1.key + i)))
        some ((s1.writeCells cells).write (s1.allocKey d e.1) 8 (l.form .die).toNat)
      else none
    | none => none

/-- LAYER_POWER_OFF (R66): layer 3, and then layer 2, only when the die holds no user task and the allocated bytes fit
below; otherwise nothing happens. A layer out of which a live allocation cannot be moved stays on. -/
def execLayerPowerOff (s : State) : Out :=
  match s.focus.event with
  | some (.layerPowerOff d layer) =>
    let i := layerIx layer.val
    let k := s.die d
    let ready := s.dieEmpty d && k.on[i.val] && (layer.val == 3 || (layer.val == 2 && !k.on[1])) &&
      s.fitsBelow d layer.val
    if !ready then .next s
    else
      match (s.allocs d).foldlM (fun s e => s.moveAlloc d layer.val e) s with
      | none => .next { s with free := s.free + 1 }
      | some s1 => .next (s1.modDie d fun k => { k with on := k.on.set i.val false, down := k.down.set i.val false })
  | _ => .fault (.nothingThere "LAYER_POWER_OFF")

/-- `x.lpow` (R258): accepted by the die's power controller at start + 14, and performed then. XT may start its next word
in the cycle after (R249). -/
def State.lpow (s : State) (layer : Nat) (up : Bool) : State :=
  if s.prog.part = [] then
    (s.setProg { s.prog with part := [1], waiting := true }).schedule (s.now + 14) rankUnit
      (.perform s.focus.core s.focus.bank s.focus.q s.focus.ctx)
  else (s.powerHint (coreDie s.focus.core) layer up).copyDone

def execXLpow (p : Pred) (l : Fin 32) (u : Bool) (st : State) : Out :=
  engineWord st p (.xLpow p l u) fun s => s.lpow l.val u

end Sys2Proof.Machine
end

