-- ==== Sys2Proof/Machine/Transform.lean ====
section
/-! DEFINITION. The transform sequencer (R259 to R264, R331): the words that start it, its sixteen instructions with their
timing, and the turns and ends of its programs. -/

namespace Sys2Proof.Machine

open Sys2Proof

/-! ### Starting a program (R260) -/

/-- The entries of `x.trun` obey R260. -/
def trunOk (c a : Word) : Bool :=
  let len := fld 52 42 c.toNat
  cmdOk (c &&& 0x7FFFFF) true && fld 31 23 c.toNat == 0 && fld 63 53 c.toNat == 0 &&
    decide (len ≤ 1024 ∧ fld 41 32 c.toNat + len ≤ 1024) && (len != 0 || a == 0)

/-- `x.trun` (R260): checked at start, accepted by TS at start + 4; the word leaves its queue then, and XT may start its
next word in the cycle after (R249). -/
def State.trun (s : State) : State :=
  let c := s.popped 0
  let a := s.popped 1
  let len := fld 52 42 c.toNat
  if s.prog.part ≠ [] then
    let w := s.curQ.words.head?
    let arg (j : Nat) : Word := s.popped (2 + j)
    let half (i : Nat) : BitVec 32 := ((arg (i / 2)) >>> (32 * (i % 2))).setWidth 32
    let p : TsProg :=
      { tid := s.cur.tid, core := s.focus.core, bank := s.focus.bank, ctx := s.focus.ctx
        wpc := match w with
          | some w => w.pc
          | none => 0
        trap := match w with
          | some w => w.trap
          | none => false
        h := #v[half 0, half 1, half 2, half 3, half 4, half 5, half 6, half 7], c := Vector.replicate 4 0, geom := none
        view := s.view, pc := fld 41 32 c.toNat, bar := cmdBar c, entry := fld 41 32 c.toNat, loadLen := len, image := a
        wrBusy := 0, postBusy := 0, begun := false, resumed := false, faulted := false, accepted := s.now }
    s.copyDone.tsAccept p
  else
    let bad : Option (BitVec 16 × Option Word) :=
      if !(trunOk c a) then some (0x0307, none)
      else if len = 0 then none
      else match s.dieLoc a [1] 256 with
        | .error e => some (e, some a)
        | .ok l =>
          if fld 59 56 a.toNat ≠ 2 then some (0x0704, some a)
          else (s.capFault l (4 * len) s.view).map fun e => (e, some a)
    match bad with
    | some (e, ad) => s.engineFault e ad
    | none =>
      let s0 := if nameKind (cmdBar c) = 1 then s.irrev else s
      (s0.setProg { s0.prog with part := [1], waiting := true }).schedule (s0.now + 4) (rankWait + s0.focus.core.val)
        (.perform s0.focus.core s0.focus.bank s0.focus.q s0.focus.ctx)

/-- `x.tok` (R260): accepted at start + 4, and held while the count is 255. -/
def State.tok (s : State) (k : Fin 4) : State :=
  let again (s : State) (n : Nat) : State :=
    s.schedule (s.now + n) (rankWait + s.focus.core.val) (.perform s.focus.core s.focus.bank s.focus.q s.focus.ctx)
  if s.prog.part = [] then again (s.setProg { s.prog with part := [1], waiting := true }) 4
  else if s.cur.tk[k.val] = 255 then again s 1
  else (s.modCur fun m => { m with tk := m.tk.set k.val (m.tk[k.val] + 1) }).copyDone

/-! ### The running program -/

/-- The running program of the column in focus, changed. -/
def State.modTs (s : State) (f : TsProg → TsProg) : State :=
  s.modCol s.focus.col fun k => { k with tsRun := k.tsRun.map f }

/-- TS issues the program's next word `n` cycles from now: before the LOOP and SYNC engines push (R87). -/
def State.tsNext (s : State) (n : Nat) : State := s.schedule (s.now + n) rankAnswer (.ts s.focus.col)

/-- TS leaves the program, and takes the next one in the cycle after `at'` (R263). -/
def State.tsLeave (s : State) (at' : Nat) : State :=
  (s.modCol s.focus.col fun k => { k with tsRun := none }).schedule (at' + 1) rankUnit (.ev (.tsProgramTurn s.focus.col))

/-- The focus on the core that started a program. -/
def State.tsFocus (s : State) (p : TsProg) : State :=
  { s with focus := { s.focus with core := p.core, bank := p.bank, ctx := p.ctx, q := 10 } }

/-- The program faults at the word at its counter (R331): against its `x.trun`, with the TS program counter; TS takes its
next program once its writes have been performed and its counts posted. A program that TS has let go of is reported. -/
def State.tsFault (s : State) (p : TsProg) (code : BitVec 16) (addr : Option Word) : State :=
  let (a, s0) := s.faultAddr addr
  let runs := (s0.col s0.focus.col).tsRun.any fun r => r.tid == p.tid && r.ctx == p.ctx
  let s1 := if runs then
      (s0.withdraw fun a => match a with
        | .ts c => c == s.focus.col
        | _ => false).tsLeave (max s0.now p.postBusy)
    else s0
  if runs && (s1.img p.core p.bank).holds p.tid then
    let s2 := s1.modImg p.core p.bank fun m => { m with progs := m.progs ++ [{ p with faulted := true }] }
    s2.raiseAt p.core p.bank p.ctx 10 p.pc p.wpc p.trap code a
  else s1.toRing (coreDie p.core) (s.faultRec code 3 10 p.pc 0 a none p.core.val)

/-- The word at the program's counter, zero-extended: TRAPADDR of R331. -/
def State.tsWordAt (s : State) (p : TsProg) : Word := ((s.col s.focus.col).tsMem.get 0 p.pc).setWidth 64

/-- A word of a transform program: performed on the running program, unless its counter has passed word 1,023. -/
def tsWord (s : State) (body : TsProg → State → State) : Out :=
  match (s.col s.focus.col).tsRun with
  | none => .fault (.nothingThere "transform program")
  | some p =>
    let s1 := s.tsFocus p
    .next (if 1023 < p.pc then s1.tsFault p 0x0103 none else body p s1)

/-- A control instruction of one cycle that changes the program's registers (R263). -/
def tsStep (s : State) (f : TsProg → TsProg) : Out :=
  tsWord s fun _ s => (s.modTs fun p => { f p with pc := p.pc + 1 }).tsNext 1

/-- A branch by a signed offset of words (R262); a target outside the memory faults (R331). -/
def State.tsBranch (s : State) (p : TsProg) (o : BitVec 19) : State :=
  let t := (p.pc : Int) + o.toInt
  if 0 ≤ t ∧ t ≤ 1023 then (s.modTs fun p => { p with pc := t.toNat }).tsNext 1
  else s.tsFault p 0x0103 (some (s.tsWordAt p))

def TsProg.reg (p : TsProg) (n : Fin 8) : BitVec 32 := p.h[n.val]
def TsProg.put (p : TsProg) (n : Fin 8) (v : BitVec 32) : TsProg := { p with h := p.h.set n.val v }

/-! ### Data instructions (R261, R263) -/

/-- The place an operand names in layer 1 of the column, for n bytes; or its code (R259, R329). -/
def State.tsHigh (s : State) (p : TsProg) (v : BitVec 32) (n al : Nat) : Except (BitVec 16) Nat :=
  let o := v.toNat
  let cap := s.sliceCap s.focus.col 1 p.view
  if o % al ≠ 0 then .error 0x0301
  else if fullSlice 1 false < o + n then .error 0x0704
  else if cap < o + n then .error 0x0802
  else .ok (keyTower s.focus.col.val 1 o)

/-- The place an operand names in a layer 0 of the column, for n bytes; or its code. -/
def State.tsLow (s : State) (v : BitVec 32) (n al : Nat) : Except (BitVec 16) Nat :=
  let o := fld 20 0 v.toNat
  if v.toNat % al ≠ 0 then .error 0x0301
  else if fld 31 24 v.toNat ≠ 0 ∨ 2 ^ 21 < o + n then .error 0x0704
  else .ok (keyL0 (colCore s.focus.col (fld 23 21 v.toNat)).val o)

/-- Occupancy of R263. -/
def tsOccupancy (n1 n0 : Nat) : Nat := max 1 (max (ceilDiv n1 4) (ceilDiv n0 16))

/-- The asking of TS for a line: of layer 0 as class COPY (R59); of layer 1 it owns its part of the port (R73). -/
def State.tsAsk (s : State) (x : TsPost) (line : Nat) (wr : Bool) (part : TsPart) : State :=
  s.askLine rankAnswer
    { line, wr, cls := 3, since := s.now, ord := ordTs x.col, who := .unit (.tsDataPosting { x with part }) }

/-- A posting of the program, as its part. -/
def TsProg.step (p : TsProg) (part : TsPart) : TsPost :=
  { col := coreCol p.core, tid := p.tid, core := p.core, ctx := ixCtx p.ctx, pc := p.pc, part }

/-- Numbers in groups of n, at most so many. -/
def groupsOf (n fuel : Nat) (l : List Nat) : List (List Nat) :=
  match fuel with
  | 0 => []
  | fuel + 1 => if l.isEmpty then [] else l.take n :: groupsOf n fuel (l.drop n)

/-- Lines that n bytes from a key touch. -/
def touchedLines (k n : Nat) : List Nat := if n = 0 then [] else (List.range ((k + n - 1) / 256 + 1 - k / 256)).map (· + k / 256)

/-- A data instruction goes on its way (R263): what it reads, each group with the cycle of its first read; the cycles it
occupies, and the cycles from issue to its first write. The next word issues when its occupancy ends. -/
def State.tsData (s : State) (p : TsProg) (o first : Nat) (ops : List TsOp) (reads : List (Nat × Nat × List Nat))
    (f : TsProg → TsProg) : State :=
  let last := s.now + first + o - 1
  let s1 := s.modCol s.focus.col fun k => { k with tsOps := k.tsOps ++ ops }
  let s2 := s1.each reads fun s x =>
    s.schedule (s.now + x.1) rankAnswer (.ev (.tsDataPosting (p.step (.read x.2.1 x.2.2))))
  (s2.modTs fun p =>
    { f p with pc := p.pc + 1, wrBusy := max p.wrBusy last, postBusy := max p.postBusy (last + 2) }).tsNext o

/-- Whether a data instruction of the program is cut off (R346): its task has reached its boundary, and the column's layer
1 slice has been retired since. -/
def State.tsCut (s : State) (p : TsProg) : Bool :=
  !((s.img p.core p.bank).holds p.tid) && s.sliceCut s.focus.col 1 p.view

/-- The program is cut off: its barrier is lost, and a record reports it (R346). -/
def State.tsCutOff (s : State) (p : TsProg) (k : Nat) : State :=
  let mine := (s.img p.core p.bank).holds p.tid
  let r := s.faultRec 0x0804 (if mine then p.ctx.val else 3) 10 p.pc 0 (s.keyAddr k)
    (if mine then (s.img p.core p.bank).task else none) p.core.val
  let s1 := (s.withdraw fun a => match a with
    | .ev (.tsDataPosting x) => x.tid == p.tid && x.col == s.focus.col
    | .ts c => c == s.focus.col
    | _ => false).modCol s.focus.col fun k => { k with tsOps := k.tsOps.filter fun o => o.prog.tid != p.tid }
  ((s1.toRing (coreDie p.core) r).loseName p.bar).tsLeave s.now

/-- The work of a data instruction between a place in layer 1 and one in layer 0, once both are checked. -/
def State.tsBetween (s : State) (p : TsProg) (hi lo : BitVec 32) (nHi nLo al : Nat)
    (go : Nat → Nat → State → State) : State :=
  match (if (s.img p.core p.bank).holds p.tid then s else s.beforeRecovery p.view).tsHigh p hi nHi al, s.tsLow lo nLo al with
  | .error c, _ => s.tsFault p c (some (s.keyAddr (keyTower s.focus.col.val 1 hi.toNat)))
  | _, .error c =>
    s.tsFault p c (some (s.keyAddr (keyL0 (colCore s.focus.col (fld 23 21 lo.toNat)).val (fld 20 0 lo.toNat))))
  | .ok k1, .ok k0 =>
    if s.tsCut p then s.tsCutOff p k1
    else go k1 k0 (s.touch ⟨s.focus.col.val / 8, s.focus.col.val % 8, 0, 1, hi.toNat⟩)

/-- Expansion (R261): element k is the j-th packed element, j the mask bits set below it, when bit k is set and j < Z. -/
def expandFrom (mask : Nat) (z : Nat) (zero : List (Byte × Bool)) (packed : Nat → List (Byte × Bool)) :
    Nat → Nat → Nat → List (Byte × Bool)
  | 0, _, _ => []
  | n + 1, k, j =>
    let set := bitAt k mask
    (if set && decide (j < z) then packed j else zero) ++ expandFrom mask z zero packed n (k + 1) (if set then j + 1 else j)

/-- Compression (R261): the mask and the packed form of the first Z non-zero elements of a block, zeros up to PAD bytes, and
the number of non-zero elements dropped. -/
def compressBlock (e b pad : Nat) (elem : Nat → Nat) : List Byte × Nat :=
  let nz := (List.range b).filter fun k => elem k != 0
  let kept := nz.take ((pad - b / 8) / e)
  let mask := kept.foldl (fun m k => m + 2 ^ k) 0
  let packed := kept.flatMap fun k => (List.range e).map fun i => BitVec.ofNat 8 (elem k / 2 ^ (8 * i))
  let body : List Byte := ((List.range (b / 8)).map fun i => BitVec.ofNat 8 (mask / 2 ^ (8 * i))) ++ packed
  (body ++ List.replicate (pad - body.length) 0, nz.length - kept.length)

/-- Expansion of a compressed block (R261): b elements of e bytes, each byte with whether its source is poisoned. -/
def expandBlock (e b pad : Nat) (bytes : List (Byte × Bool)) : List (Byte × Bool) :=
  let mask := (bytes.take (b / 8)).foldr (fun x n => x.1.toNat + 256 * n) 0
  expandFrom mask ((pad - b / 8) / e) (List.replicate e (0, false)) (fun j => (bytes.drop (b / 8 + e * j)).take e) b 0 0

/-- `zexp` (R262). -/
def State.tsExpand (s : State) (p : TsProg) (ra rb : Fin 8) : State :=
  match p.geom with
  | none => s.tsFault p 0x0103 (some (s.tsWordAt p))
  | some (le, b, pad) =>
    let e := 2 ^ le
    s.tsBetween p (p.reg ra) (p.reg rb) pad (b * e) 32 fun k1 k0 s =>
      let src := touchedLines k1 pad
      let o := tsOccupancy src.length (touchedLines k0 (b * e)).length
      let op : TsOp :=
        { id := s.now, prog := p, work := .expand k1 k0 e b pad, left := src, lines := [], due := s.now + 26, span := o
          post := some (b * e / 32) }
      s.tsData p o 26 [op] ((groupsOf 4 o src).zipIdx.map fun x => (x.2, s.now, x.1)) fun p =>
        (p.put ra (p.reg ra + BitVec.ofNat 32 pad)).put rb
          ((if ra = rb then p.reg rb + BitVec.ofNat 32 pad else p.reg rb) + BitVec.ofNat 32 (b * e))

/-- `zcmp` (R262): the first Z non-zero elements are kept. D is written once the block is read, before the next word
issues. -/
def State.tsCompress (s : State) (p : TsProg) (rd ra rb : Fin 8) : State :=
  match p.geom with
  | none => s.tsFault p 0x0103 (some (s.tsWordAt p))
  | some (le, b, pad) =>
    if rd = ra ∨ rd = rb then s.tsFault p 0x0103 (some (s.tsWordAt p))
    else
      let e := 2 ^ le
      s.tsBetween p (p.reg rb) (p.reg ra) pad (b * e) 32 fun k1 k0 s =>
        let src := touchedLines k0 (b * e)
        let o := tsOccupancy (touchedLines k1 pad).length src.length
        let op : TsOp :=
          { id := s.now, prog := p, work := .compress rd k1 k0 e b pad, left := src, lines := [], due := s.now + 12, span := o
            post := some (pad / 32) }
        s.tsData p o 12 [op] ((groupsOf 16 o src).zipIdx.map fun x => (x.2, s.now, x.1)) fun p =>
          let p1 := p.put ra (p.reg ra + BitVec.ofNat 32 (b * e))
          p1.put rb (p1.reg rb + BitVec.ofNat 32 pad)

/-- `mvlo` and `mvhi` (R262): n lines from `ra` to `rb`, four a cycle. -/
def State.tsMove (s : State) (p : TsProg) (up : Bool) (ra rb : Fin 8) (n : Nat) : State :=
  if n = 0 ∨ 64 < n then s.tsFault p 0x0103 (some (s.tsWordAt p))
  else
    let (hi, lo) := if up then (p.reg rb, p.reg ra) else (p.reg ra, p.reg rb)
    s.tsBetween p hi lo (256 * n) (256 * n) 256 fun k1 k0 s =>
      let o := tsOccupancy n n
      let line (i : Nat) : Nat × Nat :=
        if up then (k0 / 256 + i, k1 / 256 + i) else (k1 / 256 + i, k0 / 256 + i)
      let first := if up then 12 else 26
      let group (j : Nat) : List (Nat × Nat) := ((List.range n).filter fun i => i / 4 == j).map line
      let ops : List TsOp := (List.range o).map fun j =>
        { id := s.now + j, prog := p, work := .move (group j), left := (group j).map (·.1), lines := []
          due := s.now + j + first, span := 1, post := if j + 1 = o then some (8 * n) else none }
      s.tsData p o first ops ((List.range o).map fun j => (j, s.now + j, (group j).map (·.1))) fun p =>
        let p1 := p.put ra (p.reg ra + BitVec.ofNat 32 (256 * n))
        p1.put rb (p1.reg rb + BitVec.ofNat 32 (256 * n))

/-- Bytes of lines that have been read, each with whether its granule is poisoned. -/
def State.tsBytes (s : State) (lines : Store (List Host.Cell)) (k n : Nat) : List (Byte × Bool) :=
  (List.range n).map fun i => (memGet (lines.get [] ((k + i) / 256)) (k + i), s.poison.contains (granuleOf (k + i)))

/-- Bytes at the keys from k on. -/
def cellsAt (k : Nat) (l : List (Byte × Bool)) : List (Nat × Byte × Bool) := l.zipIdx.map fun b => (k + b.2, b.1.1, b.1.2)

/-- What an instruction writes, once all its lines are read, and what it sets in the program; or the poisoned granule that
it consumes: of an expansion one of the mask, of a compression any (R337, R338). -/
def State.tsOut (s : State) (o : TsOp) : Except Nat (List (Nat × Byte × Bool) × (TsProg → TsProg)) :=
  match o.work with
  | .move l => .ok (l.flatMap fun x => cellsAt (256 * x.2) (s.tsBytes o.lines (256 * x.1) 256), id)
  | .expand k1 k0 e b pad =>
    match s.poisonIn k1 (b / 8) with
    | some g => .error g
    | none => .ok (cellsAt k0 (expandBlock e b pad (s.tsBytes o.lines k1 pad)), id)
  | .compress rd k1 k0 e b pad =>
    match s.poisonIn k0 (b * e) with
    | some g => .error g
    | none =>
      let bytes := (s.tsBytes o.lines k0 (b * e)).map (·.1)
      let elem (k : Nat) : Nat := ((bytes.drop (e * k)).take e).foldr (fun x n => x.toNat + 256 * n) 0
      let (all, dropped) := compressBlock e b pad elem
      .ok (cellsAt k1 (all.map fun x => (x, false)), fun p => p.put rd (BitVec.ofNat 32 dropped))

/-- The source bytes of an instruction. -/
def TsOp.spans (o : TsOp) : List (Nat × Nat) :=
  match o.work with
  | .move l => l.map fun x => (256 * x.1, 256)
  | .expand k1 _ _ _ pad => [(k1, pad)]
  | .compress _ _ k0 e b _ => [(k0, b * e)]

/-- The lines of what is written, those of one cycle together: sixteen of layer 0, or four of layer 1. -/
def writeGroups (cells : List (Nat × Byte × Bool)) (span : Nat) : List (List (Nat × Byte × Bool)) :=
  let lines := (cells.map (·.1 / 256)).eraseDups
  let per := match lines with
    | l :: _ => (match lineHome l with
      | .l0 _ => 16
      | _ => 4)
    | [] => 1
  (groupsOf per span lines).map fun g => cells.filter fun c => g.contains (c.1 / 256)

/-- Every line of a group of reads is read: what it writes is due from its cycle on, and its count 2 cycles after the last
write (R263). -/
def State.tsRead (s : State) (x : TsPost) (o : TsOp) : State :=
  let s1 := (s.noteReads o.spans).modCol x.col fun k => { k with tsOps := k.tsOps.filter fun y => y.id != o.id }
  match s1.tsOut o with
  | .error g => s1.tsFault o.prog 0x0E01 (some (s1.keyAddr g))
  | .ok (cells, f) =>
    let s1 := s1.modCol x.col fun k =>
      { k with tsRun := k.tsRun.map fun p => if p.tid = x.tid ∧ ixCtx p.ctx = x.ctx then f p else p }
    let s2 := s1.each (writeGroups cells o.span).zipIdx fun s g =>
      s.schedule (o.due + g.2) rankAnswer (.ev (.tsDataPosting { x with part := .write g.1 }))
    match o.post with
    | some n =>
      s2.schedule (o.due + o.span + 1) (rankCount - 1) (.ev (.tsDataPosting { x with part := .post o.prog.bar n }))
    | none => s2

/-- Lines of a group of reads are read now. -/
def State.tsGot (s : State) (x : TsPost) (op : Nat) (l : List Nat) : State :=
  match (s.col x.col).tsOps.find? fun o => o.id == op with
  | none => s
  | some o =>
    let o1 := { o with left := o.left.filter fun n => !(l.contains n), lines := s.capture o.lines l }
    if o1.left.isEmpty then s.tsRead x o1
    else s.modCol x.col fun k => { k with tsOps := k.tsOps.map fun y => if y.id == op then o1 else y }

/-- Whether a repair holds a line (R343). -/
def State.lineHeld (s : State) (l : Nat) : Bool := decide (s.now < s.busyUntil (l * 256))

/-- A line in layer 0. -/
def isL0 (l : Nat) : Bool :=
  match lineHome l with
  | .l0 _ => true
  | _ => false

/-- Lines that a repair holds are asked for again in the next cycle, and every later event of the program moves with them
(R263). -/
def State.tsHold (s : State) (x : TsPost) : State := s.holdUnit (.tsDataPosting x)

/-- The part of a data instruction that is due. -/
def State.tsPart (s0 : State) (x : TsPost) : State :=
  let s := { s0 with focus := { s0.focus with col := x.col } }
  let again (s : State) (part : TsPart) : State :=
    (s.tsHold x).schedule (s.now + 1) rankAnswer (.ev (.tsDataPosting { x with part }))
  match x.part with
  | .read op lines =>
    let held := lines.filter s.lineHeld
    let here := lines.filter fun l => !(s.lineHeld l)
    let s1 := if held.isEmpty then s else again s (.read op held)
    let s2 := s1.each (here.filter isL0) fun s l => s.tsAsk x l false (.got op l)
    s2.tsGot x op (here.filter fun l => !(isL0 l))
  | .got op l => s.tsGot x op [l]
  | .write cells =>
    let held := cells.filter fun c => s.lineHeld (c.1 / 256)
    let here := cells.filter fun c => !(s.lineHeld (c.1 / 256))
    let s1 := if held.isEmpty then s else again s (.write held)
    let low := here.filter fun c => isL0 (c.1 / 256)
    let high := here.filter fun c => !(isL0 (c.1 / 256))
    let s2 := s1.each ((low.map (·.1 / 256)).eraseDups) fun s l =>
      s.tsAsk x l true (.put (low.filter fun c => c.1 / 256 == l))
    if high.isEmpty then s2
    else s2.schedule s2.now (rankMemory + x.core.val) (.ev (.tsDataPosting { x with part := .put high }))
  | .put cells => s.copyWrite cells
  | .check =>
    let due := (s.pendingActs.any fun a => match a with
      | .ev (.tsDataPosting y) => y.tid == x.tid && y.col == x.col && y.part != .check
      | _ => false) || (s.col x.col).tsOps.any fun o => o.prog.tid == x.tid
    match (s.col x.col).tsRun with
    | some p => if due ∧ s.tsCut p = true then (s.tsFocus p).tsCutOff p (keyTower x.col.val 1 0) else s
    | none => s
  | .post bar n =>
    s.postCount x.core 0 bar n (some { tid := x.tid, q := 10, ctx := x.ctx, push := none, mpc := x.pc })

/-- TS_DATA_POSTING (R263): a data instruction reads or writes lines, or posts the sectors it has written. -/
def execTsDataPosting (s : State) : Out :=
  match s.focus.event with
  | some (.tsDataPosting x) => .next (s.tsPart x)
  | _ => .fault (.nothingThere "TS_DATA_POSTING")

/-! ### Turns and ends (R260, R263) -/

/-- TS_PROGRAM_TURN (R260): the next program waiting is loaded, and its first word issues. -/
def execTsProgramTurn (s : State) : Out :=
  match s.focus.event with
  | some (.tsProgramTurn col) =>
    let k := s.col col
    if k.tsRun.isSome then .next s
    else match k.tsWait with
      | [] => .next s
      | p :: rest =>
        let s0 := { s with focus := { s.focus with col } }
        let p1 : TsProg :=
          if p.resumed then { p with begun := true } else { p with begun := true, c := Vector.replicate 4 0, geom := none }
        let s1 := s0.modCol col fun k => { k with tsRun := some p1, tsWait := rest }
        if p.loadLen = 0 then .next (s1.tsNext 2)
        else match locOf p.core p.image with
          | none => .next (s1.tsFault p1 0x0701 (some p.image))
          | some l =>
            let s2 := s1.noteRead l.key (4 * p.loadLen)
            match s2.poisonIn l.key (4 * p.loadLen) with
            | some g => .next (s2.tsFault p1 0x0E01 (some (p.image + BitVec.ofInt 64 ((g : Int) - (l.key : Int)))))
            | none =>
              let s3 := s2.modCol col fun k =>
                { k with
                  tsMem := (List.range p.loadLen).foldl (fun m i =>
                    m.put (p.entry + i) (BitVec.ofNat 32 (s2.read (l.key + 4 * i) 4))) k.tsMem }
              .next (s3.tsNext (22 + ceilDiv p.loadLen 256))
  | _ => .fault (.nothingThere "TS_PROGRAM_TURN")

/-- TS_PROGRAM_END (R263): the program ends, its `x.trun` is performed, and TS takes its next program in the following
cycle. -/
def execTsProgramEnd (s : State) : Out :=
  match s.focus.event with
  | some (.tsProgramEnd col) => .next (({ s with focus := { s.focus with col } } : State).tsLeave s.now)
  | _ => .fault (.nothingThere "TS_PROGRAM_END")

/-! ### The meanings -/

def execXTrun (p : Pred) (q : Fin 16) (st : State) : Out := engineWord st p (.xTrun p q) fun s => s.trun
def execXTok (p : Pred) (k : Fin 4) (st : State) : Out := engineWord st p (.xTok p k) fun s => s.tok k

/-- It waits until every write is performed and every count posted; the program ends in the cycle after (R263). -/
def execTsEnd (s : State) : Out :=
  tsWord s fun p s =>
    if s.now < p.postBusy then s.tsNext (p.postBusy - s.now)
    else s.schedule (s.now + 1) rankUnit (.ev (.tsProgramEnd s.focus.col))

def execTsSeti (d : Fin 8) (i : BitVec 19) (s : State) : Out := tsStep s fun p => p.put d (i.signExtend 32)
def execTsAddi (d a : Fin 8) (i : BitVec 19) (s : State) : Out :=
  tsStep s fun p => p.put d (p.reg a + i.signExtend 32)
def execTsAdd (d a b : Fin 8) (s : State) : Out := tsStep s fun p => p.put d (p.reg a + p.reg b)
def execTsSetc (c : Fin 4) (a : Fin 8) (s : State) : Out :=
  tsStep s fun p => { p with c := p.c.set c.val ((p.reg a).setWidth 16) }

def execTsLoop (c : Fin 4) (o : BitVec 19) (s : State) : Out :=
  tsWord s fun p s =>
    let v := p.c[c.val]
    if 1 < v.toNat then
      let p1 := { p with c := p.c.set c.val (v - 1) }
      let t := (p.pc : Int) + o.toInt
      if 0 ≤ t ∧ t ≤ 1023 then (s.modTs fun _ => { p1 with pc := t.toNat }).tsNext 1
      else s.tsFault p 0x0103 (some (s.tsWordAt p))
    else (s.modTs fun p => { p with c := p.c.set c.val 0, pc := p.pc + 1 }).tsNext 1

def execTsJmp (o : BitVec 19) (s : State) : Out := tsWord s fun p s => s.tsBranch p o

/-- The geometry (R261): an e, B or PAD outside its limits faults (R331). -/
def execTsSetb (e b : Fin 8) (x : Fin 524288) (s : State) : Out :=
  tsWord s fun p s =>
    let blk := 64 * 2 ^ b.val
    let pad := 32 * x.val
    if 2 < e.val ∨ 2 < b.val ∨ pad < max 32 (blk / 8) ∨ blk / 8 + blk * 2 ^ e.val < pad then
      s.tsFault p 0x0103 (some (s.tsWordAt p))
    else (s.modTs fun p => { p with geom := some (e.val, blk, pad), pc := p.pc + 1 }).tsNext 1

def execTsZexp (a b : Fin 8) (s : State) : Out := tsWord s fun p s => s.tsExpand p a b
def execTsZcmp (d a b : Fin 8) (s : State) : Out := tsWord s fun p s => s.tsCompress p d a b
def execTsMvlo (a b : Fin 8) (n : Fin 524288) (s : State) : Out := tsWord s fun p s => s.tsMove p false a b n.val
def execTsMvhi (a b : Fin 8) (n : Fin 524288) (s : State) : Out := tsWord s fun p s => s.tsMove p true a b n.val

/-- It waits until the bank's token count is positive, and takes one (R262). -/
def execTsWaitt (k : Fin 4) (s : State) : Out :=
  tsWord s fun p s =>
    let m := s.img p.core p.bank
    if m.tk[k.val] = 0 then s.tsNext 1
    else
      ((s.modImg p.core p.bank fun m => { m with tk := m.tk.set k.val (m.tk[k.val] - 1) }).modTs fun p =>
        { p with pc := p.pc + 1 }).tsNext 1

/-- A push into a queue register of the starting core, held while it is full (R262, R87). -/
def execTsPost (a : Fin 8) (q : Fin 16) (s : State) : Out :=
  tsWord s fun p s =>
    if 13 < q.val then s.tsFault p 0x0403 (some (s.tsWordAt p))
    else if (s.img p.core p.bank).full p.ctx q then s.tsNext 1
    else
      ((s.modImg p.core p.bank fun m => m.pushQ p.ctx q ((p.reg a).setWidth 64)).modTs fun p =>
        { p with pc := p.pc + 1 }).tsNext 1

/-- It waits until every write of earlier instructions has been performed (R262). -/
def execTsFence (s : State) : Out :=
  tsWord s fun p s =>
    if s.now < p.wrBusy then s.tsNext (p.wrBusy - s.now)
    else (s.modTs fun p => { p with pc := p.pc + 1 }).tsNext 1

def execTsBnz (a : Fin 8) (o : BitVec 19) (s : State) : Out :=
  tsWord s fun p s =>
    if p.reg a ≠ 0 then s.tsBranch p o else (s.modTs fun p => { p with pc := p.pc + 1 }).tsNext 1

end Sys2Proof.Machine
end

