-- ==== Sys2Proof/Machine/Loop.lean ====
section
/-! DEFINITION. The loop-control processors and the coverage units (R124 to R143, R270 to R272, R370): walks, iteration
records, claims, rewrites, and the LOOP words. -/

namespace Sys2Proof.Machine

open Sys2Proof

/-! ### Loop tables and schedules (R125, R127) -/

/-- n bytes of a block from byte i. -/
def bytesAt (v i n : Nat) : Nat := v / 2 ^ (8 * i) % 2 ^ (8 * n)

/-- A schedule's fields: TILE and DIM of each level, PLACE and SHIFT. -/
structure Sched where
  levels : List (Nat × Nat)
  blocked : Bool
  shift : Nat
  deriving DecidableEq, Repr

def schedOf (v : BitVec 256) : Sched :=
  { levels := (List.range 6).map fun l => (fld 13 0 (bytesAt v.toNat (2 * l) 2), fld 15 14 (bytesAt v.toNat (2 * l) 2))
    blocked := bitAt 96 v.toNat
    shift := fld 109 104 v.toNat }

def schedGen (v : BitVec 256) : BitVec 16 := BitVec.ofNat 16 (bytesAt v.toNat 14 2)

/-- A loop table's fields. -/
structure LoopTable where
  ncell : List Nat
  nlev : Nat
  permits : Nat
  iq : Nat
  kind : List Nat
  diepart : Nat
  covmap : Word
  sched : BitVec 256
  deriving DecidableEq, Repr

def tableOf (t : BitVec 512) : LoopTable :=
  let v := t.toNat
  { ncell := (List.range 3).map fun d => fld 13 0 (bytesAt v (2 * d) 2)
    nlev := fld 2 0 (bytesAt v 12 1)
    permits := fld 5 0 (bytesAt v 13 1)
    iq := fld 2 0 (bytesAt v 14 1)
    kind := (List.range (fld 2 0 (bytesAt v 12 1))).map fun l => fld 1 0 (bytesAt v (16 + l) 1)
    diepart := bytesAt v 22 2
    covmap := BitVec.ofNat 64 (bytesAt v 24 8)
    sched := BitVec.ofNat 256 (bytesAt v 32 32) }

def LoopTable.cells (t : LoopTable) (d : Nat) : Nat := t.ncell.getD d 1

/-! ### The walk (R128) -/

def Box.low (b : Box) (d : Nat) : Nat := b.lo.getD d 0
def Box.count (b : Box) (d : Nat) : Nat := b.cnt.getD d 1

/-- The whole space. -/
def LoopTable.space (t : LoopTable) : Box := { lo := [0, 0, 0], cnt := t.ncell }

/-- The boxes that levels cut from a box, in nest order, each with the origins of the boxes around it (Boxes of R128). -/
def boxes : List (Nat × Nat) → Box × List Nat → List (Box × List Nat)
  | [], x => [x]
  | (t, d) :: rest, (b, pos) =>
    if t = 0 then boxes rest (b, pos ++ [b.low d])
    else
      (List.range (ceilDiv (b.count d) t)).flatMap fun j =>
        let b' : Box := { lo := b.lo.set d (b.low d + j * t), cnt := b.cnt.set d (min t (b.count d - j * t)) }
        boxes rest (b', pos ++ [b.low d + j * t])

/-- Run of R128 from a box, with `fuel` at least the levels left: the walk's tiles, by outer tile. -/
def runWalk (diepart : Nat) (mine : Nat → Nat → Bool) :
    Nat → Bool → List Nat → List (Nat × Nat) → Box × List Nat → List (List (Box × List Nat))
  | 0, _, _, _, x => [[x]]
  | _ + 1, _, [], _, x => [[x]]
  | fuel + 1, inOuter, k :: ks, lv, x =>
    let n := ((k :: ks).takeWhile (· == k)).length
    if k = 2 then
      match (boxes (lv.take n) x)[diepart]? with
      | some b => runWalk diepart mine fuel inOuter ((k :: ks).drop n) (lv.drop n) b
      | none => []
    else if k = 1 then
      let l := boxes (lv.take n) x
      ((l.zipIdx.filter fun e => mine e.2 l.length).map (·.1)).flatMap fun b =>
        runWalk diepart mine fuel inOuter ((k :: ks).drop n) (lv.drop n) b
    else
      let l := boxes (lv.take 1) x
      if inOuter || ((lv.head?.map (·.1)).getD 0) == 0 then
        l.flatMap fun b => runWalk diepart mine fuel inOuter ks (lv.drop 1) b
      else l.map fun b => (runWalk diepart mine fuel true ks (lv.drop 1) b).flatten

/-- Whether box j of N of a CORES block is the member's (Mine of R128). -/
def mineBox (x : Sched) (member g j n : Nat) : Bool :=
  let h := (member + x.shift) % g
  if x.blocked then decide (h * n / g ≤ j ∧ j < (h + 1) * n / g) else j % g == h

/-- The walk of a member of a kernel of g members. -/
def walkOf (t : LoopTable) (v : BitVec 256) (member g : Nat) : List Tile :=
  let x := schedOf v
  let outers := (runWalk t.diepart (mineBox x member (max g 1)) 7 false t.kind (x.levels.take t.nlev)
    (t.space, [])).filter fun l => !l.isEmpty
  outers.zipIdx.flatMap fun o => o.1.map fun b => { box := b.1, outer := o.2, pos := b.2 }

/-! ### What a schedule and a table must satisfy (R125, R126, R129, R370) -/

/-- The rules of R370 that need no loop table. -/
def schedFree (v : BitVec 256) : Bool :=
  (schedOf v).levels.all (fun l => l.2 != 3) && fld 103 97 v.toNat == 0 && fld 111 110 v.toNat == 0 &&
    bytesAt v.toNat 16 16 == 0

/-- The TILE of the innermost level that cuts a dimension, or the whole dimension. -/
def LoopTable.inner (t : LoopTable) (x : Sched) (d : Nat) : Nat :=
  (x.levels.take t.nlev).foldl (fun r l => if l.1 ≠ 0 ∧ l.2 = d then l.1 else r) (t.cells d)

/-- R129, against the DIES levels of the schedule `start`. -/
def schedFits (t : LoopTable) (v start : BitVec 256) : Bool :=
  let x := schedOf v
  let r := (List.range 3).map fun d => min (t.inner x d) (t.cells d)
  let dies := (t.kind.takeWhile (· == 2)).length
  r.all (fun n => decide (n ≤ 127)) && decide (r.foldl (· * ·) 1 ≤ 1024) &&
    (dies == 0 || decide (t.diepart < (boxes (x.levels.take dies) (t.space, [])).length)) &&
    x.levels.take dies == (schedOf start).levels.take dies

/-- Whether the CORES levels are consecutive, and the DIES levels first (R126). -/
def kindsOk (l : List Nat) : Bool :=
  let rest := l.dropWhile (· == 2)
  let tail := (rest.dropWhile (· == 0)).dropWhile (· == 1)
  !(rest.contains 2) && !(tail.contains 1)

/-- R125 and R126 of a loop table, for a task of a launch block on a core. -/
def tableOk (core : CoreIx) (b : List Word) (v : BitVec 512) : Bool :=
  let n := v.toNat
  let t := tableOf v
  let hasSched : Bool := blkSched b != 0
  (List.range 3).all (fun d => fld 15 14 (bytesAt n (2 * d) 2) == 0 && decide (1 ≤ t.cells d) &&
      decide (1 ≤ bytesAt n (6 + 2 * d) 2)) &&
    fld 7 3 (bytesAt n 12 1) == 0 && decide (1 ≤ t.nlev ∧ t.nlev ≤ 6) &&
    fld 7 6 (bytesAt n 13 1) == 0 && decide (1 ≤ t.permits ∧ t.permits ≤ 32) &&
    fld 7 3 (bytesAt n 14 1) == 0 && t.iq != 0 && bytesAt n 15 1 == 0 &&
    (List.range 6).all (fun l =>
      let k := bytesAt n (16 + l) 1
      if l < t.nlev then decide (k ≤ 2) else k == 0) &&
    kindsOk t.kind &&
    (if hasSched then
      t.sched == 0 && (blkGang b || blkGroups b == 1) &&
        (fld 59 56 t.covmap.toNat == 2 && t.covmap.toNat % 256 == 0 &&
          match locOf core t.covmap, locOf core (blkSched b) with
          | some c, some h => c.layer == 1 && c.colIx == h.colIx
          | _, _ => false)
    else t.covmap == 0 && schedFree t.sched && schedFits t t.sched t.sched)

/-! ### Iteration records and remnants (R130, R134) -/

/-- The record of a box. -/
def recordOf (b : Box) : Word :=
  BitVec.ofNat 64 (b.low 0 + b.low 1 * 2 ^ 14 + b.low 2 * 2 ^ 28 + b.count 0 * 2 ^ 42 + b.count 1 * 2 ^ 49 +
    b.count 2 * 2 ^ 56)

/-- The end record. -/
def endRecord : Word := BitVec.ofNat 64 (2 ^ 63)

/-- The dimensions from minor to major (R134). -/
def dimOrder (t : LoopTable) (x : Sched) : List Nat :=
  let lv := (x.levels.take t.nlev).reverse
  let cut := ((lv.filter fun l => l.1 ≠ 0 ∧ l.2 < 3).map (·.2)).eraseDups
  cut ++ (List.range 3).filter fun d => !(cut.contains d)

/-- Cell i of a tile: its place in each dimension. -/
def cellAt (b : Box) (i : Nat) : List Nat :=
  [i % b.count 0, i / b.count 0 % b.count 1, i / (b.count 0 * b.count 1)]

/-- The index in a tile of a cell. -/
def cellIx (b : Box) (c : List Nat) : Nat := c.getD 0 0 + b.count 0 * (c.getD 1 0 + b.count 1 * c.getD 2 0)

/-- The cells of a box, each as its places, dimension 0 fastest. -/
def boxCells (b : Box) : List (List Nat) :=
  (List.range (b.count 0 * b.count 1 * b.count 2)).map fun i =>
    [b.low 0 + i % b.count 0, b.low 1 + i / b.count 0 % b.count 1, b.low 2 + i / (b.count 0 * b.count 1)]

/-- The rank of a cell in tile order. -/
def cellRank (b : Box) (order : List Nat) (c : List Nat) : Nat :=
  order.foldr (fun d r => r * b.count d + c.getD d 0) 0

/-- A box of places in a tile lies inside it, with every cell in the list. -/
def boxIn (b : Box) (have' : List Nat) (x : Box) : Bool :=
  (List.range 3).all (fun d => decide (x.low d + x.count d ≤ b.count d)) &&
    (boxCells x).all fun c => have'.contains (cellIx b c)

/-- A box widened in a dimension as far as the list allows. -/
def widen (b : Box) (have' : List Nat) (d : Nat) : Nat → Box → Box
  | 0, x => x
  | n + 1, x =>
    let y : Box := { x with cnt := x.cnt.set d (x.count d + 1) }
    if boxIn b have' y then widen b have' d n y else x

/-- The first remnant of the cells left of a tile, in places of the tile; and the cells left after it. -/
def firstRemnant (t : LoopTable) (v : BitVec 256) (b : Box) (have' : List Nat) : Box × List Nat :=
  let order := dimOrder t (schedOf v)
  let rank (i : Nat) : Nat := cellRank b order (cellAt b i)
  let c := have'.foldl (fun m i => if rank i < rank m then i else m) (have'.headD 0)
  let x := order.foldl (fun x d => widen b have' d 127 x) ({ lo := cellAt b c, cnt := [1, 1, 1] } : Box)
  (x, have'.filter fun i => !((boxCells x).any fun y => cellIx b y == i))

/-! ### Messages -/

/-- Cycles between a core and a coverage unit (R135). -/
def covDist (core : CoreIx) (col : ColIx) : Nat :=
  if coreCol core = col then 4 else if coreDie core = colDie col then 8 else 28

/-- The port through which a core's rewrite reaches a coverage unit: of its own column, of another column of its die, or of
another die; those of Sprinwell follow. DESIGN CHOICE of their order, log entry 122. -/
def covPort (core : CoreIx) (col : ColIx) : Nat :=
  if coreCol core = col then 0 else if coreDie core = colDie col then 1 + (coreCol core).val % 8 else 9 + (coreDie core).val

/-- The cycles that an answer or a notice of a coverage unit takes to a task's LP (R135): 8 to one whose task is in no bank, for
which the spec gives none. DESIGN CHOICE, log entry 120. -/
def State.covWay (s : State) (col : ColIx) (tid : Nat) : Nat :=
  match s.bankOf tid with
  | some (c, _) => covDist c col
  | none => 8

/-- A request that the LP of a bank makes for its task, at its sending: the slice it concerns is accessed (R344), or is
absent in the task's view. -/
def State.lpRequest (s : State) (core : CoreIx) (bank : BankIx) (a : Word) (n rank : Nat) (e : Event) : State :=
  let m := s.img core bank
  match locOf core a with
  | none => s
  | some l =>
    match s.capFault l 1 m.startedAt with
    | some c => s.taskFault m.tid c (some a)
    | none => ((s.focusOn .unit core bank 0 11).touch l).schedule (s.now + n) rank (.ev e)

/-- The key of a task's schedule block, with its home column. -/
def Image.home (m : Image) (core : CoreIx) : Option (Word × ColIx) :=
  if blkSched m.blk = 0 then none
  else (locOf core (blkSched m.blk)).map fun l => (BitVec.ofNat 64 l.key, l.colIx)

/-- The index of a task among the members of its kernel, and their number (R126). -/
def Image.member (m : Image) : Nat := (m.task.map (·.group)).getD 0
def Image.members (m : Image) : Nat := blkGroups m.blk

def State.modLp (s : State) (core : CoreIx) (bank : BankIx) (f : Lp → Lp) : State :=
  s.modImg core bank fun m => { m with lp := f m.lp }

/-- The LP of a bank sends a report. -/
def State.sendReport (s : State) (core : CoreIx) (bank : BankIx) (exhausted : Bool) : State :=
  let m := s.img core bank
  match m.home core with
  | none => s
  | some (key, col) =>
    s.schedule (s.now + covDist core col) (rankUnit + 200) (.cov col (.report key m.tid exhausted))

/-! ### Dealing (R131, R133, R138, R141) -/

def Lp.noticed (l : Lp) (n : Nat) : Bool := l.notice.getLsbD n
def Lp.note (l : Lp) (n : Nat) (b : Bool) : Lp :=
  { l with notice := if b then l.notice ||| BitVec.ofNat 8 (2 ^ n) else l.notice &&& ~~~(BitVec.ofNat 8 (2 ^ n)) }

/-- Every IQ that IQMASK names has a free entry. -/
def Image.iqRoom (m : Image) : Bool :=
  (List.finRange 3).all fun c => !(bitAt c.val (tableOf m.lp.table).iq) || !(m.full c 15)

/-- A record is pushed to every IQ that IQMASK names. -/
def Image.pushRecord (m : Image) (r : Word) : Image :=
  (List.finRange 3).foldl (fun (m : Image) c =>
    if bitAt c.val (tableOf m.lp.table).iq then m.pushQ c 15 r else m) m

/-- The LP stands at its boundary point: a rewrite is pending, and it is between two outer tiles or before its first
claim (R138). -/
def Lp.atBoundary (l : Lp) : Bool :=
  l.st == 1 && l.noticed 0 && l.remain.isEmpty && !l.inFlight && !l.refused &&
    match l.walk with
    | [] => false
    | x :: _ => !(l.noticed 3) || x.outer != l.outer

/-- The LP stops at its boundary point and reports it. -/
def State.lpBoundary (s : State) (core : CoreIx) (bank : BankIx) : State :=
  if (s.img core bank).lp.atBoundary then
    (s.modLp core bank fun l => { l with st := 2 }).sendReport core bank false
  else s

/-- A record is dealt: pushed, and a permit spent. -/
def Image.dealRecord (m : Image) (r : Word) : Image :=
  let m' := m.pushRecord r
  { m' with lp := { m'.lp with permits := m'.lp.permits - 1, last := r } }

/-- The LP of a running bank moves on: a remnant, a tile or its claim, its boundary point, or the end of its walk. -/
def State.lpMove (s : State) (core : CoreIx) (bank : BankIx) : State :=
  let m := s.img core bank
  let l := m.lp
  let t := tableOf l.table
  if l.st ≠ 1 ∨ l.inFlight = true ∨ l.refused = true then s
  else if !l.remain.isEmpty then
    match l.tile with
    | none => s
    | some b =>
      if 0 < l.permits ∧ m.iqRoom = true then
        let (x, left) := firstRemnant t l.sched b l.remain
        let r := recordOf { x with lo := (List.range 3).map fun d => b.low d + x.low d }
        s.modImg core bank fun m =>
          let m' := m.dealRecord r
          { m' with lp := { m'.lp with remain := left } }
      else s
  else if l.atBoundary then s.lpBoundary core bank
  else match l.walk with
    | [] => (s.modLp core bank fun l => { l with st := 3 }).sendReport core bank true
    | x :: rest =>
      if l.permits = 0 then s
      else
        let l1 : Lp := { (l.note 3 true) with pos := x.pos, outer := x.outer, tile := some x.box }
        match m.home core with
        | some (key, col) =>
          (s.modLp core bank fun _ => { l1 with inFlight := true }).lpRequest core bank t.covmap (covDist core col)
            (rankUnit + core.val % 64) (.coverageClaim key m.tid x.box)
        | none =>
          if m.iqRoom then
            s.modImg core bank fun m => { m with lp := { l1 with walk := rest } }.dealRecord (recordOf x.box)
          else s

/-- The LP may push the end record: its dealing is complete (R141). -/
def Image.lpEnds (m : Image) : Bool :=
  m.lp.st == 3 && m.iqRoom && (blkSched m.blk == 0 || m.lp.noticed 2)

/-- What the LP of a running bank does in a cycle. -/
def Image.lpEvent (m : Image) (core : CoreIx) (bank : BankIx) : Option Event :=
  if m.lpEnds then some (.endRecordPush core bank)
  else if m.lp.st = 1 ∧ m.lp.inFlight = false ∧ m.lp.refused = false then some (.lpDealRecord core bank)
  else none

/-- LP_DEAL_RECORD (R131). -/
def execLpDealRecord (s : State) : Out :=
  match s.focus.event with
  | some (.lpDealRecord core bank) => .next (s.lpMove core bank)
  | _ => .fault (.nothingThere "LP_DEAL_RECORD")

/-- END_RECORD_PUSH (R141). -/
def execEndRecordPush (s : State) : Out :=
  match s.focus.event with
  | some (.endRecordPush core bank) =>
    .next (if (s.img core bank).lpEnds then
      s.modImg core bank fun m =>
        let m' := m.pushRecord endRecord
        { m' with lp := { m'.lp with st := 4 } }
    else s)
  | _ => .fault (.nothingThere "END_RECORD_PUSH")

/-! ### The coverage unit (R135 to R141) -/

/-- The entry a unit holds for a kernel. -/
def Column.covAt (k : Column) (sched : Word) : Option CovEntry := k.cov.find? fun e => e.sched == sched.toNat

def State.modCov (s : State) (col : ColIx) (sched : Word) (f : CovEntry → CovEntry) : State :=
  s.modCol col fun k => { k with cov := k.cov.map fun e => if e.sched = sched.toNat then f e else e }

def CovEntry.modMember (e : CovEntry) (tid : Nat) (f : Member → Member) : CovEntry :=
  { e with members := e.members.map fun x => if x.tid = tid then f x else x }

/-- The column of a schedule block's key. -/
def schedCol (sched : Word) : ColIx :=
  match spaceOf sched.toNat with
  | .tower col _ _ => Fin.ofNat 32 col
  | _ => 0

/-- Whom a unit's answer goes to: a task of this package, or a word of another. -/
def covTo (a : Asker) : Option Nat := if a.via.isNone then some a.tid else none

/-- What a unit sends n cycles from now, each its way later (R135). -/
def State.covSend (s : State) (col : ColIx) (n : Nat) (l : List (Option Nat × Nat × Event)) : State :=
  s.each l fun s x =>
    s.schedule (s.now + n + (match x.1 with
      | some tid => s.covWay col tid
      | none => 0)) x.2.1 (.ev x.2.2)

/-- Every line of a unit's operation is accepted. -/
def State.covServed (s : State) (col : ColIx) (j : CovJob) : State :=
  (s.covSend col j.tail j.outs).schedule (s.now + j.tail) rankRead (.cov col .finished)

/-- The first of a unit's operations begins: its lines ask for the layer 1 port (R61). -/
def State.covBegin (s : State) (col : ColIx) : State :=
  match (s.col col).covJobs with
  | [] => s
  | j :: _ =>
    if j.lines.isEmpty then s.covServed col j
    else s.each j.lines fun s l =>
      s.askLine rankUnit { line := l, wr := false, cls := 0, since := s.now, ord := ordCov col, who := .cov col (.served l) }

/-- The port accepts a line of the operation under way. -/
def State.covLine (s : State) (col : ColIx) (l : Nat) : State :=
  match (s.col col).covJobs with
  | [] => s
  | j :: rest =>
    let left := j.lines.erase l
    let s1 := s.modCol col fun k => { k with covJobs := { j with lines := left } :: rest }
    if left.isEmpty then s1.covServed col j else s1

/-- The operation under way ends, and the next begins. -/
def State.covOver (s : State) (col : ColIx) : State :=
  (s.modCol col fun k => { k with covJobs := k.covJobs.drop 1 }).covBegin col

/-- An operation takes its place at a unit, which performs one at a time: it occupies it for n cycles, which begin with those
that the port takes for its lines, 16 in each, and for as long again as the port does not accept them (R135). -/
def State.covOp (s : State) (col : ColIx) (n : Nat) (lines : List Nat) (outs : List (Option Nat × Nat × Event)) : State :=
  let idle := (s.col col).covJobs.isEmpty
  let s1 := s.modCol col fun k =>
    { k with covJobs := k.covJobs ++ [{ lines, tail := n - (ceilDiv lines.length 16 - 1), outs }] }
  if idle then s1.covBegin col else s1

/-- The lines of n bytes from a key. -/
def keyLines (k n : Nat) : List Nat := if k / 256 = (k + n - 1) / 256 then [k / 256] else [k / 256, (k + n - 1) / 256]

/-- ACTIVE or PENDING of a schedule block. -/
def State.readSched (s : State) (sched : Word) (pending : Bool) : BitVec 256 :=
  BitVec.ofNat 256 (s.read (sched.toNat + if pending then 32 else 0) 32)

/-- A schedule as four double words, and back. -/
def schedWords (v : BitVec 256) : List Word := (List.range 4).map fun i => BitVec.ofNat 64 (v.toNat / 2 ^ (64 * i))
def wordsSched (l : List Word) : BitVec 256 :=
  BitVec.ofNat 256 (l.foldr (fun w n => w.toNat % 2 ^ 64 + 2 ^ 64 * n) 0)

/-- ACTIVE := PENDING, GEN one higher, and VALID cleared (R139). -/
def State.commitSched (s : State) (sched : Word) : State :=
  let p := (s.readSched sched true).toNat % 2 ^ 112
  let g := schedGen (s.readSched sched false) + 1
  let s1 := s.write sched.toNat 32 (p + g.toNat * 2 ^ 112)
  s1.write (sched.toNat + 46) 2 0

/-- The rewrite-safe boundary (R139), or the end of dealing (R141), is reached in this cycle. -/
def State.covCheck (s : State) (col : ColIx) (sched : Word) : State :=
  match (s.col col).covAt sched with
  | none => s
  | some e =>
    if e.pending then
      if e.members.all fun x => x.boundary || x.exhausted then
        s.schedule s.now (rankUnit + 250) (.ev (.rewriteCommit sched))
      else s
    else if e.members.length = e.groups ∧ (e.members.all fun x => x.exhausted && !x.claimOut) = true then
      s.schedule s.now (rankUnit + 251) (.ev (.dealingComplete sched))
    else s

/-- A launch's own number at its die: 4 × sequence number + die. -/
def State.launchKey (s : State) (t : Task) : Nat :=
  match (s.die t.die).records.find t.slot with
  | some r => 4 * r.seq + t.die.val
  | none => 0

/-- The first poisoned granule of n bytes that a unit reads, after the errors the read finds (R337). -/
def State.unitRead (s : State) (k n : Nat) : Option Nat × State :=
  let s1 := s.noteRead k n
  (s1.poisonIn k n, s1)

/-- A member registers at its unit (R136). -/
def State.covRegister (s : State) (sched : Word) (tid : Nat) : State :=
  let col := schedCol sched
  match s.taskImg tid with
  | none => s
  | some m =>
    let block := keyLines sched.toNat 64
    let refuse (s : State) : State := s.covOp col 21 block [(some tid, rankRead, .registrationAnswer tid false [])]
    let join (s : State) (n : Nat) : State :=
      let e := (s.col col).covAt sched
      let mem : Member := ⟨tid, m.member, false, false, false⟩
      let s1 := s.modCov col sched fun e =>
        { e with members := (e.members.filter fun x => x.index != mem.index) ++ [mem] }
      s1.covOp col n block ((some tid, rankRead, .registrationAnswer tid true (schedWords (s1.readSched sched false))) ::
        (if (e.map (·.pending)).getD false then [(some tid, rankRead, .pendingNotice tid)] else []))
    if (m.task.map fun t => (s.col col).covRefused.contains (s.launchKey t)).getD false then
      refuse (s.taskFault tid 0x0B01 none)
    else match (s.col col).covAt sched with
      | some _ => join s 21
      | none =>
        if 16 ≤ (s.col col).cov.length then s.after 1 (rankUnit + 64) (.coverageRegistration sched tid)
        else
          let (bad, s0) := s.unitRead sched.toNat 64
          match bad with
          | some g => s0.taskFault tid 0x0E01 (some (s0.keyAddr g))
          | none =>
            let t := tableOf m.lp.table
            let active := s0.readSched sched false
            if !(schedFree active) || !(schedFits t active active) then
              refuse ((s0.modCol col fun k =>
                { k with covRefused := k.covRefused ++ (m.task.map s.launchKey).toList }).taskFault tid 0x0B01 none)
            else
              let s1 := s0.modCol col fun k =>
                { k with
                  cov := k.cov ++ [{ sched := sched.toNat, groups := m.members, table := m.lp.table, members := [],
                                     pending := false }] }
              let pend := s1.readSched sched true
              if bitAt 112 pend.toNat then
                let body := BitVec.ofNat 256 (pend.toNat % 2 ^ 112)
                if schedFree body && schedFits t body active then join (s1.commitSched sched) 42
                else
                  -- discarded: VALID is cleared, and the case goes to the system route
                  let (a, s2) := (s1.write (sched.toNat + 46) 2 0).faultAddr none
                  join (s2.report (colDie col) 0x0B01 a) 21
              else join s1 21

/-- COVERAGE_REGISTRATION (R136). -/
def execCoverageRegistration (s : State) : Out :=
  match s.focus.event with
  | some (.coverageRegistration sched tid) => .next (s.covRegister sched tid)
  | _ => .fault (.nothingThere "COVERAGE_REGISTRATION")

/-- A member's walk begins under a schedule (R128, R139). The position that `lp.pos` reads stays that of the old walk until the
new one is in a box. DESIGN CHOICE, log entry 118. -/
def Image.beginWalk (m : Image) (v : BitVec 256) : Image :=
  let t := tableOf m.lp.table
  { m with
    lp :=
      { m.lp.note 3 false with
        st := 1, gen := schedGen v, sched := v, remain := [], tile := none, outer := 0,
        walk := walkOf t v m.member m.members } }

/-- REGISTRATION_ANSWER (R136). -/
def execRegistrationAnswer (s : State) : Out :=
  match s.focus.event with
  | some (.registrationAnswer tid ok active) =>
    .next (s.modTask tid fun m =>
      let m1 := { m with lp := { m.lp with inFlight := false, refused := !ok } }
      if ok then m1.beginWalk (wordsSched active) else m1)
  | _ => .fault (.nothingThere "REGISTRATION_ANSWER")

/-- The bytes and bits of a coverage map that the cells of a box stand in (R132); cells outside the space have none. -/
def mapBits (t : LoopTable) (map : Nat) (b : Box) : List (Nat × Nat) :=
  ((boxCells b).filter fun c => (List.range 3).all fun d => decide (c.getD d 0 < t.cells d)).map fun c =>
    let i := c.getD 0 0 + t.cells 0 * (c.getD 1 0 + t.cells 1 * c.getD 2 0)
    (map + i / 8, i % 8)

/-- Map lines of 256 bytes that a list of map bits touches. -/
def mapLines (l : List (Nat × Nat)) : List Nat := (l.map fun x => x.1 / 256).eraseDups

/-- Cycles for which an operation on map lines occupies its unit (R135). -/
def mapCycles (l : List Nat) : Nat := 22 + ceilDiv l.length 16

/-- The key of the coverage map of a loop table, read from a core of its die. -/
def mapKey (core : CoreIx) (t : LoopTable) : Option Nat := (locOf core t.covmap).map Loc.key

/-- A claim (R133): its cells' bits are set, and the answer names the cells whose bits were 0. -/
def State.claim (s : State) (sched : Word) (tid : Nat) (b : Box) : State :=
  let col := schedCol sched
  match (s.col col).covAt sched with
  | none => s
  | some e =>
    let t := tableOf e.table
    match mapKey (colCore col 0) t with
    | none => s
    | some map =>
      let bits := mapBits t map b
      let (bad, s0) := bits.foldl (fun (a : Option Nat × State) x =>
        let (g, s') := a.2.unitRead x.1 1
        ((a.1.orElse fun _ => g), s')) (none, s)
      match bad with
      | some g =>
        (s0.modTask tid fun m => { m with lp := { m.lp with inFlight := false } }).taskFault tid 0x0E01
          (some (s0.keyAddr g))
      | none =>
        let free := (bits.zipIdx.filter fun x => !(bitAt x.1.2 (memGet s0.mem x.1.1).toNat)).map (·.2)
        let s1 := s0.each bits fun s x =>
          s.write x.1 1 ((memGet s.mem x.1).toNat ||| 2 ^ x.2)
        let l := mapLines bits
        (s1.modCov col sched fun e => e.modMember tid fun x => { x with claimOut := true }).covOp col (mapCycles l) l
          [(some tid, rankRead, .claimAnswer tid b free)]

/-- COVERAGE_CLAIM (R133). -/
def execCoverageClaim (s : State) : Out :=
  match s.focus.event with
  | some (.coverageClaim sched tid b) => .next (s.claim sched tid b)
  | _ => .fault (.nothingThere "COVERAGE_CLAIM")

/-- Every unit's mark that a member's claim is not answered is cleared. -/
def State.claimAnswered (s : State) (tid : Nat) : State :=
  { s with
    cols := s.cols.map fun (x : Nat × Column) =>
      (x.1, { x.2 with cov := x.2.cov.map fun e => e.modMember tid fun y => { y with claimOut := false } }) }

/-- CLAIM_ANSWER (R133): the answer is placed in REMAIN; an empty one skips the tile. -/
def execClaimAnswer (s : State) : Out :=
  match s.focus.event with
  | some (.claimAnswer tid b cells) =>
    .next ((s.claimAnswered tid).modTask tid fun m =>
      { m with
        lp := { m.lp with inFlight := false, tile := some b, remain := cells, walk := m.lp.walk.drop 1 } })
  | _ => .fault (.nothingThere "CLAIM_ANSWER")

/-- What every member of an entry is sent. -/
def CovEntry.toAll (e : CovEntry) (f : Nat → Event) : List (Option Nat × Nat × Event) :=
  e.members.map fun x => (some x.tid, rankRead, f x.tid)

/-- A rewrite reaches its unit (R137, R370). -/
def State.rewrite (s : State) (sched : Word) (body : List Word) (a : Asker) : State :=
  let col := schedCol sched
  let v := wordsSched body
  let e := (s.col col).covAt sched
  let active := s.readSched sched false
  let good := schedFree v && match e with
    | some e => schedFits (tableOf e.table) v active
    | none => true
  let lines := keyLines (sched.toNat + 32) 32
  let answer (bad : Option (BitVec 16)) : Option Nat × Nat × Event := (covTo a, rankAnswer, .syncAnswer a [] bad)
  if !good then s.covOp col 21 lines [answer (some 0x0B01)]
  else
    let s1 := s.write (sched.toNat + 32) 32 (v.toNat % 2 ^ 112 + 2 ^ 112)
    match e with
    | none => s1.covOp col 21 lines [answer none]
    | some e =>
      ((s1.modCov col sched fun e => { e with pending := true }).covOp col 21 lines
        (e.toAll .pendingNotice ++ [answer none])).covCheck col sched

/-- REWRITE_WRITE (R137). -/
def execRewriteWrite (s : State) : Out :=
  match s.focus.event with
  | some (.rewriteWrite sched body a) => .next (s.rewrite sched body a)
  | _ => .fault (.nothingThere "REWRITE_WRITE")

/-- PENDING_NOTICE (R138): an LP at its boundary point reports at once. -/
def execPendingNotice (s : State) : Out :=
  match s.focus.event with
  | some (.pendingNotice tid) =>
    let s1 := s.modTask tid fun m => { m with lp := (m.lp.note 0 true).note 1 false }
    .next (match s1.bankOf tid with
      | some (core, bank) => if (s1.bank core bank).status = .running then s1.lpBoundary core bank else s1
      | none => s1)
  | _ => .fault (.nothingThere "PENDING_NOTICE")

/-- REWRITE_COMMIT (R139). -/
def execRewriteCommit (s : State) : Out :=
  match s.focus.event with
  | some (.rewriteCommit sched) =>
    let col := schedCol sched
    .next (match (s.col col).covAt sched with
      | none => s
      | some e =>
        if e.pending then
          let s2 := (s.commitSched sched).modCov col sched fun e =>
            { e with pending := false, members := e.members.map fun x => { x with boundary := false, exhausted := false } }
          s2.covOp col 21 (keyLines sched.toNat 64)
            (e.toAll fun tid => .commitNotice tid (schedWords (s2.readSched sched false)))
        else s)
  | _ => .fault (.nothingThere "REWRITE_COMMIT")

/-- COMMIT_NOTICE (R139): REMAIN is empty and the walk begins again. -/
def execCommitNotice (s : State) : Out :=
  match s.focus.event with
  | some (.commitNotice tid active) =>
    .next (s.modTask tid fun m =>
      ({ m with lp := (m.lp.note 0 false).note 1 true } : Image).beginWalk (wordsSched active))
  | _ => .fault (.nothingThere "COMMIT_NOTICE")

/-- DEALING_COMPLETE (R141). -/
def execDealingComplete (s : State) : Out :=
  match s.focus.event with
  | some (.dealingComplete sched) =>
    let col := schedCol sched
    .next (match (s.col col).covAt sched with
      | none => s
      | some e =>
        if e.pending then s
        else
          (s.covSend col 0 (e.toAll .completionNotice)).modCol col fun k =>
            { k with cov := k.cov.filter fun x => x.sched != e.sched })
  | _ => .fault (.nothingThere "DEALING_COMPLETE")

/-- COMPLETION_NOTICE (R141). -/
def execCompletionNotice (s : State) : Out :=
  match s.focus.event with
  | some (.completionNotice tid) => .next (s.modTask tid fun m => { m with lp := m.lp.note 2 true })
  | _ => .fault (.nothingThere "COMPLETION_NOTICE")

/-- A report, or a read of a LOOP word, reaches a coverage unit (R135, R138, R141, R270). -/
def State.covMsg (s : State) (col : ColIx) (x : CovMsg) : State :=
  let answer (a : Asker) (vals : List Word) : List (Option Nat × Nat × Event) :=
    [(covTo a, rankAnswer, .syncAnswer a vals none)]
  match x with
  | .report sched tid ex =>
    (s.modCov col sched fun e =>
      e.modMember tid fun y => if ex then { y with exhausted := true } else { y with boundary := true }).covCheck col sched
  | .readSched sched pending a =>
    let k := sched.toNat + if pending then 32 else 0
    let s1 := s.noteRead k 16
    s1.covOp col 21 (keyLines k 16) (answer a ((schedWords (s1.readSched sched pending)).take 2))
  | .countBox bits a =>
    let l := mapLines bits
    let s1 := s.each bits fun s b => s.noteRead b.1 1
    s1.covOp col (mapCycles l) l
      (answer a [BitVec.ofNat 64 ((bits.filter fun b => bitAt b.2 (memGet s1.mem b.1).toNat).length)])
  | .readMap key a =>
    let s1 := s.noteRead key 8
    s1.covOp col 21 (keyLines key 8) (answer a [BitVec.ofNat 64 (s1.read key 8)])
  | .served l => s.covLine col l
  | .finished => s.covOver col

/-! ### Loading the loop table (R271) -/

/-- The word of the LOOP or SYNC queue in focus has started, and its engine may start another in the next cycle (R268). -/
def State.started (s : State) : State := s.freeEngine 1

/-- The word in focus has sent its request and awaits an answer (R91, R268). -/
def State.await (s : State) : State := (s.setProg { s.prog with mpc := 1, waiting := true }).started

/-- The word in focus is performed at its start, its answer pushed if it has one (R268). -/
def State.answerNow (s : State) (push : Option (Fin 16)) (vals : List Word) : State :=
  s.started.modCur fun m => m.ready s.focus.q s.focus.ctx push vals

/-- The word in focus faults at its start, and its engine may serve another queue in the next cycle. -/
def State.startFault (s : State) (code : BitVec 16) (addr : Option Word) : State := s.started.engineFault code addr

/-- The word in focus as the one that asks. -/
def State.asker (s : State) (push : Option (Fin 16)) : Asker :=
  { tid := s.cur.tid, q := s.focus.q, ctx := ixCtx s.focus.ctx, push, mpc := 1 }

/-- `lp.ldtab` reads the table (R271); the LP holds it at the load latency of its layer, and as many cycles later as the port
of layer 1 does not accept its line (R61). -/
def State.ldtab (s : State) : State :=
  let a := s.popped 0
  let core := s.focus.core
  if s.cur.lp.st ≠ 0 ∨ s.cur.lp.loadAt.isSome = true then s.startFault 0x0405 none
  else match s.dieLoc a [0, 1] 64 with
    | .error c => s.startFault c (some a)
    | .ok l =>
      match s.capFault l 64 s.view with
      | some c => s.startFault c (some a)
      | none =>
        let (bad, s1) := s.unitRead l.key 64
        match bad with
        | some g =>
          s1.startFault 0x0E01 (some (a + BitVec.ofNat 64 (g - l.key)))
        | none =>
          let n := loadL l.layer + l.extra core + s1.retime l
          let s2 := (s1.touch l).setProg { s1.prog with waiting := true, part := [s1.read l.key 64] }
          let s3 := (s2.started).modCur fun m => { m with lp := { m.lp with loadAt := some (m.cyc + n) } }
          if l.layer = 0 then s3
          else s3.askLine rankUnit
            { line := l.key / 256, wr := false, cls := 0, since := s3.now, ord := ordLp core
              who := .lp core s.focus.bank }

/-- The context whose `lp.ldtab` is reading. -/
def Image.loader (m : Image) : Option (Fin 3) :=
  (List.finRange 3).find? fun c =>
    match (m.eqAt 11 c).words, (m.eqAt 11 c).cur with
    | w :: _, some k => k.waiting && (match w.instr with
      | .lpLdtab _ _ => true
      | _ => false)
    | _, _ => false

/-- The LP holds the table it has read, and checks it (R271): the word faults, or is performed and dealing begins. -/
def State.lpHold (s : State) (core : CoreIx) (bank : BankIx) : State :=
  let m := s.img core bank
  match m.loader with
  | none => s.modLp core bank fun l => { l with loadAt := none }
  | some c =>
    let s0 := (s.focusOn .perform core bank c 11).modLp core bank fun l => { l with loadAt := none }
    let v : BitVec 512 := BitVec.ofNat 512 (s0.prog.part.headD 0)
    let s1 := s0.setProg { s0.prog with waiting := false }
    if !(tableOk core m.blk v) then s1.engineFault 0x0307 none
    else
      let t := tableOf v
      let s2 := s1.modCur fun m =>
        ({ m with lp := { m.lp with table := v, permits := t.permits, st := 1 } } : Image).finish 11 c
      match m.home core with
      | none => s2.modCur fun m => m.beginWalk t.sched
      | some (key, col) =>
        (s2.modLp core bank fun l => { l with inFlight := true }).lpRequest core bank (blkSched m.blk)
          (covDist core col) (rankUnit + core.val % 64) (.coverageRegistration key m.tid)

/-! ### The LOOP words (R270, R272) -/

def pushTo (u : Bool) (r : Fin 16) : Option (Fin 16) := if u then some r else none

/-- A word that reads the LP's own state. -/
def loopRead (s : State) (p : Pred) (i : Instr) (u : Bool) (r : Fin 16) (v : Lp → Nat) : Out :=
  engineWord s p i fun s => s.answerNow (pushTo u r) [BitVec.ofNat 64 (v s.cur.lp)]

/-- n permits are given to the LP; one beyond PERMITS is misuse (R131, R270). -/
def State.givePermits (s : State) (n : Nat) : State :=
  let l := s.cur.lp
  let top := if l.st = 0 then 0 else (tableOf l.table).permits
  if top < l.permits + n then s.startFault 0x0404 none
  else (s.modCur fun m => { m with lp := { m.lp with permits := m.lp.permits + n } }).answerNow none []

/-- What a SCHED address names (R272): the key of a schedule block and its column, a page to wait for, another package,
or a fault. -/
inductive SchedAddr where
  | here (key : Nat) (col : ColIx)
  | away (pkg pa : Nat)
  | page
  | fault (code : BitVec 16)

/-- Where the schedule block of an address lies, for a write or a read of it (R270, R332). -/
def State.schedAddr (s : State) (a : Word) (wr : Bool) : SchedAddr × State :=
  if isGeneric a then
    match locOf s.focus.core a with
    | none => (.fault 0x0701, s)
    | some l =>
      if l.layer ≠ 1 ∨ l.off % 8 ≠ 0 then (.fault 0x0704, s)
      else match s.capFault l 64 s.view with
        | some c => (.fault c, s)
        | none => (.here l.key l.colIx, s)
  else
    let (w, s1) := s.translate (some (s.focus.core, s.focus.q)) a.toNat wr
    match w with
    | .fault c => (.fault c, s1)
    | .absent _ => (.page, s1)
    | .pa k =>
      match spaceOf k with
      | .tower col 1 _ => if k % 8 ≠ 0 then (.fault 0x0704, s1) else (.here k (Fin.ofNat 32 col), s1)
      | .otherTower pkg =>
        if fld 34 32 k = 1 then (if s1.reaches (s1.pkgOfKey pkg) then (.away (s1.pkgOfKey pkg) (s1.pkgKey k), s1) else (.fault 0x0F01, s1))
        else (.fault 0x0704, s1)
      | _ => (.fault 0x0704, s1)

/-- `lp.schedw` or `lp.schedr` sends its request. -/
def State.schedAsk (s : State) (body : Option (List Word)) (pending : Bool) (push : Option (Fin 16)) : State :=
  let a := s.popped 0
  let (w, s1) := (if body.isSome then s.irrev else s).schedAddr a body.isSome
  let ask := s1.asker push
  match w with
  | .fault c => s1.startFault c (some a)
  | .page => (s1.started.pageWait a)
  | .away pkg pa =>
    match body with
    | some b => s1.await.send pkg (.rewrite ask pa b)
    | none => s1.await.send pkg (.cov (Fin.ofNat 32 (fld 39 35 pa)) (.readSched (BitVec.ofNat 64 pa) pending ask))
  | .here key col =>
    let way := covDist s1.focus.core col
    match body with
    | some b =>
      s1.await.schedule (s1.now + way) (rankUnit + 100 + covPort s1.focus.core col)
        (.ev (.rewriteWrite (BitVec.ofNat 64 key) b ask))
    | none =>
      s1.await.schedule (s1.now + way) (rankUnit + 100 + covPort s1.focus.core col) (.cov col (.readSched (BitVec.ofNat 64 key) pending ask))

/-- The coverage map of the issuing task's kernel: its table, key and column; none without a map (R270). -/
def State.ownMap (s : State) : Option (LoopTable × Nat × ColIx) :=
  let l := s.cur.lp
  let t := tableOf l.table
  if l.st = 0 ∨ t.covmap = 0 then none
  else (locOf s.focus.core t.covmap).map fun x => (t, x.key, x.colIx)

def State.covAsk (s : State) (col : ColIx) (x : CovMsg) : State :=
  s.await.schedule (s.now + covDist s.focus.core col) (rankUnit + 100 + covPort s.focus.core col) (.cov col x)

/-- The box of an entry in the form of R130. -/
def boxOf (v : Word) : Box :=
  let n := v.toNat
  { lo := [fld 13 0 n, fld 27 14 n, fld 41 28 n], cnt := [fld 48 42 n, fld 55 49 n, fld 62 56 n] }

def execLpLdtab (p : Pred) (q : Fin 16) (st : State) : Out := engineWord st p (.lpLdtab p q) fun s => s.ldtab
def execLpDone (p : Pred) (st : State) : Out := engineWord st p (.lpDone p) fun s => s.givePermits 1
def execLpSchedw (p : Pred) (q : Fin 16) (st : State) : Out :=
  engineWord st p (.lpSchedw p q) fun s => s.schedAsk (some (s.prog.popped.drop 1)) false none
def execLpSchedr (p : Pred) (q : Fin 16) (u : Bool) (r : Fin 16) (x : Bool) (st : State) : Out :=
  engineWord st p (.lpSchedr p q u r x) fun s => s.schedAsk none x (pushTo u r)
def execLpCov (p : Pred) (q : Fin 16) (u : Bool) (r : Fin 16) (st : State) : Out :=
  engineWord st p (.lpCov p q u r) fun s =>
    match s.ownMap with
    | none => s.startFault 0x0406 none
    | some (t, map, col) =>
      let v := s.popped 0
      let b := boxOf v
      if bitAt 63 v.toNat ∨ b.cnt.contains 0 = true then s.startFault 0x0307 none
      else s.covAsk col (.countBox (mapBits t map b) (s.asker (pushTo u r)))
def execLpCovrd (p : Pred) (q : Fin 16) (u : Bool) (r : Fin 16) (st : State) : Out :=
  engineWord st p (.lpCovrd p q u r) fun s =>
    match s.ownMap with
    | none => s.startFault 0x0406 none
    | some (t, map, col) =>
      let j := (s.popped 0).toNat
      if j % 8 ≠ 0 ∨ ceilDiv (t.cells 0 * t.cells 1 * t.cells 2) 8 ≤ j then s.startFault 0x0307 none
      else s.covAsk col (.readMap (map + j) (s.asker (pushTo u r)))
def execLpGen (p : Pred) (u : Bool) (r : Fin 16) (st : State) : Out :=
  loopRead st p (.lpGen p u r) u r fun l => l.gen.toNat
def execLpStat (p : Pred) (u : Bool) (r : Fin 16) (st : State) : Out :=
  loopRead st p (.lpStat p u r) u r fun l => l.st + l.notice.toNat * 256
def execLpAddp (p : Pred) (q : Fin 16) (st : State) : Out :=
  engineWord st p (.lpAddp p q) fun s =>
    let n := (s.popped 0).toNat
    if n = 0 ∨ 32 < n then s.startFault 0x0307 none else s.givePermits n
def execLpPend (p : Pred) (u : Bool) (r : Fin 16) (st : State) : Out :=
  loopRead st p (.lpPend p u r) u r fun l => if l.noticed 0 then 1 else 0
def execLpPos (p : Pred) (q : Fin 16) (u : Bool) (r : Fin 16) (st : State) : Out :=
  engineWord st p (.lpPos p q u r) fun s =>
    let n := (s.popped 0).toNat
    if 5 < n then s.startFault 0x0307 none
    else s.answerNow (pushTo u r) [BitVec.ofNat 64 (s.cur.lp.pos.getD n 0)]

/-- `lp.drain` may start: every permit is home and the walk is over (R270). -/
def Lp.drained (l : Lp) : Bool := (l.st == 3 || l.st == 4) && l.permits == (tableOf l.table).permits

def execLpDrain (p : Pred) (st : State) : Out := engineWord st p (.lpDrain p) fun s => s.answerNow none []
def execLpPermits (p : Pred) (u : Bool) (r : Fin 16) (st : State) : Out :=
  loopRead st p (.lpPermits p u r) u r fun l => l.permits
def execLpRec (p : Pred) (u : Bool) (r : Fin 16) (st : State) : Out :=
  loopRead st p (.lpRec p u r) u r fun l => l.last.toNat

end Sys2Proof.Machine
end

