-- ==== Sys2Proof/Machine/Sync.lean ====
section
/-! DEFINITION. The SYNC engine (R268, R269, R276 to R285): its words, the answers it receives, notifications, events and
phases. -/

namespace Sys2Proof.Machine

open Sys2Proof

/-! ### Names and requests -/

/-- The fault of a popped barrier name (R276). -/
def barNameFault (n : Word) : Option (BitVec 16) :=
  if nameKind n ≠ 1 then some 0x0904 else if nameZeros n then none else some 0x0307

/-- The fault of a popped future name (R276, R278). -/
def futNameFault (n : Word) : Option (BitVec 16) :=
  if nameKind n ≠ 2 then some 0x0A06 else if nameZeros n then none else some 0x0307

/-- The word in focus sends an operation to the BU of the barrier it names and awaits its answer (R269). -/
def State.askBu (s : State) (name : Word) (op : BarOp) : State :=
  let core := s.focus.core
  s.await.toBu (buDist core (nameColIx name)) (.sync core) (coreDie core) name op

/-- A request of the word in focus reaches a dealer. -/
def State.askDealer (s : State) (d : DieIx) (x : DealerMsg) : State :=
  let core := s.focus.core
  s.await.schedule (s.now + dealerDist core d) (rankDealer + core.val % 64) (.dealer d x)

/-- A word that pops a barrier name first. -/
def State.barWord (s : State) (f : State → Word → State) : State :=
  let n := s.popped 0
  match barNameFault n with
  | some c => s.startFault c none
  | none => f s n

/-- The fault of the place of a future's word, as the dealer would find it at its slice (R344, R354). -/
def State.futPlace (s : State) (n : Word) : Option (BitVec 16) :=
  let col := nameColIx n
  let l : Loc := ⟨(nameDie n).val, nameCol n, 0, nameLayer n, nameOffset n⟩
  if s.reservedBank l then some 0x0703
  else if s.sliceCap col l.layer s.view < l.off + 8 then some 0x0802
  else none

/-- A word that sends an operation on a future to the dealer of its die (R278); one of another package travels over
Sprinwell, or faults when no route leads there (R374). -/
def State.futWord (s : State) (n : Word) (op : FutOp) : State :=
  let core := s.focus.core
  match futNameFault n with
  | some c => s.startFault c none
  | none =>
    if namePkg n ≠ s.pkg.num then
      if s.reaches (namePkg n) then s.await.send (namePkg n) (.dealer (nameDie n) (.reach s.now n op))
      else s.startFault 0x0F01 none
    else match s.futPlace n with
      | some c => s.startFault c none
      | none =>
        s.await.schedule (s.now + dealerDist core (nameDie n)) rankUnit (.dealer (nameDie n) (.reach s.now n op))

/-- Whether a name's unit is on another die, or in another package, than the core in focus. -/
def State.otherDie (s : State) (n : Word) : Bool := namePkg n != s.pkg.num || nameDie n != coreDie s.focus.core

/-- The word in focus sends what is a detached item when it goes to another die (R120). -/
def State.detached (s : State) (n : Word) (f : State → State) : State :=
  if s.otherDie n then
    let (s1, ok) := s.takeItem
    if ok then f s1 else s1.await
  else f s.dropItem

/-! ### Barriers (R276, R277) -/

def State.syncArm (s : State) (coll hasFut : Bool) : State :=
  (s.irrev).barWord fun s n =>
    let e := (s.popped 1).toNat
    let fut := if hasFut then s.popped 2 else 0
    match (if hasFut then futNameFault fut else none) with
    | some c => s.startFault c none
    | none =>
      if 2 ^ 33 ≤ e then s.startFault 0x0307 none
      else s.askBu n (.arm (BitVec.ofNat 32 e) coll (bitAt 32 e) fut (some (s.asker none)))

def execSArm (p : Pred) (q : Fin 16) (f : Bool) (st : State) : Out :=
  engineWord st p (.sArm p q f) fun s => s.syncArm false f
def execSArmc (p : Pred) (q : Fin 16) (f : Bool) (st : State) : Out :=
  engineWord st p (.sArmc p q f) fun s => s.syncArm true f
def execSDisarm (p : Pred) (q : Fin 16) (st : State) : Out :=
  engineWord st p (.sDisarm p q) fun s => s.irrev.barWord fun s n => s.askBu n (.disarm (some (s.asker none)))
def execSSig (p : Pred) (q : Fin 16) (st : State) : Out :=
  engineWord st p (.sSig p q) fun s => s.irrev.barWord fun s n =>
    let c := (s.popped 1).toNat
    if 2 ^ 32 ≤ c then s.startFault 0x0307 none
    else s.detached n fun s => s.askBu n (.count c (some (s.asker none)))
/-- Its micro-PC is 1 from the request's arrival (R276); for a barrier of another package, from its departure. -/
def execSWait (p : Pred) (q : Fin 16) (u : Bool) (r : Fin 16) (st : State) : Out :=
  engineWord st p (.sWait p q u r) fun s => s.barWord fun s n =>
    let s1 := s.askBu n (.wait (.wait (s.asker (pushTo u r))))
    if namePkg n = s.pkg.num then s1.setProg { s1.prog with mpc := 0 } else s1
/-- A ninth notification keeps micro-PC 1 until one is taken (R277). -/
def execSWaitn (p : Pred) (q : Fin 16) (st : State) : Out :=
  engineWord st p (.sWaitn p q) fun s => s.barWord fun s n =>
    if 8 ≤ s.cx.notes then (s.setProg { s.prog with mpc := 1 }).started
    else (s.modCx fun c => { c with notes := c.notes + 1 }).askBu n (.wait (.notify (s.asker none)))
def execSBstat (p : Pred) (q : Fin 16) (u : Bool) (r : Fin 16) (st : State) : Out :=
  engineWord st p (.sBstat p q u r) fun s => s.barWord fun s n => s.askBu n (.wait (.status (s.asker (pushTo u r))))

/-! ### Futures (R278) -/

def execSFnew (p : Pred) (q : Fin 16) (st : State) : Out :=
  engineWord st p (.sFnew p q) fun s =>
    let n := s.popped 0
    s.irrev.futWord n (.create (some (s.asker none)))
def execSFjoin (p : Pred) (q : Fin 16) (st : State) : Out :=
  engineWord st p (.sFjoin p q) fun s =>
    let ref := (s.popped 0).toNat
    let n := s.popped 1
    if 2 ^ 29 ≤ ref then s.irrev.startFault 0x0307 none
    else match futNameFault n with
      | some c => s.irrev.startFault c none
      | none =>
        let d : DieIx := Fin.ofNat 4 (fld 20 19 ref)
        let x : DealerMsg := .join s.now (BitVec.ofNat 32 ref) n (s.asker none)
        if fld 28 23 ref = s.pkg.num then
          (match if namePkg n = s.pkg.num then s.futPlace n else none with
          | some c => s.irrev.startFault c none
          | none => s.irrev.await.schedule (s.now + dealerDist s.focus.core d) rankUnit (.dealer d x))
        else if s.reaches (fld 28 23 ref) then s.irrev.await.send (fld 28 23 ref) (.dealer d x)
        else s.irrev.startFault 0x0F01 none
def execSFres (p : Pred) (q : Fin 16) (st : State) : Out :=
  engineWord st p (.sFres p q) fun s =>
    let n := s.popped 0
    let v := (s.popped 1).toNat
    if 2 ^ 32 ≤ v ∧ (futNameFault n).isNone = true then s.irrev.startFault 0x0307 none
    else s.irrev.detached n fun s => s.futWord n (.resolve (BitVec.ofNat 32 v) (some (s.asker none)))
def execSFpeek (p : Pred) (q : Fin 16) (u : Bool) (r : Fin 16) (st : State) : Out :=
  engineWord st p (.sFpeek p q u r) fun s =>
    let n := s.popped 0
    s.futWord n (.peek (s.asker (pushTo u r)))

/-! ### Launch, exit and halt (R279, R280) -/

/-- The launch block at an address of layer 0 or 1 of the die, or the fault of the address. -/
def State.launchBlock (s : State) (a : Word) : Except (BitVec 16) (List Word × Loc) :=
  match s.dieLoc a [0, 1] 128 with
  | .error c => .error c
  | .ok l =>
    match s.capFault l 128 s.view with
    | some c => .error c
    | none => .ok ((List.range 16).map fun i => BitVec.ofNat 64 (s.read (l.key + 8 * i) 8), l)

/-- A launch block sets out to the dealer of the core's die. -/
def State.sendBlock (s : State) (blk : List Word) (src : EnqSource) (own : Option (Nat × Option ScopeRef)) : State :=
  let core := s.focus.core
  s.schedule (s.now + 2) (rankDealer + 64 + core.val % 64) (.ev (.launchEnqueue (coreDie core) blk src own true))

def execSLaunch (p : Pred) (q : Fin 16) (u : Bool) (r : Fin 16) (st : State) : Out :=
  engineWord st p (.sLaunch p q u r) fun s =>
    let s0 := s.irrev
    let a := s0.popped 0
    match s0.launchBlock a with
    | .error c => s0.startFault c (some a)
    | .ok (blk, l) =>
      let s1 := (s0.touch l).noteRead l.key 128
      s1.await.sendBlock blk (.launch (s1.asker (pushTo u r))) none

/-- Split of R121: m shares of w. -/
def splitWeight (w m : Nat) : List Nat := (w / m + w % m) :: List.replicate (m - 1) (w / m)

/-- The task's weight in its bank, changed. -/
def Image.setWeight (m : Image) (w : Nat) : Image := { m with task := m.task.map fun t => { t with weight := w } }

/-- The blocks of the successors an `s.exit` names, or the first address that faults. -/
def State.exitBlocks (s : State) : List Word → Except (BitVec 16 × Word) (List (List Word × Loc))
  | [] => .ok []
  | a :: rest =>
    match s.launchBlock a with
    | .error c => .error (c, a)
    | .ok b =>
      match s.exitBlocks rest with
      | .error e => .error e
      | .ok l => .ok (b :: l)

/-- The successors from the micro-PC on are sent with their shares (R280, R359). -/
def State.exitSend (s : State) (blks : List (List Word × Loc)) (shares : List Nat) (sc : Option ScopeRef) : State :=
  let a := s.asker none
  let from' := s.prog.mpc
  let s1 := s.setProg { s.prog with waiting := true, sent := blks.length - from' }
  let todo := ((blks.zip shares).zipIdx).drop from'
  s1.started.each todo fun s x =>
    (((s.touch x.1.1.2).noteRead x.1.1.2.key 128).sendBlock x.1.1.1 (.successor a x.2) (some (x.1.2, sc)))

/-- `s.exit` is started (R280, R365): a second one of the task faults; with no successors the weight is returned; else
it is split among them, after a Borrow when it is too small. The shares stand in the word's partial state. -/
def State.exitRunWord (s : State) (k : Nat) : State :=
  let core := s.focus.core
  let first := s.prog.part.isEmpty
  if s.cur.exitRun && first then s.startFault 0x0A07 none
  else
    let s0 := s.modCur fun m => { m with exitRun := true }
    let (w, sc) := match s0.cur.task with
      | some t => (t.weight, t.scope)
      | none => (0, none)
    let mark := s0.setProg { s0.prog with part := 1 :: s0.prog.part.drop 1 }
    if k = 0 then
      let s1 := mark.setProg { mark.prog with mpc := 1, waiting := true, sent := 1 }
      let s2 := (s1.started.modCur fun m => m.setWeight 0).schedule (s1.now + 2) rankAnswer
        (.ev (.syncAnswer (s1.asker none) [] none))
      match sc with
      | some r => s2.returnLater 2 (coreDie core) (some r) w
      | none => s2
    else match s0.exitBlocks s0.prog.popped with
      | .error (c, a) => mark.startFault c (some a)
      | .ok blks =>
        let s1 := mark.irrev
        let kept := s1.prog.part.drop 1
        if !kept.isEmpty then (s1.modCur fun m => m.setWeight 0).exitSend blks kept sc
        else match sc with
          | none => s1.exitSend blks (List.replicate k 0) none
          | some r =>
            if w < k then
              (s1.setProg { s1.prog with waiting := true }).started.borrow 2 r (.exit (coreDie core) (s1.asker none))
            else
              let shares := splitWeight w k
              ((s1.setProg { s1.prog with part := 1 :: shares }).modCur fun m => m.setWeight 0).exitSend blks shares sc

/-- The issue of a word that acts at its issue too, once it has room in its queue (R97, R283). -/
def State.issueActs (s : State) (p : Pred) (i : Instr) (act : State → State) : Out :=
  let s' := s.issueWord p i
  .next (if s.p p ∧ s'.cx.blocked = false then act s' else s')

/-- The issuing context ends (R97). -/
def State.endContext (s : State) : State := s.modCx fun c => { c with ended := true }

def execSExit (p : Pred) (q : Fin 16) (k : Fin 8) (st : State) : Out :=
  match st.focus.role with
  | .issue => st.issueActs p (.sExit p q k) fun s => (s.modCur fun m => { m with exited := true }).endContext
  | _ => .next (st.exitRunWord k.val)
def execSHalt (p : Pred) (st : State) : Out :=
  match st.focus.role with
  | .issue => st.issueActs p (.sHalt p) State.endContext
  | _ => .next (st.answerNow none [])

/-! ### Phases (R281, R154) -/

/-- The contexts issue nothing from the word's issue on. -/
def execSPhase (p : Pred) (q : Fin 16) (n : Bool) (st : State) : Out :=
  match st.focus.role with
  | .issue =>
    st.issueActs p (.sPhase p q n) fun s =>
      s.modCur fun m => { m with phase := some { named := n, name := 0, arrived := false, open? := none } }
  | _ =>
    let s := st.irrev
    let name := if n then s.popped 0 else 0
    match (if n then barNameFault name else none) with
    | some c => .next (s.startFault c none)
    | none =>
      .next (s.await.modCur fun m =>
        { m with phase := some { named := n, name, arrived := false, open? := none } })

/-- A started `s.phase` of the bank, all its task's other words performed: the member arrives (R154). -/
def State.arriving (s : State) (core : CoreIx) (bank : BankIx) : Option (Fin 3) :=
  let m := s.img core bank
  match m.phase with
  | none => none
  | some w =>
    if w.arrived || w.open?.isSome then none
    else
      let here := (List.finRange 3).find? fun c =>
        match (m.eqAt 12 c).words, (m.eqAt 12 c).cur with
        | x :: _, some k => k.waiting && (match x.instr with
          | .sPhase _ _ _ => true
          | _ => false)
        | _, _ => false
      match here with
      | none => none
      | some c =>
        let busy := (List.finRange 13).any fun q => (List.finRange 3).any fun d =>
          if q.val = 12 then decide ((if d = c then 1 else 0) < ((m.eqAt 12 d).words.filter fun x => x.tid == m.tid).length)
          else s.pendingIn core bank d q
        if busy then none else some c

/-- The member arrives: its request leaves for the dealer or the BU (R281). -/
def State.arrive (s : State) (core : CoreIx) (bank : BankIx) (c : Fin 3) : State :=
  let s1 := s.modImg core bank fun m => { m with phase := m.phase.map fun w => { w with arrived := true } }
  let m := s1.img core bank
  match m.phase, m.task with
  | some w, some t =>
    if w.named then
      let n := buDist core (nameColIx w.name)
      let a : Asker := { tid := t.tid, q := 12, ctx := ixCtx c, push := none, mpc := 1 }
      (s1.toBu n (.sync core) (coreDie core) w.name (.wait (.phase a))).toBu n (.sync core) (coreDie core) w.name
        (.count 1 (some { a with q := 0 }))
    else s1.schedule (s1.now + 2) (rankDealer + core.val % 64) (.dealer t.die (.arrive t.slot t.tid))
  | _, _ => s1

/-- The context whose `s.phase` a task's image holds. -/
def Image.phaseCtx (m : Image) : Option (Fin 3) :=
  (List.finRange 3).find? fun c => match (m.eqAt 12 c).words with
    | x :: _ => (match x.instr with
      | .sPhase _ _ _ => x.tid == m.tid
      | _ => false)
    | [] => false

/-- PHASE_BOUNDARY (R154): the answer sets out to each member. -/
def execPhaseBoundary (s : State) : Out :=
  match s.focus.event with
  | some (.phaseBoundary tids) =>
    .next (s.each tids fun s tid =>
      match s.taskImg tid with
      | none => s
      | some m =>
        match m.phaseCtx with
        | none => s
        | some c =>
          let n := match s.bankOf tid, m.phase with
            | some (core, _), some w => if w.named then buDist core (nameColIx w.name) else 2
            | _, _ => 2
          s.schedule (s.now + n) rankAnswer
            (.ev (.syncAnswer { tid, q := 12, ctx := ixCtx c, push := none, mpc := 1 } [] none)))
  | _ => .fault (.nothingThere "PHASE_BOUNDARY")

/-! ### Quiescence (R282) -/

/-- A request on a scope of the core's die. -/
def State.scopeWord (s : State) (f : Asker → DealerMsg) (push : Option (Fin 16)) : State :=
  s.askDealer (coreDie s.focus.core) (f (s.asker push))

/-- The weight the task in focus holds. -/
def State.weight (s : State) : Nat := (s.cur.task.map fun t => if t.scope.isSome then t.weight else 0).getD 0

def execSQopen (p : Pred) (x : Fin 16) (st : State) : Out :=
  engineWord st p (.sQopen p x) fun s => s.scopeWord (.qopen x) none
def execSQsplit (p : Pred) (q : Fin 16) (st : State) : Out :=
  engineWord st p (.sQsplit p q) fun s0 =>
    let s := s0.irrev
    let ref := (s.popped 0).toNat
    let u := (s.popped 1).toNat
    if 2 ^ 29 ≤ ref ∨ u = 0 ∨ 2 ^ 31 < u then s.startFault 0x0307 none
    else if s.weight = 0 then s.answerNow none []
    else s.askDealer (coreDie s.focus.core) (.qsplit (BitVec.ofNat 32 ref) u (s.asker none))
def execSQret (p : Pred) (q : Fin 16) (st : State) : Out :=
  engineWord st p (.sQret p q) fun s0 =>
    let s := s0.irrev
    if s.weight = 0 then s.answerNow none []
    else s.askDealer (coreDie s.focus.core) (.qret (s.popped 0).toNat (s.asker none))
def execSWaitq (p : Pred) (u : Bool) (r : Fin 16) (x : Fin 16) (st : State) : Out :=
  engineWord st p (.sWaitq p u r x) fun s => s.scopeWord (.waitq x) (pushTo u r)
def execSQstat (p : Pred) (u : Bool) (r : Fin 16) (x : Fin 16) (st : State) : Out :=
  engineWord st p (.sQstat p u r x) fun s => s.scopeWord (.qstat x) (pushTo u r)
def execSQclose (p : Pred) (x : Fin 16) (st : State) : Out :=
  engineWord st p (.sQclose p x) fun s => s.scopeWord (.qclose x) none

/-! ### Regions, events and time (R283 to R285) -/

/-- `s.npr` opens the region, or sets the limit of the open one, at its issue (R283). -/
def execSNpr (p : Pred) (x : BitVec 32) (st : State) : Out :=
  match st.focus.role with
  | .issue =>
    st.issueActs p (.sNpr p x) fun s =>
      s.modCur fun m => { m with npr := some { opened := m.cyc, limit := x.toNat, ctx := s.focus.ctx } }
  | _ => .next (st.answerNow none [])
def execSNprend (p : Pred) (st : State) : Out :=
  match st.focus.role with
  | .issue => st.issueActs p (.sNprend p) fun s => s.modCur fun m => { m with npr := none }
  | _ => .next (st.answerNow none [])

/-- Whether events reach a context: it has not ended, and its task has a trap entry (R284). -/
def Bank.takesEvents (b : Bank) (c : Fin 3) : Bool := !(b.img.ctx[c.val]).ended && b.trapEntry != 0

/-- `s.uev`: its event is held for its target, discarded, or waits for room (R284). -/
def execSUev (p : Pred) (c : Fin 4) (e : Fin 16384) (st : State) : Out :=
  engineWord st p (.sUev p c e) fun s =>
    let t : Fin 3 := Fin.ofNat 3 c.val
    if !((s.bank s.focus.core s.focus.bank).takesEvents t) then s.answerNow none []
    else if 8 ≤ (s.cur.ctx[t.val]).events.length then (s.setProg { s.prog with mpc := 1 }).started
    else
      (s.modCur fun m => m.modCtx t fun x =>
        { x with events := x.events ++ [{ code := 1, addr := BitVec.ofNat 64 e.val }] }).answerNow none []

def execSTime (p : Pred) (r : Fin 16) (st : State) : Out :=
  engineWord st p (.sTime p r) fun s =>
    let t := s.groupNs
    s.answerNow (some r) [BitVec.ofNat 64 (t / 1000000000 % 2 ^ 48), BitVec.ofNat 64 (t % 1000000000)]

/-- `s.yield` (R285): the head of the hand may hold a group of a class at least the task's. -/
def execSYield (p : Pred) (st : State) : Out :=
  engineWord st p (.sYield p) fun s =>
    let s1 := s.answerNow none []
    match (s.core s.focus.core).hand, s.cur.task with
    | h :: _, some t =>
      if t.cls ≤ h.cls then s1.after 0 rankStop (.taskStop s.focus.core s.focus.bank .yield) else s1
    | _, _ => s1

/-! ### Answers (R268, R363, R368) -/

/-- The micro-PC at which a dealer's or a coverage unit's refusal faults its word (R358, R359, R363, R370). -/
def refusalMpc (code : BitVec 16) : Nat :=
  match code.toNat with
  | 0x0A01 | 0x0A02 | 0x0A05 | 0x0B01 | 0x0F01 => 0
  | _ => 1

/-- An answer for a successor of an `s.exit` (R280, R359): the micro-PC counts those enqueued, and with the last answer
the word is performed, or the first refusal is raised and the shares not given away stay with the task. -/
def Image.exitAnswer (m : Image) (c : Fin 3) (bad : Option (BitVec 16)) : Image × Option (BitVec 16) :=
  match (m.eqAt 12 c).cur with
  | none => (m, none)
  | some cu =>
    let old := cu.part.headD 1
    let code := if old ≠ 1 then old else match bad with
      | some c => 2 + c.toNat
      | none => 1
    let shares := cu.part.drop 1
    let cu1 := { cu with sent := cu.sent - 1, mpc := if code = 1 then cu.mpc + 1 else cu.mpc, part := code :: shares }
    if cu1.sent ≠ 0 then (m.modEq 12 c fun e => { e with cur := some cu1 }, none)
    else if code = 1 then (m.finish 12 c, none)
    else
      let left := (shares.drop cu1.mpc).foldl (· + ·) 0
      ((m.modEq 12 c fun e => { e with cur := some { cu1 with waiting := false, part := 1 :: shares } }).setWeight left,
        some (BitVec.ofNat 16 (code - 2)))

/-- The answer of a phase boundary: the contexts issue again from the next task cycle on (R281). -/
def Image.phaseAnswer (m : Image) (c : Fin 3) : Image :=
  ({ m with phase := m.phase.map fun w => { w with open? := some (m.cyc + 1) } } : Image).finish 12 c

/-- A word of a running bank is answered. -/
def State.answered (s : State) (a : Asker) (i : Instr) (vals : List Word) (bad : Option (BitVec 16)) : State :=
  match i with
  | .sExit _ _ _ =>
    let (m, f) := s.cur.exitAnswer s.focus.ctx bad
    let s1 := s.modCur fun _ => m
    match f with
    | some c => s1.engineFault c none
    | none => s1
  | .sPhase _ _ _ => s.modCur fun m => m.phaseAnswer s.focus.ctx
  | _ =>
    match bad with
    | some c => ((s.itemBack 0).setProg { s.prog with mpc := refusalMpc c, waiting := false, item := none }).engineFault c none
    | none => (s.itemBack 0).modCur fun m => m.ready a.q s.focus.ctx a.push vals

/-- The answer of a stopped task's word, kept with it (R368); a refused word checks again when it next starts (R333). -/
def Image.keepAnswer (m : Image) (a : Asker) (vals : List Word) (bad : Option (BitVec 16)) : Image :=
  let c := ctxIx a.ctx
  let keep : Image :=
    m.modEq a.q c fun e =>
      { e with
        cur := e.cur.map fun k => { k with waiting := false, answer := if bad.isSome then none else some vals } }
  match (m.eqAt a.q c).words with
  | [] => m
  | w :: _ =>
    match w.instr with
    | .sExit _ _ _ => (m.exitAnswer c bad).1
    | .sPhase _ _ _ => m.phaseAnswer c
    | _ => keep

/-- SYNC_ANSWER (R268): an answer reaches its core; that of a word whose task does not run is kept until it does. -/
def State.syncAnswer (s : State) (a : Asker) (vals : List Word) (bad : Option (BitVec 16)) : State :=
  let c := ctxIx a.ctx
  match a.via with
  | some p => s.send p (.answer { a with via := none } vals bad)
  | none =>
  match bankWithWord s.cores a.tid a.q c with
  | none => s.modTask a.tid fun m => m.keepAnswer a vals bad
  | some (core, bank) =>
    match (s.bank core bank).status, ((s.img core bank).eqAt a.q c).words with
    | .waiting, _ => (s.modImg core bank fun m => m.keepAnswer a vals bad).after 0 rankDealer (.fillerReturn core)
    | .stopped, _ => s.modImg core bank fun m => m.keepAnswer a vals bad
    | .ready, _ => s.modImg core bank fun m => m.keepAnswer a vals bad
    | _, [] => s
    | st, w :: _ =>
      if st = .starting ∧ (s.img core bank).holds w.tid = true then s.modImg core bank fun m => m.keepAnswer a vals bad else
      let old := s.focus
      let s1 := (s.focusOn .perform core bank c a.q).answered a w.instr vals bad
      { s1 with focus := old }

def execSyncAnswer (s : State) : Out :=
  match s.focus.event with
  | some (.syncAnswer a vals bad) => .next (s.syncAnswer a vals bad)
  | _ => .fault (.nothingThere "SYNC_ANSWER")

/-! ### Notifications (R277, R284) -/

/-- Whether a task's context takes events. -/
def State.takesEvents (s : State) (tid : Nat) (m : Image) (c : Fin 3) : Bool :=
  match s.bankOf tid with
  | some (core, bank) => (s.bank core bank).takesEvents c
  | none =>
    !(m.ctx[c.val]).ended && (blkTvec m.blk != 0 ||
      match m.task with
      | some t =>
        (match locOf (dieCore t.die 0) (blkProg t.blk) with
        | some l => fld 14 0 (s.read (l.key + 12) 2) != 0
        | none => false)
      | none => false)

/-- NOTIFY_EVENT_ARRIVAL (R277): the event is held for its context; it waits for room among the events held. -/
def execNotifyEventArrival (s : State) : Out :=
  match s.focus.event with
  | some (.notifyEventArrival tid ctx name) =>
    let c := ctxIx ctx
    .next (match s.taskImg tid with
      | none => s
      | some m =>
        if !(s.takesEvents tid m c) then
          s.modTask tid fun m => m.modCtx c fun x => { x with notes := x.notes - 1 }
        else if 8 ≤ (m.ctx[c.val]).events.length then s.after 1 rankAnswer (.notifyEventArrival tid ctx name)
        else
          s.modTask tid fun m => m.modCtx c fun x =>
            { x with events := x.events ++ [{ code := 2, addr := name }] })
  | _ => .fault (.nothingThere "NOTIFY_EVENT_ARRIVAL")

end Sys2Proof.Machine
end

