-- ==== Sys2Proof/Machine/Deal.lean ====
section
/-! DEFINITION. The dealers (R99 to R123, R358 to R365): launch records, the choice, gangs, continuations, futures, weight and
the quiescence scopes. -/

namespace Sys2Proof.Machine

open Sys2Proof

/-! ### Records -/

def State.record (s : State) (d : DieIx) (slot : Nat) : Option Record := (s.die d).records.find slot
def State.setRecord (s : State) (d : DieIx) (slot : Nat) (r : Record) : State :=
  s.modDie d fun k => { k with records := k.records.put slot r }
def State.modRecord (s : State) (d : DieIx) (slot : Nat) (f : Record → Record) : State :=
  match s.record d slot with
  | some r => s.setRecord d slot (f r)
  | none => s

/-- Slots of the deck and the overflow region together (R104). -/
abbrev slotCount : Nat := 327680

/-- The lowest free slot from n on, among records listed by rising slot (R104). -/
def freeFrom (n : Nat) : Store Record → Nat
  | [] => n
  | (k, _) :: rest => if k = n then freeFrom (n + 1) rest else if n < k then n else freeFrom n rest

/-- The slot a record takes, if one is free. -/
def Die.freeSlot (k : Die) : Option Nat :=
  let n := freeFrom 0 k.records
  if n < slotCount then some n else none

def Record.cls (r : Record) : Nat := blkClass r.blk
def Record.groups (r : Record) : Nat := blkGroups r.blk

/-- A group of the record is still to be dealt. -/
def Record.left (r : Record) : Bool := r.runnable && !r.husk && (!r.again.isEmpty || decide (r.next < r.groups))

/-! ### The check of a launch block (R358) -/

/-- A core counts in no run and takes no group (R348). -/
def Core.out (k : Core) : Bool := k.ineligible || k.withdrawn

/-- The longest run of consecutive cores of a die that may take a gang. -/
def State.longestRun (s : State) (d : DieIx) : Nat :=
  ((List.range 64).foldl (fun (a : Nat × Nat) k =>
    let n := if (s.core (dieCore d k)).out then 0 else a.1 + 1
    (n, max a.2 n)) (0, 0)).2

/-- The die a block's TARGET names, for a block that a dealer receives. -/
def targetDie (d : DieIx) (b : List Word) : DieIx := if blkFld b 2 56 56 = 1 then d else Fin.ofNat 4 (blkFld b 2 55 54)

/-- The scope that QSCOPE of a block names, when VALID. -/
def blkScope (b : List Word) : Option ScopeRef :=
  if blkFld b 3 12 12 = 1 then some ⟨blkFld b 3 11 6, Fin.ofNat 4 (blkFld b 3 5 4), Fin.ofNat 16 (blkFld b 3 3 0)⟩ else none

/-- An address of a block: zero where `zero` allows it, else a DIE-window address of one of the layers. -/
def blkAddrOk (a : Word) (zero : Bool) (layers : List Nat) : Bool :=
  (zero && a == 0) ||
    match locOf 0 a with
    | some l => fld 59 56 a.toNat == 2 && layers.contains l.layer
    | none => false

/-- A sync name of a block: of one of the kinds, of a package of the group (R358). -/
def State.blkNameOk (s : State) (n : Word) (kinds : List Nat) : Bool :=
  kinds.contains (nameKind n) && nameZeros n && (nameKind n == 0 || !(s.beyond (namePkg n)))

/-- The package that a block's TARGET names. -/
def State.targetPkg (s : State) (b : List Word) : Nat := if blkFld b 2 56 56 = 1 then s.pkg.num else blkFld b 2 53 48

/-- The dealer refuses a block (R358). -/
def State.blockBad (s : State) (d : DieIx) (b : List Word) : Bool :=
  let n := blkGroups b
  let zeros := [blkFld b 1 63 58, blkFld b 2 31 27, blkFld b 2 33 32, blkFld b 2 47 47, blkFld b 2 63 57,
    blkFld b 3 15 13, blkFld b 3 31 25, blkFld b 3 47 42, blkFld b 3 63 48]
  let limits := blkAddrOk (blkProg b) false [1] && blkImgLen b % 4 == 0 && decide (4 ≤ blkImgLen b) &&
    decide (blkImgLen b ≤ 32768) && decide (n ≤ 1048576) && decide (blkFld b 3 41 32 ≤ 512) &&
    decide (blkFld b 3 24 16 + blkFld b 3 41 32 ≤ 512) && blkAddrOk (blkSched b) true [1] &&
    blkAddrOk (blkDoneNext b) true [0, 1]
  let gang := !(blkGang b) || (decide (2 ≤ n ∧ n ≤ 64) &&
    (s.targetPkg b != s.pkg.num || decide (n ≤ s.longestRun (targetDie d b))))
  let names := s.blkNameOk (blkDoneBar b) [0, 1] && (List.range 4).all fun i => s.blkNameOk (blkWait b i) [0, 1, 2]
  let target := !(s.beyond (s.targetPkg b))
  let scope := match blkScope b with
    | some r => if r.pkg = s.pkg.num then (s.scope r.die r.s.val).opened else !(s.beyond r.pkg)
    | none => true
  !(zeros.all (· == 0)) || !limits || !gang || !names || !target || !scope

/-! ### Failure of a launch (R362, R364) -/

/-- The future that a barrier resolves is poisoned, from its BU, n cycles away (R362). -/
def State.poisonFut (s : State) (fut : Word) (n : Nat) (code : BitVec 16) : State :=
  let x : DealerMsg := .reach s.now fut (.poison code)
  if nameKind fut ≠ 2 then s
  else if namePkg fut = s.pkg.num then s.schedule (s.now + max 1 n) rankUnit (.dealer (nameDie fut) x)
  else s.send (namePkg fut) (.dealer (nameDie fut) x)

/-- A barrier that a failed launch was to signal is made LOST, and its FUT poisoned. -/
def State.loseDone (s : State) (name : Word) (code : BitVec 16) : State :=
  if nameKind name ≠ 1 then s
  else if namePkg name ≠ s.pkg.num then s.send (namePkg name) (.lose name (some code))
  else
    let col := nameColIx name
    let fut := (s.bar col (nameIndex name)).fut
    (s.loseName name).poisonFut fut (if nameKind fut = 2 then dealerBu (nameDie fut) col else 0) code

/-- A slot is freed: a completion that waited for one goes on, and gangs that hold a reservation for the record let go
of it. -/
def State.freeSlot (s : State) (d : DieIx) (slot : Nat) : State :=
  let s1 := s.modDie d fun k => { k with records := k.records.del slot }
  let s2 := (List.range 64).foldl (fun s k =>
    let c := dieCore d k
    if (s.core c).reserved = some slot then s.modCore c fun x => { x with reserved := none } else s) s1
  let stuck := s2.dies.flatMap fun (x : Nat × Die) => (x.2.records.filter fun r => r.2.stuck).map fun r => (x.1, r.1)
  ((s2.each stuck fun s x =>
    s.schedule s.now (rankDealer + 148) (.ev (.donenextDeferred (Fin.ofNat 4 x.1) x.2))).wantChoice d).offAsked d

/-- A continuation's entry is withdrawn from a barrier of this package. -/
def State.unwait (s : State) (name : Word) (ref : BitVec 32) : State :=
  let col := nameColIx name
  let ix := nameIndex name
  let b := s.bar col ix
  let s1 := s.withdraw fun a => match a with
    | .ev (.barrierWait _ (.entry k)) => k == ref
    | .ev (.entrySatisfaction k _ _) => k == ref
    | _ => false
  s1.setBar col ix { b with waiters := b.waiters.filter fun w => w != .entry ref }

/-- The registrations of a continuation at barriers are withdrawn (R364). -/
def State.withdrawEntries (s : State) (d : DieIx) (slot : Nat) (r : Record) : State :=
  s.each r.waits.zipIdx fun s x =>
    let n := x.1.name
    let ref := recordRef slot d.val x.2 s.pkg.num
    if nameKind n ≠ 1 ∨ x.1.sat.isSome = true then s
    else if namePkg n = s.pkg.num then s.unwait n ref
    else s.send (namePkg n) (.unwait n ref)

/-- A record that never runs: its weight returns, DONEBAR is lost, and its slot is a husk until its entries have left
every list (R364, R348). -/
def State.failRecord (s : State) (d : DieIx) (slot : Nat) (code : BitVec 16) : State :=
  match s.record d slot with
  | none => s
  | some r =>
    let s1 := s.withdrawEntries d slot r
    let s2 := s1.returnWeight d r.scope (r.compShare + r.groups * r.groupShare)
    let s3 := s2.loseDone (blkDoneBar r.blk) code
    if r.waits.any fun w => w.listed then
      s3.setRecord d slot { r with husk := true, failed := some code, runnable := false, compShare := 0, groupShare := 0 }
    else s3.freeSlot d slot

/-! ### Enqueue (R103, R104, R115, R121, R358, R359) -/

/-- A launch becomes runnable (R105, R115); a gang's reservation falls due (R109). -/
def State.becomeRunnable (s : State) (d : DieIx) (slot : Nat) : State :=
  match s.record d slot with
  | none => s
  | some r =>
    let s1 := (s.setRecord d slot { r with runnable := true, runnableAt := s.now }).wantChoice d
    if r.groups = 0 then s1.schedule s1.now (rankDealer + 128) (.ev (.launchCompletion d slot))
    else if blkGang r.blk then
      s1.schedule (if r.cls = 3 then s1.now else s1.now + 65536) (rankDealer + 150) (.ev (.gangReservation d slot))
    else s1

/-- An operation on a future sets out from a dealer, to arrive in n cycles, or over Sprinwell. -/
def State.toFuture (s : State) (n : Nat) (name : Word) (op : FutOp) : State :=
  let x : DealerMsg := .reach s.now name op
  if namePkg name = s.pkg.num then s.schedule (s.now + n) rankUnit (.dealer (nameDie name) x)
  else s.send (namePkg name) (.dealer (nameDie name) x)

/-- Each non-empty WAIT entry is registered, in index order (R115). The join of a future of the dealer's own die reaches its
bank in the next cycle. -/
def State.registerEntries (s : State) (d : DieIx) (slot : Nat) (b : List Word) : State :=
  s.each (List.range 4) fun s i =>
    let n := blkWait b i
    let ref := recordRef slot d.val i s.pkg.num
    match nameKind n with
    | 1 => s.toBu (dealerBu d (nameColIx n)) (.dealer d) d n (.wait (.entry ref))
    | 2 => s.toFuture (if nameDie n = d then 1 else 24) n (.join ref none)
    | _ => s

/-- A block takes a slot and its shares, and is registered. -/
def State.addRecord (s : State) (d : DieIx) (slot : Nat) (b : List Word) (w : Nat) (sc : Option ScopeRef)
    (src : EnqSource) : State :=
  let m := blkGroups b + 1
  let waits : List WaitEntry := (List.range 4).map fun i =>
    { name := blkWait b i, sat := if nameKind (blkWait b i) = 0 then some (0, false) else none, link := 0xFFFFFFFF,
      listed := false }
  let retire := match src with
    | .launch a => (match s.askerCore a with
      | some c => dealerDist c d
      | none => 0)
    | _ => 0
  let r : Record :=
    { seq := (s.die d).seq, blk := b, scope := sc, compShare := w / m + w % m, groupShare := w / m, waits,
      runnable := false, runnableAt := 0, next := 0, again := [], done := 0, arrived := [], failed := none, husk := false,
      reserved := none, ready := s.now + retire, stuck := false, system := (match src with
        | .handler => true
        | _ => false) }
  let s1 := (s.modDie d fun k => { k with seq := k.seq + 1 }).setRecord d slot r
  let s2 := match src with
    | .launch a =>
      s1.dealerAnswer d (some a) [if a.via.isSome then 0 else (recordRef slot d.val 0 s.pkg.num).setWidth 64]
    | .successor a _ => s1.dealerAnswer d (some a) []
    | _ => s1
  if waits.all fun x => x.sat.isSome then s2.becomeRunnable d slot else s2.registerEntries d slot b

/-- One more host launch write refused (R359). -/
def State.hostRefused (s : State) : State :=
  if s.isBridge then s.modBridge fun b => { b with hostRefused := b.hostRefused + 1 } else s.send 0 (.counted false)

/-- The answer of a dealer that a request is refused. -/
def State.dealerRefuses (s : State) (d : DieIx) (a : Asker) (code : BitVec 16) : State :=
  let n := match s.askerCore a with
    | some c => dealerDist c d
    | none => 2
  s.answerTo n a [] (some code)

/-- A record that only names a launch, with CTX 3. -/
def State.launchReport (s : State) (d : DieIx) (code : BitVec 16) : State :=
  let (a, s1) := s.faultAddr none
  s1.report d code a

/-- A block is refused (R358, R359, R365): `w` is what it carries. -/
def State.refuseBlock (s : State) (d : DieIx) (b : List Word) (src : EnqSource) (own : Option (Nat × Option ScopeRef))
    (code : BitVec 16) : State :=
  let (w, sc) := own.getD (0, none)
  match src with
  | .launch a => (s.returnWeight d sc w).dealerRefuses d a code
  | .successor a _ =>
    if code = 0x0A01 then ((s.returnWeight d sc w).launchReport d code).dealerAnswer d (some a) []
    else s.dealerRefuses d a code
  | .doneNext _ => (s.returnWeight d sc w).launchReport d code
  | .host off =>
    let s1 := (s.returnWeight d sc w).report d code (BitVec.ofNat 64 off)
    if code = 0x0A05 then s1 else s1.hostRefused
  | .handler => s.after 1 rankDealer (.launchEnqueue d b src own false)

/-- A root enqueue draws its weight from its scope's kitty (R120, R121, R365), or is refused with a code. -/
def State.drawRoot (s : State) (r : ScopeRef) (w : Nat) : Except (BitVec 16) State :=
  if (s.scope r.die r.s.val).kitty < w then .error 0x0A05
  else .ok (s.modDie r.die fun k =>
    { k with scopes := k.scopes.put r.s.val (let x := k.scopes.get Scope.reset r.s.val
                                             { x with kitty := x.kitty - w }) })

/-- The weight that a root enqueue draws. -/
def blkDraw (b : List Word) : Nat := if blkWeight b = 0 then 2 ^ 32 else blkWeight b

/-- A block that has its weight is sent on to the dealer of its target, or takes a slot. -/
def State.putRecord (s : State) (d : DieIx) (b : List Word) (src : EnqSource) (w : Nat) (sc : Option ScopeRef) (first : Bool) :
    State :=
  let p := if first then s.targetPkg b else s.pkg.num
  let t := if first then targetDie d b else d
  if p ≠ s.pkg.num then
    if s.reaches p then s.send p (.launch t b src w sc) else s.refuseBlock d b src (some (w, sc)) 0x0F01
  else if t ≠ d then s.schedule (s.now + 24) (rankDealer + 130 + d.val) (.ev (.launchEnqueue t b src (some (w, sc)) false))
  else match (s.die d).freeSlot with
    | none => s.refuseBlock d b src (some (w, sc)) 0x0A02
    | some slot =>
      match sc with
      | some r =>
        if w < blkGroups b + 1 then s.borrow 0 r (.enqueue d b src w false)
        else s.addRecord d slot b w sc src
      | none => s.addRecord d slot b w none src

/-- A launch block reaches a dealer (R103): it is checked by the first, sent on to the dealer of its target, and takes a
slot and its weight there. A root enqueue in the scope of another package draws its weight from there first. -/
def State.enqueue (s : State) (d : DieIx) (b : List Word) (src : EnqSource) (own : Option (Nat × Option ScopeRef))
    (first : Bool) : State :=
  if first && s.blockBad d b then s.refuseBlock d b src own 0x0A01
  else if first && s.targetPkg b == s.pkg.num && targetDie d b == d && (s.die d).freeSlot.isNone then
    s.refuseBlock d b src own 0x0A02
  else match own, blkScope b with
    | some (w, sc), _ => s.putRecord d b src w sc first
    | none, none => s.putRecord d b src 0 none first
    | none, some r =>
      if r.pkg ≠ s.pkg.num then s.borrow 0 r (.root d b src (blkDraw b))
      else match s.drawRoot r (blkDraw b) with
        | .error c => s.refuseBlock d b src own c
        | .ok s1 => s1.putRecord d b src (blkDraw b) (some r) first

/-- LAUNCH_ENQUEUE (R103). -/
def execLaunchEnqueue (s : State) : Out :=
  match s.focus.event with
  | some (.launchEnqueue d b src own first) => .next (s.enqueue d b src own first)
  | _ => .fault (.nothingThere "LAUNCH_ENQUEUE")

/-! ### Weight (R119 to R122, R365) -/

def State.modScope (s : State) (d : DieIx) (i : Fin 16) (f : Scope → Scope) : State :=
  s.modDie d fun k => { k with scopes := k.scopes.put i.val (f (k.scopes.get Scope.reset i.val)) }

/-- The words that wait for a scope to be quiet are answered as soon as it is (R122). -/
def State.checkQuiet (s : State) (d : DieIx) (i : Fin 16) : State :=
  let x := s.scope d i.val
  if x.quiet && !x.waiters.isEmpty then s.schedule s.now (rankDealer + 160) (.ev (.waitqComplete d i)) else s

/-- WEIGHT_RETURN (R121). -/
def execWeightReturn (s : State) : Out :=
  match s.focus.event with
  | some (.weightReturn d i u) => .next ((s.modScope d i fun (x : Scope) => { x with ret := x.ret + u }).checkQuiet d i)
  | _ => .fault (.nothingThere "WEIGHT_RETURN")

/-- WAITQ_COMPLETE (R122). -/
def execWaitqComplete (s : State) : Out :=
  match s.focus.event with
  | some (.waitqComplete d i) =>
    let x := s.scope d i.val
    .next (if x.quiet then
      (s.modScope d i fun (x : Scope) => { x with waiters := [] }).each x.waiters fun s a => s.dealerAnswer d (some a) [x.stat]
    else s)
  | _ => .fault (.nothingThere "WAITQ_COMPLETE")

/-- A Borrow is refused (R365): against the word that needed the weight. -/
def State.refuseBorrow (s : State) (need : WeightNeed) (code : BitVec 16) : State :=
  match need with
  | .enqueue d b src w _ => s.refuseBlock d b src (blkScope b |>.map fun r => (w, some r)) code
  | .root d b src _ => s.refuseBlock d b src none code
  | .exit _ a => s.wordFault a code none
  | .split d _ _ a => s.dealerRefuses d a code
  | .item _ _ _ a => s.wordFault a code none

/-- The way of an answer to a Borrow back to its requester. -/
def State.toNeed (s : State) (d : DieIx) (need : WeightNeed) (via : Option Nat) (e : Event) (x : Packet) : State :=
  match via with
  | none => s.schedule (s.now + dealerWay d need.die) rankDealer (.ev e)
  | some p => s.send p x

/-- BORROW_DEBIT (R121, R365): at the root. -/
def execBorrowDebit (s : State) : Out :=
  match s.focus.event with
  | some (.borrowDebit d i need via) =>
    let x := s.scope d i.val
    let root := match need with
      | .root _ _ _ _ => true
      | _ => false
    .next (if x.kitty < need.amount ∨ (root && !x.opened) = true then
      let code : BitVec 16 := if root && !x.opened then 0x0A01 else 0x0A05
      match via with
      | none => s.refuseBorrow need code
      | some p => s.send p (.noGrant need code)
    else
      (s.modScope d i fun (x : Scope) => { x with kitty := x.kitty - need.amount, borrows := x.borrows + 1 }).toNeed d need
        via (.borrowGrant (s.ownScope d i) need) (.grant (s.ownScope d i) need))
  | _ => .fault (.nothingThere "BORROW_DEBIT")

/-- The task of a word that asked, its weight changed. -/
def State.modWeight (s : State) (tid : Nat) (f : Nat → Nat) : State := s.modTask tid fun m => m.modWeight f

/-- u units move from a task to a launch's completion share (R282), its record at this dealer or another. -/
def State.moveWeight (s : State) (d : DieIx) (ref : BitVec 32) (u : Nat) (a : Asker) : State :=
  let t : DieIx := Fin.ofNat 4 (fld 20 19 ref.toNat)
  let p := fld 28 23 ref.toNat
  let slot := fld 18 0 ref.toNat
  let sc := ((s.taskImg a.tid).bind fun m => m.task).bind fun t => t.scope
  let given := (s.modWeight a.tid fun w => w - u).dealerAnswer d (some a) []
  if p ≠ s.pkg.num then given.send p (.dealer t (.moved ref u sc))
  else if t ≠ d then given.schedule (s.now + 24) rankDealer (.dealer t (.moved ref u sc))
  else match s.record d slot with
    | some r =>
      if r.husk then s.dealerRefuses d a 0x0A06
      else
        ((s.modWeight a.tid fun w => w - u).setRecord d slot { r with compShare := r.compShare + u }).dealerAnswer d
          (some a) []
    | none => s.dealerRefuses d a 0x0A06

/-- The word that waited for weight goes on, at once in a running bank. -/
def State.goOn (s : State) (a : Asker) : State :=
  let c := ctxIx a.ctx
  let idle (m : Image) : Image :=
    m.modEq a.q c fun e => { e with cur := e.cur.map fun k => { k with waiting := false } }
  match bankWithWord s.cores a.tid a.q c with
  | some (core, bank) =>
    if (s.bank core bank).status = .running then s.schedule s.now rankDealer (.perform core bank a.q c)
    else s.modImg core bank idle
  | none => s.modTask a.tid idle

/-- Whether a queue holds a word of a task that waits for a unit of weight. -/
def EngQueue.owes (e : EngQueue) (tid : Nat) : Bool := e.words.any fun w => w.tid == tid && w.owed

/-- The first word of a task that waits for a unit has it; one that has started holds it in its progress. -/
def EngQueue.giveUnit (e : EngQueue) (tid : Nat) (r : ScopeRef) : EngQueue :=
  match e.words.findIdx? fun w => w.tid == tid && w.owed with
  | none => e
  | some i =>
    let begun := i == 0 && e.cur.isSome
    { words := e.words.zipIdx.map fun x =>
        if x.2 = i then { x.1 with owed := false, item := if begun then none else some r } else x.1
      cur := if begun then e.cur.map fun k => { k with item := some r } else e.cur }

/-- The bank that holds a word of a queue that waits for a unit. -/
def bankOwing (l : Store Core) (tid : Nat) (q : Fin 13) (c : Fin 3) : Option (CoreIx × BankIx) :=
  l.findSome? fun k =>
    if (k.2.banks[0].img.eqAt q c).owes tid then some (Fin.ofNat 256 k.1, 0)
    else if (k.2.banks[1].img.eqAt q c).owes tid then some (Fin.ofNat 256 k.1, 1)
    else none

/-- A grant for a word that waits for a unit of weight: the word takes one, and what is left is its task's, or returns when
the task has ended (R121, R122). -/
def State.grantItem (s : State) (d : DieIx) (sc : ScopeRef) (a : Asker) : State :=
  let c := ctxIx a.ctx
  let give (m : Image) : Image := m.modEq a.q c fun e => e.giveUnit a.tid sc
  let begun (m : Image) : Bool := match (m.eqAt a.q c).words with
    | w :: _ => w.tid == a.tid && w.owed && (m.eqAt a.q c).cur.isSome
    | [] => false
  let (s1, n) := match bankOwing s.cores a.tid a.q c with
    | some (core, bank) =>
      let go := begun (s.img core bank)
      let s' := s.modImg core bank give
      (if go then s'.goOn a else s', 1)
    | none =>
      match s.taskImg a.tid with
      | some m => if (m.eqAt a.q c).owes a.tid then (s.modTask a.tid give, 1) else (s, 0)
      | none => (s, 0)
  if (s.taskImg a.tid).isSome then s1.modWeight a.tid fun w => w + (2 ^ 32 - n)
  else s1.returnWeight d (some sc) (2 ^ 32 - n)

/-- A grant for a word of a task that has ended returns (R122). -/
def State.grantTo (s : State) (d : DieIx) (sc : ScopeRef) (a : Asker) (f : State → State) : State :=
  if (s.taskImg a.tid).isSome then f (s.modWeight a.tid fun w => w + 2 ^ 32) else s.returnWeight d (some sc) (2 ^ 32)

/-- The root of a scope learns that a grant has arrived (R121). -/
def State.granted (s : State) (sc : ScopeRef) : State :=
  if sc.pkg = s.pkg.num then
    (s.modScope sc.die sc.s fun (x : Scope) => { x with borrows := x.borrows - 1 }).checkQuiet sc.die sc.s
  else s.send sc.pkg (.granted sc.die sc.s)

/-- BORROW_GRANT (R121): at the requester, which goes on. -/
def execBorrowGrant (s : State) : Out :=
  match s.focus.event with
  | some (.borrowGrant sc need) =>
    let s2 := match need with
      | .enqueue e b src w first => s.enqueue e b src (some (w + 2 ^ 32, some sc)) first
      | .root e b src w => s.putRecord e b src w (some sc) true
      | .exit e a => s.grantTo e sc a fun s => s.goOn a
      | .split e ref u a => s.grantTo e sc a fun s => s.moveWeight e ref u a
      | .item e _ _ a => s.grantItem e sc a
    .next (s2.granted sc)
  | _ => .fault (.nothingThere "BORROW_GRANT")

/-! ### Futures (R116 to R118, R363) -/

/-- An entry's satisfaction takes effect at its dealer, its way after the operation (R117). -/
def State.satisfy (s : State) (d : DieIx) (ref : BitVec 32) (v : BitVec 32) (poison : Bool) : State :=
  let t : DieIx := Fin.ofNat 4 (fld 20 19 ref.toNat)
  let p := fld 28 23 ref.toNat
  if p = s.pkg.num then s.schedule (s.now + dealerWay d t) (rankDealer + 1) (.ev (.entrySatisfaction ref v poison))
  else s.send p (.satisfy ref v poison)

def State.entryOf (s : State) (ref : BitVec 32) : Option WaitEntry :=
  match s.record (Fin.ofNat 4 (fld 20 19 ref.toNat)) (fld 18 0 ref.toNat) with
  | some r => r.waits[fld 22 21 ref.toNat]?
  | none => none

def State.modEntry (s : State) (ref : BitVec 32) (f : WaitEntry → WaitEntry) : State :=
  s.modRecord (Fin.ofNat 4 (fld 20 19 ref.toNat)) (fld 18 0 ref.toNat) fun r =>
    { r with waits := r.waits.zipIdx.map fun x => if x.2 = fld 22 21 ref.toNat then f x.1 else x.1 }

/-- The link of an entry (R116): of a record of another package, as this dealer keeps it. -/
def State.linkOf (s : State) (d : DieIx) (ref : BitVec 32) : Option (BitVec 32) :=
  if fld 28 23 ref.toNat = s.pkg.num then (s.entryOf ref).map fun e => e.link
  else (s.die d).farLinks.find ref.toNat

/-- The entry's link is written. -/
def State.setLink (s : State) (d : DieIx) (ref h : BitVec 32) : State :=
  if fld 28 23 ref.toNat = s.pkg.num then s.modEntry ref fun e => { e with link := h, listed := true }
  else s.modDie d fun k => { k with farLinks := k.farLinks.put ref.toNat h }

/-- The entries on a list from its head (R116), at most `n`. -/
def State.entryList (s : State) (d : DieIx) : Nat → BitVec 32 → List (BitVec 32)
  | 0, _ => []
  | n + 1, ref =>
    if ref = 0xFFFFFFFF then []
    else match s.linkOf d ref with
      | some h => ref :: s.entryList d n h
      | none => [ref]

/-- Every entry on a list is satisfied, in list order (R117, R363). -/
def State.satisfyList (s : State) (d : DieIx) (h : BitVec 32) (v : BitVec 32) (poison : Bool) : State :=
  let l := s.entryList d (4 * slotCount) h
  (s.each l fun s e => s.satisfy d e v poison).modDie d fun k =>
    { k with farLinks := l.foldl (fun m e => m.del e.toNat) k.farLinks }

/-- The fault of an operation whose future lies in a DRAM-layer row that is not open (R363). -/
def State.futClosed (s : State) (name : Word) : Bool :=
  nameLayer name == 4 && !(s.rowOpen (nameColIx name) (nameOffset name))

/-- The bank of a future's word at its dealer (R118). R100's field OFFSET holds bits [30:3] of the byte offset; the OFFSET
that R118 shifts by 3 is read as the byte offset, so the bank is that field modulo 16 (log 107). -/
def futBank (name : Word) : Nat := nameOffset name / 8 % 16

/-- What an operation on a future is, when its line is served. -/
def FutOp.asks (op : FutOp) (name : Word) : LineAsker :=
  match op with
  | .create a => .unit (.futureCreate name a)
  | .join r a => .unit (.futureJoin name r a)
  | .resolve v a => .unit (.futureResolve name v a)
  | .poison c => .unit (.futurePoison name c)
  | .peek a => .msg (nameDie name) (.peek name a)

/-- The word that an operation on a future comes from. -/
def FutOp.asker (op : FutOp) : Option Asker :=
  match op with
  | .create a => a
  | .join _ a => a
  | .resolve _ a => a
  | .poison _ => none
  | .peek a => some a

/-- Of a join and a resolution, or a resolution and a poison, that reach a bank in one cycle, either may come first (R118,
R363). -/
def FutOp.rival (x y : FutOp) : Bool :=
  match x, y with
  | .join _ _, .resolve _ _ | .resolve _ _, .join _ _ | .resolve _ _, .poison _ | .poison _, .resolve _ _ => true
  | _, _ => false

/-- The first operation that a bank of future words has received asks for its line: the port of an SRAM slice serves it, or
CE4 among the commands of its slice (R61, R100). -/
def State.futAsk (s : State) (d : DieIx) (b : Nat) : State :=
  match (s.die d).futQ.get [] b with
  | [] => s
  | (name, op) :: _ =>
    s.askLine rankUnit
      { line := nameKey name / 256, wr := true, cls := 0, since := s.now, ord := ordDealer d, who := op.asks name }

/-- An earlier `s.fjoin` of the same core to the same word is still on its way (R118). -/
def State.futBehind (s : State) (sent : Nat) (name : Word) (op : FutOp) : Bool :=
  match op.asker.bind s.askerCore with
  | none => false
  | some c =>
    s.agenda.any fun e => match e.act with
      | .dealer _ (.join t _ n a) => n == name && decide (t < sent) && s.askerCore a == some c
      | .dealer _ (.reach t n (.join _ (some a))) => n == name && decide (t < sent) && s.askerCore a == some c
      | _ => false

/-- An operation reaches the bank of its future's word (R118): the banks perform one operation a cycle each, in order of
arrival. An operation that could be taken before or after another of its cycle lets it pass, or not, as a free choice
says. -/
def State.futReach (s : State) (d : DieIx) (sent : Nat) (name : Word) (op : FutOp) : State :=
  let again (s : State) (n rank : Nat) : State := s.schedule n rank (.dealer d (.reach sent name op))
  if s.futBehind sent name op then again s (s.now + 1) rankUnit
  else
    let rival := s.agenda.any fun x => decide (x.due = s.now ∧ x.rank < rankUnit + 190) && match x.act with
      | .dealer _ (.reach _ n o) => n == name && op.rival o
      | _ => false
    let (f, s1) := if rival then s.nextFree else (0, s)
    if rival && Config.freeChoice f then again s1 s1.now (rankUnit + 190)
    else
      let b := futBank name
      let q := (s1.die d).futQ.get [] b
      let s2 := s1.modDie d fun k => { k with futQ := k.futQ.put b (q ++ [(name, op)]) }
      if !q.isEmpty then s2
      else if s.now < (s.die d).futBusy.get 0 b then s2.schedule ((s.die d).futBusy.get 0 b) rankUnit (.dealer d (.turn b))
      else s2.futAsk d b

/-- An operation of a bank is performed: the bank turns to its next one in the next cycle. -/
def State.futDone (s : State) (name : Word) (op : FutOp) : State :=
  let d := nameDie name
  let b := futBank name
  match (s.die d).futQ.get [] b with
  | [] => s
  | x :: rest =>
    if x ≠ (name, op) then s
    else
      let s1 := s.modDie d fun k => { k with futQ := k.futQ.put b rest, futBusy := k.futBusy.put b (s.now + 1) }
      if rest.isEmpty then s1 else s1.schedule (s1.now + 1) rankUnit (.dealer d (.turn b))

/-- The word at a future's name, as its dealer reads it: a poisoned granule fails the task it serves (R338). -/
def State.futRead (s : State) (name : Word) (a : Option Asker) : State × Option Nat :=
  let k := nameKey name
  let (bad, s1) := s.unitRead k 8
  match bad with
  | some _ =>
    (match a with
      | some a => if a.via.isSome then s1.answerTo 0 a [] (some 0x0E01) else s1.taskFault a.tid 0x0E01 (some (s1.keyAddr k))
      | none => s1.report (nameDie name) 0x0E01 (s1.keyAddr k), none)
  | none => (s1.dramTouch k true, some (s1.read k 8))

/-- A future operation is answered to the word that asked, or its refusal is; one that no word asked for is reported with
CTX 3 (R363). -/
def State.futAnswer (s : State) (name : Word) (a : Option Asker) (bad : Option (BitVec 16)) : State :=
  let d := nameDie name
  match a, bad with
  | some a, none => (s.dealerAnswer d (some a) []).itemDone d (some a)
  | some a, some c => (s.dealerRefuses d a c).itemDone d (some a)
  | none, some c => s.launchReport d c
  | none, none => s

/-- FUTURE_CREATE (R117, R363). -/
def State.futCreate (s : State) (name : Word) (a : Option Asker) : State :=
  if s.futClosed name then s.futAnswer name a (some 0x0A06)
  else match s.futRead name a with
    | (s1, none) => s1
    | (s1, some w) =>
      if w % 4 = 1 then s1.futAnswer name a (some 0x0A06)
      else
        let s2 := s1.write (nameKey name) 8 0
        let s3 := match a.filter fun (k : Asker) => k.via.isNone with
          | some a => s2.modTask a.tid fun (m : Image) =>
            { m with task := m.task.map fun (t : Task) => { t with futures := t.futures ++ [name] } }
          | none => s2
        s3.futAnswer name a none

/-- FUTURE_JOIN (R117, R363). -/
def State.futJoin (s : State) (name : Word) (ref : BitVec 32) (a : Option Asker) : State :=
  let d := nameDie name
  if s.futClosed name then
    match a with
    | some _ => s.futAnswer name a (some 0x0A06)
    | none => s.satisfy d ref 0x0801 true
  else match s.futRead name a with
    | (s1, none) => s1
    | (s1, some w) =>
      let s2 := match w % 4 with
        | 2 => s1.satisfy d ref (BitVec.ofNat 32 (w / 2 ^ 32)) false
        | 3 => s1.satisfy d ref (BitVec.ofNat 32 (w / 2 ^ 32)) true
        | st =>
          let h := if st = 1 then BitVec.ofNat 32 (w / 2 ^ 32) else 0xFFFFFFFF
          (s1.setLink d ref h).write (nameKey name) 8 (1 + ref.toNat * 2 ^ 32)
      s2.futAnswer name a none

/-- FUTURE_RESOLVE (R117, R363). -/
def State.futResolve (s : State) (name : Word) (v : BitVec 32) (a : Option Asker) : State :=
  let d := nameDie name
  if s.futClosed name then s.futAnswer name a (some 0x0A06)
  else match s.futRead name a with
    | (s1, none) => s1
    | (s1, some w) =>
      let h := BitVec.ofNat 32 (w / 2 ^ 32)
      let done (s : State) : State :=
        let s1 := s.write (nameKey name) 8 (2 + v.toNat * 2 ^ 32)
        match a.filter fun (k : Asker) => k.via.isNone with
        | some a => s1.modTask a.tid fun (m : Image) =>
          { m with task := m.task.map fun (t : Task) => { t with futures := t.futures.filter fun n => n != name } }
        | none => s1
      match w % 4 with
      | 0 => (done s1).futAnswer name a none
      | 1 => ((done s1).satisfyList d h v false).futAnswer name a none
      | 2 => s1.futAnswer name a (some 0x0A04)
      | _ => s1.futAnswer name a none

/-- FUTURE_POISON (R363). -/
def State.futPoison (s : State) (name : Word) (code : BitVec 16) : State :=
  let d := nameDie name
  if s.futClosed name then s.launchReport d 0x0A06
  else match s.futRead name none with
    | (s1, none) => s1
    | (s1, some w) =>
      let put (s : State) : State := s.write (nameKey name) 8 (3 + code.toNat * 2 ^ 32)
      match w % 4 with
      | 0 => put s1
      | 1 =>
        (put s1).satisfyList d (BitVec.ofNat 32 (w / 2 ^ 32)) (code.setWidth 32) true
      | _ => s1

def execFutureCreate (s : State) : Out :=
  match s.focus.event with
  | some (.futureCreate name a) => .next ((s.futDone name (.create a)).futCreate name a)
  | _ => .fault (.nothingThere "FUTURE_CREATE")

def execFutureJoin (s : State) : Out :=
  match s.focus.event with
  | some (.futureJoin name ref a) => .next ((s.futDone name (.join ref a)).futJoin name ref a)
  | _ => .fault (.nothingThere "FUTURE_JOIN")

def execFutureResolve (s : State) : Out :=
  match s.focus.event with
  | some (.futureResolve name v a) => .next ((s.futDone name (.resolve v a)).futResolve name v a)
  | _ => .fault (.nothingThere "FUTURE_RESOLVE")

def execFuturePoison (s : State) : Out :=
  match s.focus.event with
  | some (.futurePoison name code) => .next ((s.futDone name (.poison code)).futPoison name code)
  | _ => .fault (.nothingThere "FUTURE_POISON")

/-- ENTRY_SATISFACTION (R117, R115, R364). -/
def execEntrySatisfaction (s : State) : Out :=
  match s.focus.event with
  | some (.entrySatisfaction ref v poison) =>
    let d : DieIx := Fin.ofNat 4 (fld 20 19 ref.toNat)
    let slot := fld 18 0 ref.toNat
    let s1 := s.modEntry ref fun e => { e with sat := some (v, poison), listed := false }
    .next (match s1.record d slot with
      | none => s1
      | some r =>
        if r.husk then (if r.waits.any fun w => w.listed then s1 else s1.freeSlot d slot)
        else if poison then s1.failRecord d slot (v.setWidth 16)
        else if !r.runnable ∧ (r.waits.all fun w => w.sat.isSome) = true then s1.becomeRunnable d slot
        else s1)
  | _ => .fault (.nothingThere "ENTRY_SATISFACTION")

/-! ### Requests (R278, R281, R282) -/

/-- The tasks of a launch that have started and not reached their boundary. -/
def State.tasksOf (s : State) (d : DieIx) (slot : Nat) : List Nat :=
  s.images.filterMap fun m => match m.task with
    | some t => if t.die = d ∧ t.slot = slot then some t.tid else none
    | none => none

/-- The boundary of an unnamed phase: every task of the launch that runs has arrived (R153, R281). -/
def State.phaseCheck (s : State) (d : DieIx) (slot : Nat) : State :=
  match s.record d slot with
  | none => s
  | some r =>
    let l := s.tasksOf d slot
    if r.arrived.isEmpty ∨ !(l.all fun t => r.arrived.contains t) then s
    else (s.setRecord d slot { r with arrived := [] }).schedule s.now (rankDealer + 170) (.ev (.phaseBoundary r.arrived))

/-- A request reaches a dealer. -/
def State.dealerMsg (s : State) (d : DieIx) (x : DealerMsg) : State :=
  match x with
  | .join sent ref name a =>
    let slot := fld 18 0 ref.toNat
    let i := fld 22 21 ref.toNat
    (match s.record d slot with
    | none => s.dealerRefuses d a 0x0A06
    | some r =>
      if r.runnable || r.husk || r.failed.isSome || nameKind (r.waits.getD i ⟨1, none, 0, false⟩).name != 0 then
        s.dealerRefuses d a 0x0A06
      else if namePkg name ≠ s.pkg.num ∧ s.reaches (namePkg name) = false then s.dealerRefuses d a 0x0F01
      else
        let s1 := s.modEntry ref fun e => { e with name, sat := none }
        let x : DealerMsg := .reach sent name (.join ref (some a))
        if namePkg name = s.pkg.num then
          s1.schedule (s.now + if nameDie name = d then 0 else 24) rankUnit (.dealer (nameDie name) x)
        else s1.send (namePkg name) (.dealer (nameDie name) x))
  | .reach sent name op => s.futReach d sent name op
  | .turn b => s.futAsk d b
  | .peek name a =>
    let s0 := s.futDone name (.peek a)
    if s0.futClosed name then s0.dealerRefuses d a 0x0A06
    else
      (match s0.futRead name (some a) with
      | (s1, none) => s1
      | (s1, some w) => s1.dealerAnswer d (some a) [BitVec.ofNat 64 w])
  | .qopen i a =>
    if (s.scope d i.val).opened then s.dealerRefuses d a 0x0A08
    else
      (s.modScope d i fun (y : Scope) => { y with kitty := 2 ^ 63, ret := 0, opened := true, borrows := 0 }).dealerAnswer d
        (some a) []
  | .qclose i a =>
    if (s.scope d i.val).quiet then
      (s.modScope d i fun (y : Scope) => { y with kitty := 0, ret := 0, opened := false, borrows := 0 }).dealerAnswer d (some a) []
    else s.dealerRefuses d a 0x0A08
  | .qstat i a => s.dealerAnswer d (some a) [(s.scope d i.val).stat]
  | .waitq i a =>
    let y := s.scope d i.val
    if !y.opened || y.quiet then s.dealerAnswer d (some a) [y.stat]
    else s.modScope d i fun (y : Scope) => { y with waiters := y.waiters ++ [a] }
  | .qsplit ref u a =>
    (match (s.taskImg a.tid).bind fun m => m.task with
    | none => s
    | some t =>
      match t.scope with
      | none => s.dealerAnswer d (some a) []
      | some r => if t.weight ≤ u then s.borrow 0 r (.split d ref u a) else s.moveWeight d ref u a)
  | .qret u a =>
    (match (s.taskImg a.tid).bind fun m => m.task with
    | none => s
    | some t =>
      let n := min u (t.weight - 1)
      ((s.modWeight a.tid fun w => w - n).returnWeight d t.scope n).dealerAnswer d (some a) [])
  | .moved ref u sc =>
    let slot := fld 18 0 ref.toNat
    (match s.record d slot with
    | some r => if r.husk then s.returnWeight d sc u else s.setRecord d slot { r with compShare := r.compShare + u }
    | none => s.returnWeight d sc u)
  | .arrive slot tid =>
    (s.modRecord d slot fun r => { r with arrived := r.arrived ++ [tid] }).phaseCheck d slot

/-! ### Completion (R105, R359, R362) -/

/-- DONENEXT is read and enqueued with the completion share, and then the record's slot is freed; the share returns when
there is none (R105). What is written in this very cycle is seen (log 108). -/
def State.doneNext (s : State) (d : DieIx) (slot : Nat) (r : Record) : State :=
  let a := blkDoneNext r.blk
  if a = 0 ∨ r.failed.isSome = true then (s.returnWeight d r.scope r.compShare).freeSlot d slot
  else match locOf (dieCore d 0) a with
    | none => (s.returnWeight d r.scope r.compShare).freeSlot d slot
    | some l =>
      let (bad, s1) := s.unitRead l.key 128
      match bad with
      | some g => ((s1.report d 0x0E01 (s1.keyAddr g)).returnWeight d r.scope r.compShare).freeSlot d slot
      | none =>
        let b := (List.range 16).map fun i => BitVec.ofNat 64 (s1.read (l.key + 8 * i) 8)
        if !(s1.blockBad d b) && s1.targetPkg b == s1.pkg.num && (s1.die (targetDie d b)).freeSlot.isNone then
          s1.setRecord d slot { r with stuck := true }
        else (s1.enqueue d b (.doneNext d) (some (r.compShare, r.scope)) true).freeSlot d slot

/-- DONEBAR is signalled with the count of groups (R105). A signal to another die, or package, holds a unit of the completion
share until it is performed there (R120). -/
def State.signalDone (s : State) (d : DieIx) (slot : Nat) (r : Record) : State × Record :=
  let bar := blkDoneBar r.blk
  if nameKind bar ≠ 1 then (s, r)
  else
    let col := nameColIx bar
    let s1 := s.toBu (dealerBu d col) (.dealer d) d bar (.count r.groups none)
    let own := namePkg bar == s.pkg.num
    if (own && colDie col == d) || r.scope.isNone || r.compShare == 0 then (s1, r)
    else
      let r' := { r with compShare := r.compShare - 1 }
      if own then ((s1.setRecord d slot r').returnLater (dealerBu d col) d r.scope 1, r')
      else
        let (f, s2) := (s1.setRecord d slot r').nextFree
        (s2.returnLater (1 + Config.freeLatency f) d r.scope 1, r')

/-- A launch of the die with a lower sequence number completes in this cycle too. -/
def State.completesLater (s : State) (d : DieIx) (r : Record) : Bool :=
  s.agenda.any fun e => decide (e.due ≤ s.now) && match e.act with
    | .ev (.launchCompletion d' k) => d' == d && (match s.record d k with
      | some x => decide (x.seq < r.seq)
      | none => false)
    | _ => false

/-- LAUNCH_COMPLETION (R105): of the launches that complete in one cycle, those with lower sequence numbers first (R103). -/
def State.complete (s : State) (d : DieIx) (slot : Nat) : State :=
  match s.record d slot with
  | none => s
  | some r =>
    if !r.runnable || r.husk || r.stuck || r.done != r.groups then s
    else if s.completesLater d r then s.schedule s.now (rankDealer + 128) (.ev (.launchCompletion d slot))
    else
      let (s1, r1) := match r.failed with
        | some c => (s.loseDone (blkDoneBar r.blk) c, r)
        | none => s.signalDone d slot r
      s1.doneNext d slot r1

def execLaunchCompletion (s : State) : Out :=
  match s.focus.event with
  | some (.launchCompletion d slot) => .next (s.complete d slot)
  | _ => .fault (.nothingThere "LAUNCH_COMPLETION")

/-- DONENEXT_DEFERRED (R359): a slot may be free now. -/
def execDonenextDeferred (s : State) : Out :=
  match s.focus.event with
  | some (.donenextDeferred d slot) =>
    .next (match s.record d slot with
      | none => s
      | some r => if r.stuck then (s.setRecord d slot { r with stuck := false }).doneNext d slot { r with stuck := false } else s)
  | _ => .fault (.nothingThere "DONENEXT_DEFERRED")

/-- A group of a launch has reached its task boundary, or has failed for good. -/
def State.groupDone (s : State) (d : DieIx) (slot : Nat) : State :=
  match s.record d slot with
  | none => s
  | some r =>
    let s1 := (s.setRecord d slot { r with done := r.done + 1 }).phaseCheck d slot
    if r.done + 1 = r.groups then s1.schedule s1.now (rankDealer + 128) (.ev (.launchCompletion d slot)) else s1

/-! ### The choice (R106 to R112, R311) -/

/-- The class of the gang that reserves a core. -/
def State.gangClass (s : State) (c : CoreIx) : Option Nat :=
  match (s.core c).reserved with
  | none => none
  | some slot => (s.record (coreDie c) slot).map Record.cls

/-- Eligible of R108, with R348. -/
def State.eligible (s : State) (c : CoreIx) (cls : Nat) : Bool :=
  let k := s.core c
  decide (k.hand.length < 2) && !k.out && match s.gangClass c with
    | some g => decide (g < cls)
    | none => true

/-- No task in either bank (R106). -/
def Core.idle (k : Core) : Bool := k.banks[0].status == .idle && k.banks[1].status == .idle

/-- A bank that holds no task, or a stopped FILLER task, which delays nothing (R112). -/
def Bank.yields (b : Bank) : Bool :=
  b.status == .idle || (b.status == .stopped && b.img.sysFault.isNone && b.img.task.any fun t => t.cls == 0)

/-- A bank of a core is free. -/
def Core.hasFree (k : Core) : Bool := k.banks[0].status == .idle || k.banks[1].status == .idle

/-- Idle with an empty hand, for a gang: a stopped FILLER task whose image stays in a bank does not count (R108, R112, log
109). -/
def Core.open (k : Core) : Bool := k.hand.isEmpty && !k.out && k.banks[0].yields && k.banks[1].yields && k.hasFree

/-- No task in either bank but the stopped one that is dealt (R106, R111, log 109). -/
def Core.idleFor (k : Core) (tid : Option Nat) : Bool :=
  let own (b : Bank) : Bool := b.status == .idle || (b.status == .stopped && tid.any fun t => b.img.holds t)
  own k.banks[0] && own k.banks[1] && k.hasFree

/-- The free bank of a core in which a gang's task starts: the front one, if it is free. -/
def Core.freeBank (k : Core) : BankIx := if k.banks[k.front.val].status = .idle then k.front else k.front + 1

/-- The place of a core in the order of Pick: AVOID first (R311), then idle with an empty hand, busy with an empty hand,
busy with one entry (R108). -/
def State.pickRank (s : State) (c : CoreIx) : Nat :=
  let k := s.core c
  (if bitAt 12 (s.col (coreCol c)).thermal.toNat then 3 else 0) + (if k.idle && k.hand.isEmpty then 0 else if k.hand.isEmpty then 1 else 2)

/-- The first core of the least rank among those a test admits. -/
def State.pick (s : State) (d : DieIx) (ok : CoreIx → Bool) : Option CoreIx :=
  (((List.range 64).map (dieCore d)).filter ok).foldl (fun best c => match best with
    | none => some c
    | some b => if s.pickRank c < s.pickRank b then some c else some b) none

/-- The records that may deal a group of a class, by rising sequence number. -/
def State.runnables (s : State) (d : DieIx) (cls : Nat) : List (Nat × Record) :=
  ((s.die d).records.filter fun x => x.2.left && x.2.cls == cls).foldl (fun l x =>
    (l.filter fun y => decide (y.2.seq < x.2.seq)) ++ x :: l.filter fun y => decide (x.2.seq < y.2.seq)) []

/-- A gang of which nothing has been dealt. -/
def Record.newGang (r : Record) : Bool := blkGang r.blk && r.again.isEmpty && r.next == 0

/-- The next group a record deals: one that has come back first, then the next index. -/
def Record.nextGroup (r : Record) : Redeal :=
  match r.again with
  | x :: _ => x
  | [] => { group := r.next, weight := r.groupShare, replays := 0, tid := none, avoid := none }

def Record.dealt (r : Record) : Record :=
  match r.again with
  | _ :: rest => { r with again := rest }
  | [] => { r with next := r.next + 1 }

/-- The hand entry of a group. -/
def Record.entry (r : Record) (slot : Nat) (x : Redeal) : HandEntry :=
  { slot, group := x.group, weight := x.weight, replays := x.replays, cls := r.cls, tid := x.tid, ready := r.ready }

/-- A hand entry goes back to its record (R107). -/
def State.handBack (s : State) (d : DieIx) (h : HandEntry) : State :=
  s.modRecord d h.slot fun r =>
    { r with again := { group := h.group, weight := h.weight, replays := h.replays, tid := h.tid, avoid := none } :: r.again }

/-- A core's next start is tried: its hand's head may have a bank (R107). -/
def State.tryStart (s : State) (c : CoreIx) : State :=
  if (s.core c).hand.isEmpty then s else s.schedule s.now (rankDealer + 210) (.ev (.taskStart c))

/-- An entry is dealt to a core's hand, at its end or its head; a FILLER entry there is withdrawn (R106). -/
def State.deal (s : State) (c : CoreIx) (h : HandEntry) (head : Bool) : State :=
  let d := coreDie c
  let gone := if h.cls = 0 then [] else (s.core c).hand.filter fun e => e.cls == 0
  let s1 := s.each gone fun s e => s.handBack d e
  (s1.modCore c fun k =>
    let l := if h.cls = 0 then k.hand else k.hand.filter fun e => e.cls != 0
    { k with hand := if head then h :: l else l ++ [h] }).tryStart c

/-- A save slot is free (R114). -/
def State.hasSlot (s : State) (d : DieIx) : Bool := decide (0 < s.slotsFree d)

/-- Whether a group may go to a core: a replayed group not to the core it failed on, unless no other has been eligible for
65,536 cycles (R362); a stopped task's image leaves its bank only for a save slot (R114). -/
def State.mayTake (s : State) (d : DieIx) (x : Redeal) (c : CoreIx) : Bool :=
  (match x.avoid with
    | some (k, since) => c != k || decide (since + 65536 ≤ s.now)
    | none => true) &&
  (match x.tid with
    | some t => (match s.bankOf t with
      | some (k, _) => c == k || s.hasSlot d
      | none => true)
    | none => true)

/-- The save slots of a die that are assigned, or reserved for a filler (R114, R123). -/
def Die.slotsUsed (k : Die) : List Nat := (k.saved.filterMap fun x => x.slot) ++ k.fillers.filterMap (·.slot)

/-- The slot reserved for the filler that runs on a core (R123). -/
def Die.keptSlot (k : Die) (c : CoreIx) : Option Nat := (k.fillers.find? fun x => x.core == c).bind (·.slot)

/-- The lowest slot that is free: R114 names no order (log 111). -/
def Die.lowSlot (k : Die) : Nat :=
  ((List.range (k.slotsUsed.length + 1)).find? fun i => !(k.slotsUsed.contains i)).getD 0

/-- A stopped task's image leaves its bank for a save slot (R111, R114), the one reserved for it or the lowest that is free:
the writing takes no fixed time (R96). -/
def State.moveTo (s : State) (c : CoreIx) (b : BankIx) (reserved : Option Nat) : State :=
  let d := coreDie c
  match (s.img c b).task with
  | none => s
  | some t =>
    if (s.die d).saved.any fun x => x.holds t.tid then s
    else
      let fault := ((s.img c b).sysFault).getD #v[0, 0, 0, 0]
      let x : Saved :=
        { slot := some (reserved.getD (s.die d).lowSlot), task := t, img := s.img c b, window := [], fault
          faulted := (s.img c b).sysFault.isSome, complete := false }
      let (f, s1) := (s.modDie d fun k => { k with saved := k.saved ++ [x] }).nextFree
      s1.schedule (s1.now + 1 + Config.freeLatency f) rankDealer (.ev (.imageSaveComplete d t.tid))

def State.moveOut (s : State) (c : CoreIx) (b : BankIx) : State := s.moveTo c b none

/-- Banks that keep a task of the system route until a slot is free write it out (R322). -/
def State.moveStuck (s : State) (d : DieIx) : State :=
  let stuck : List (CoreIx × BankIx) := (List.range 64).flatMap fun i =>
    let c := dieCore d i
    ([0, 1] : List BankIx).filterMap fun b =>
      let k := s.bank c b
      if k.status = .stopped ∧ k.img.sysFault.isSome = true then some (c, b) else none
  s.each stuck fun s x => if s.hasSlot d then s.moveOut x.1 x.2 else s

/-- A record's next group is dealt to a core. -/
def State.dealGroup (s : State) (d : DieIx) (slot : Nat) (r : Record) (c : CoreIx) (head : Bool) : State :=
  let x := r.nextGroup
  let s1 := s.setRecord d slot r.dealt
  let s2 := match x.tid.bind fun t => s1.bankOf t with
    | some (k, b) => if k = c then s1 else s1.moveOut k b
    | none => s1
  s2.deal c (r.entry slot x) head

/-- A core may take the next group of a record (R108). -/
def State.takes (s : State) (d : DieIx) (r : Record) (c : CoreIx) : Bool := s.eligible c r.cls && s.mayTake d r.nextGroup c

/-- An idle core may take the next group of a FILLER record (R106); `held`: cores kept for a gang. -/
def State.takesFiller (held : List CoreIx) (s : State) (d : DieIx) (r : Record) (c : CoreIx) : Bool :=
  let k := s.core c
  k.idleFor r.nextGroup.tid && k.hand.isEmpty && k.reserved.isNone && !(held.contains c) && s.takes d r c

/-- Placements of a record's groups one by one on cores that satisfy a test, while there is one to make; the placements
left. -/
def State.dealRecord (ok : State → DieIx → Record → CoreIx → Bool) (s : State) (d : DieIx) (slot : Nat) : Nat → State × Nat
  | 0 => (s, 0)
  | n + 1 =>
    match s.record d slot with
    | none => (s, n + 1)
    | some r =>
      if !r.left then (s, n + 1)
      else match s.pick d (ok s d r) with
        | none => (s, n + 1)
        | some c => State.dealRecord ok (s.dealGroup d slot r c false) d slot n

/-- The cores of a run of n from a die core index on. -/
def runCores (d : DieIx) (first n : Nat) : List CoreIx := (List.range n).map fun i => dieCore d (first + i)

/-- Whether n cores from a die core index on all satisfy a test. -/
def State.runOk (s : State) (d : DieIx) (first n : Nat) (ok : CoreIx → Core → Bool) : Bool :=
  decide (first + n ≤ 64) && (runCores d first n).all fun c => ok c (s.core c)

/-- The lowest run of n cores that all satisfy a test. -/
def State.findRun (s : State) (d : DieIx) (n : Nat) (ok : CoreIx → Core → Bool) : Option Nat :=
  (List.range 64).find? fun f => s.runOk d f n ok

/-- A column's cores are to be avoided (R311). -/
def State.avoids (s : State) (c : CoreIx) : Bool := bitAt 12 (s.col (coreCol c)).thermal.toNat

/-- The lowest run of n cores that all satisfy a test: one without a core of a column to be avoided, if there is one (R311,
log 110). -/
def State.findRunOff (s : State) (d : DieIx) (n : Nat) (ok : CoreIx → Core → Bool) : Option Nat :=
  (s.findRun d n fun c k => ok c k && !(s.avoids c)).orElse fun _ => s.findRun d n ok

/-- A gang takes its reservation, if a run overlaps no other (R109). -/
def State.reserve (s : State) (d : DieIx) (slot : Nat) : State :=
  match s.record d slot with
  | none => s
  | some r =>
    if !r.left || !r.newGang || r.reserved.isSome || !(r.cls == 3 || decide (r.runnableAt + 65536 ≤ s.now)) then s
    else match s.findRun d r.groups fun _ k => k.reserved.isNone && !k.out with
      | none => s
      | some f =>
        (s.setRecord d slot { r with reserved := some f }).each (List.range r.groups) fun s i =>
          s.modCore (dieCore d (f + i)) fun k => { k with reserved := some slot }

/-- GANG_RESERVATION (R109). -/
def execGangReservation (s : State) : Out :=
  match s.focus.event with
  | some (.gangReservation d slot) => .next ((s.reserve d slot).wantChoice d)
  | _ => .fault (.nothingThere "GANG_RESERVATION")

/-- A gang that may start does (R108): the event is due in this cycle. -/
def State.tryGang (s : State) (d : DieIx) (slot : Nat) (r : Record) (held : List CoreIx) : State × Bool :=
  let start (s : State) (f : Nat) : State :=
    ((s.setRecord d slot { r with next := r.groups, reserved := some f }).each (runCores d f r.groups) fun s c =>
      s.modCore c fun k => { k with reserved := some slot }).schedule s.now (rankDealer + 205) (.ev (.gangStart d slot f))
  match r.reserved with
  | some f => if s.runOk d f r.groups fun _ k => k.open then (start s f, true) else (s, false)
  | none =>
    match s.findRunOff d r.groups fun c k => k.open && k.reserved.isNone && !(held.contains c) with
    | some f => (start s f, true)
    | none => (s, false)

/-- The placements of one class, record by record; the placements left. -/
def State.dealClass (s : State) (d : DieIx) (cls n : Nat) : State × Nat :=
  (s.runnables d cls).foldl (fun (a : State × Nat) x =>
    match a.2 with
    | 0 => a
    | n + 1 =>
      match a.1.record d x.1 with
      | none => a
      | some r =>
        if r.newGang then
          let (s1, ok) := a.1.tryGang d x.1 r []
          (s1, if ok then n else n + 1)
        else State.dealRecord State.takes a.1 d x.1 (n + 1)) (s, n)

/-- The bank and task of the task that a core runs, or that is about to start there. -/
def Core.running (k : Core) : Option (BankIx × Task) :=
  let b := k.banks[k.front.val]
  if b.status = .running ∨ b.status = .starting then b.img.task.map fun t => (k.front, t) else none

/-- Whether a core may give way to a group of a class: its running task's stop finds a place for its image (R111, R114),
and none is asked for yet. -/
def State.mayStop (s : State) (c : CoreIx) : Bool :=
  let k := s.core c
  let m := k.banks[k.front.val].img
  m.stopReq.isNone && !m.system && !k.out &&
    (k.banks[(k.front + 1).val].status == .idle || s.hasSlot (coreDie c) || ((s.die (coreDie c)).keptSlot c).isSome)

/-- Of two victims, the one that R110 takes: the lower class, then the later start, then the higher index. -/
def betterVictim (a b : CoreIx × Task) : Bool :=
  if a.2.cls ≠ b.2.cls then decide (a.2.cls < b.2.cls)
  else if a.2.started ≠ b.2.started then decide (b.2.started < a.2.started)
  else decide (b.1.val < a.1.val)

/-- The victim among the cores whose running task satisfies a test. -/
def State.victim (s : State) (d : DieIx) (ok : CoreIx → Task → Bool) : Option CoreIx :=
  (((List.range 64).map (dieCore d)).foldl (fun (best : Option (CoreIx × Task)) c =>
    match (s.core c).running with
    | none => best
    | some (_, t) =>
      if s.mayStop c && ok c t then
        (match best with
        | none => some (c, t)
        | some b => if betterVictim (c, t) b then some (c, t) else best)
      else best) none).map (·.1)

/-- A record's group takes a victim's core (R110): the second entry of a full hand is withdrawn, the group is placed at
the head, and the running task is stopped. -/
def State.takeCore (s : State) (d : DieIx) (slot : Nat) (r : Record) (c : CoreIx) : State :=
  let k := s.core c
  let s1 := match k.hand with
    | [h, x] => (s.modCore c fun k => { k with hand := [h] }).handBack d x
    | _ => s
  (s1.dealGroup d slot r c true).after 0 rankStop (.taskStop c k.front .preempt)

/-- TRUMP records that found no core take victims (R110); the placements left. -/
def State.trumpVictims (s : State) (d : DieIx) : Nat → State × Nat
  | 0 => (s, 0)
  | n + 1 =>
    match (s.runnables d 3).find? fun x => !x.2.newGang with
    | none => (s, n + 1)
    | some (slot, r) =>
      match s.victim d fun c t => t.cls != 3 && !((s.core c).hand.any fun h => h.cls == 3) &&
          (match s.gangClass c with
            | some g => decide (g < 3)
            | none => true) && s.mayTake d r.nextGroup c with
      | some c => (s.takeCore d slot r c).trumpVictims d n
      | none => (s, n + 1)

/-- A core that a gang can have once the FILLER task that it runs has stopped (R110, R112). -/
def State.freedFor (s : State) (slot : Nat) (c : CoreIx) (k : Core) : Bool :=
  (k.reserved.isNone || k.reserved == some slot) &&
    (k.open || (k.hand.isEmpty && s.mayStop c && k.banks[(k.front + 1).val].yields &&
      (k.running.any fun x => x.2.cls == 0)))

/-- The run that a waiting gang can have once FILLER tasks have stopped: the one it reserves, or else the lowest. -/
def State.gangRun (s : State) (d : DieIx) (slot : Nat) (r : Record) : Option Nat :=
  match r.reserved with
  | some f => if s.runOk d f r.groups (s.freedFor slot) then some f else none
  | none => s.findRunOff d r.groups (s.freedFor slot)

/-- FILLER tasks give way to the gangs of class LOW or above that found no run (R110, R112); the cores kept for those. -/
def State.gangVictims (s : State) (d : DieIx) : State × List CoreIx :=
  (([3, 2, 1].flatMap fun c => s.runnables d c).filter fun x => x.2.newGang).foldl (fun (a : State × List CoreIx) x =>
    match a.1.gangRun d x.1 x.2 with
    | none => a
    | some f =>
      let l := runCores d f x.2.groups
      (a.1.each (l.filter fun c => (a.1.core c).running.isSome) fun s c =>
        s.after 0 rankStop (.taskStop c (s.core c).front .preempt), a.2 ++ l)) (s, [])

/-- The FILLER task that started latest gives way to a record of class LOW or above that found no core, as long as there are
both (R110); the placements left. -/
def State.fillerVictims (s : State) (d : DieIx) : Nat → State × Nat
  | 0 => (s, 0)
  | n + 1 =>
    match ((s.runnables d 2) ++ (s.runnables d 1)).find? fun x => !x.2.newGang with
    | none => (s, n + 1)
    | some (slot, r) =>
      match s.victim d fun c t => t.cls == 0 && !((s.core c).hand.any fun h => decide (r.cls ≤ h.cls)) &&
          (match s.gangClass c with
            | some g => decide (g < r.cls)
            | none => true) && s.mayTake d r.nextGroup c with
      | some c => (s.takeCore d slot r c).fillerVictims d n
      | none => (s, n + 1)

/-- FILLER groups go to idle cores with empty hands (R106), but not to those kept for gangs; the placements left. -/
def State.dealFiller (s : State) (d : DieIx) (held : List CoreIx) (n : Nat) : State × Nat :=
  (s.runnables d 0).foldl (fun (a : State × Nat) x =>
    match a.2 with
    | 0 => a
    | n + 1 =>
      match a.1.record d x.1 with
      | none => a
      | some r =>
        if r.newGang then
          let (s1, ok) := a.1.tryGang d x.1 r held
          (s1, if ok then n else n + 1)
        else State.dealRecord (State.takesFiller held) a.1 d x.1 (n + 1)) (s, n)

/-- DEALER_CHOICE (R108): at most four placements in a cycle; what is left is tried in the next. -/
def State.choice (s : State) (d : DieIx) : State :=
  let sm := s.moveStuck d
  let gangs := ([3, 2, 1, 0].flatMap fun c => sm.runnables d c).filter fun x => x.2.newGang
  let oldest := gangs.foldl (fun l x =>
    (l.filter fun (y : Nat × Record) => decide (y.2.seq < x.2.seq)) ++ x :: l.filter fun y => decide (x.2.seq < y.2.seq)) []
  let s0 := sm.each oldest fun s x => s.reserve d x.1
  let (s1, n1) := s0.dealClass d 3 4
  let (s2, n2) := s1.dealClass d 2 n1
  let (s3, n3) := s2.dealClass d 1 n2
  let (s4, n4) := s3.trumpVictims d n3
  let (s5, held) := s4.gangVictims d
  let (s6, n6) := s5.fillerVictims d n4
  let (s7, n7) := s6.dealFiller d held n6
  if n7 = 0 then s7.schedule (s7.now + 1) (rankDealer + 200) (.ev (.dealerChoice d)) else s7

def execDealerChoice (s : State) : Out :=
  match s.focus.event with
  | some (.dealerChoice d) => .next (s.choice d)
  | _ => .fault (.nothingThere "DEALER_CHOICE")

end Sys2Proof.Machine
end

