-- ==== Sys2Proof/Machine/Snapshot.lean ====
section
/-! DEFINITION. The snapshot image of a task as it stands in a save slot (R95, R114, R143, R223, R235, R256, R264, R268,
R333): its bytes, their writing, and the check of its header (R334). -/

namespace Sys2Proof.Machine

open Sys2Proof

/-- Bytes of an image: offset, length and value. -/
abbrev Part := Nat × Nat × Nat

/-- n items of a list, one every `step` bytes from an offset. -/
def partsOf {α : Type} (off step : Nat) (l : List α) (f : Nat → α → List Part) : List Part :=
  l.zipIdx.flatMap fun x => f (off + step * x.2) x.1

/-- Double words from an offset on. -/
def partWords (off : Nat) (l : List Word) : List Part := partsOf off 8 l fun o w => [(o, 8, w.toNat)]

/-- The task's context (R95). -/
def Context.parts (x : Context) (o : Nat) : List Part :=
  partWords o x.g.toList ++
    [(o + 256, 8, x.pc.toNat), (o + 264, 8, x.lc.toNat), (o + 272, 8, x.ec.toNat), (o + 280, 8, x.rot.toNat),
      (o + 288, 8, x.p.toNat), (o + 296, 8, x.vstatus.toNat),
      (o + 304, 8, (if x.ended then 1 else 0) + if x.blocked then 2 else 0)]

/-- The words that stand in an engine queue, as their bits. -/
def EngWord.bits (w : EngWord) : List Nat :=
  match w.instr with
  | .unassignedWord v => v.toNat :: List.replicate (w.len - 1) 0
  | i => (encode i).map (·.toNat)

/-- The dimension entries of a copy command, ORG and then EXT, 6 bytes each (R256). -/
def dimParts (o : Nat) (l : List Word) : List Part :=
  partsOf o 6 l fun o w => [(o, 4, w.toNat % 2 ^ 32), (o + 4, 2, fld 47 32 w.toNat)]

/-- Bytes [8–63] of an engine-queue record (R91, R223, R235, R256, R264, R268). -/
def Cur.parts (k : Cur) (q : Nat) (instr : Instr) (o : Nat) : List Part :=
  let e (i : Nat) : Word := k.popped.getD i 0
  match q with
  | 1 | 2 | 4 => partWords (o + 8) (k.popped.take 2)
  | 3 => partWords (o + 8) (k.popped.take 2) ++
    [(o + 24, 4, k.rowVal (k.mpc / 4) (k.mpc % 4) 0), (o + 28, 4, 256 * k.part.getD 3 0)]
  | 5 | 6 | 7 | 8 | 9 =>
    let bytes := match instr with
      | .xCp1 _ _ | .xCp2 _ _ | .xCp3 _ _ | .xCp4 _ _ => true
      | _ => false
    let scaled := match instr with
      | .xFld _ _ _ v _ => convScaled v.val
      | _ => false
    let cmd := fld 22 0 (e 0).toNat + (if cmdFill (e 0) then 2 ^ 23 else 0)
    [(o + 8, 4, k.sent), (o + 12, 4, cmd), (o + 16, 8, (e 1).toNat),
      (o + 24, 8, (if bytes || scaled then e 2 else 0).toNat)] ++
      (if bytes then [(o + 32, 4, (e 3).toNat % 2 ^ 32)] else dimParts (o + 32) (k.popped.drop (if scaled then 3 else 2)))
  | 11 | 12 => partWords (o + 8) ((k.answer.getD []).take 2)
  | _ => []

/-- The record of a transform program in progress (R264). -/
def TsProg.parts (p : TsProg) (o : Nat) : List Part :=
  let (e, b, pad) := p.geom.getD (0, 64, 0)
  let size := if b = 64 then 0 else if b = 128 then 1 else 2
  let place := match locOf p.core p.image with
    | some l => l.off % 2 ^ 27 + l.col * 2 ^ 27
    | none => 0
  partsOf (o + 8) 4 p.h.toList (fun o v => [(o, 4, v.toNat)]) ++ partsOf (o + 40) 2 p.c.toList (fun o v => [(o, 2, v.toNat)]) ++
    [(o + 52, 2, e + size * 4 + pad / 32 * 16), (o + 54, 6, p.bar.toNat % 2 ^ 23 + p.entry * 2 ^ 23 + p.loadLen * 2 ^ 33),
      (o + 60, 4, place)]

/-- Engine-queue record q of context c. -/
def Image.queueParts (m : Image) (i : Fin 39) : List Part :=
  let o := 0x1800 + 128 * i.val
  let q := i.val / 3
  let e := m.eq[i.val]
  let words := e.words.flatMap EngWord.bits
  let prog := if q = 10 then m.progs.find? fun p => p.ctx.val == i.val % 3 else none
  let mpc := match prog, e.cur with
    | some p, _ => p.pc
    | none, some k => k.mpc
    | none, none => 0
  let cur := match prog, e.words, e.cur with
    | some p, _, _ => p.parts o
    | none, w :: _, some k => k.parts q w.instr o
    | _, _, _ => []
  [(o, 4, words.length), (o + 4, 4, mpc)] ++ cur ++ partsOf (o + 64) 4 (words.take 16) (fun o w => [(o, 4, w)]) ++
    (if i.val = 30 then partsOf (o + 48) 1 m.tk.toList (fun o v => [(o, 1, v)]) else [])

/-- LP dealing state (R143). -/
def Lp.parts (l : Lp) (o : Nat) : List Part :=
  partWords o ((List.range 8).map fun i => BitVec.ofNat 64 (l.table.toNat / 2 ^ (64 * i))) ++
    partsOf (o + 64) 2 (l.pos.take 6) (fun o v => [(o, 2, v)]) ++
    [(o + 76, 1, l.permits), (o + 77, 1, l.st), (o + 78, 2, l.gen.toNat), (o + 80, 8, l.last.toNat),
      (o + 88, 1, l.notice.toNat % 16)] ++
    partWords (o + 96) ((List.range 4).map fun i => BitVec.ofNat 64 (l.sched.toNat / 2 ^ (64 * i))) ++
    partsOf (o + 128) 1 (List.range 128) fun o i =>
      [(o, 1, ((List.range 8).filter fun b => l.remain.contains (8 * i + b)).foldl (fun n b => n + 2 ^ b) 0)]

/-- A pass that stands in the array (R235). -/
def Pass.parts (p : Pass) (cyc : Nat) : List Part :=
  let first := p.lines.foldl (fun n l => min n l.due) (cyc + 65535)
  [(0x3C00, 8, (localAddr (p.acc : Int)).toNat), (0x3C08, 1, p.m), (0x3C09, 1, p.n),
    (0x3C0A, 1, (if p.clear then 1 else 0) + if p.sat then 2 else 0), (0x3C0C, 2, first - cyc), (0x3C0E, 2, p.nb)] ++
    (List.range p.m).flatMap fun i => (List.range p.n).map fun j =>
      (0x4000 + 4 * (32 * i + j), 4, (p.vals.getD (p.n * i + j) none).getD 0x7FC00000)

/-- Element writes under way (R95): the elements of a micro-step, and the bytes that they write. -/
def ElemWrite.parts (e : ElemWrite) (cyc n : Nat) : List Part :=
  let o := 0x3800 + 32 * n
  [(o, 8, (localAddr (e.slot.first : Int)).toNat), (o + 8, 2, (BitVec.ofInt 16 e.slot.stride).toNat),
    (o + 10, 2, e.slot.count % 65536), (o + 12, 1, e.slot.ty.code), (o + 13, 1, e.q.val), (o + 14, 1, e.ctx.val),
    (o + 16, 2, e.due - cyc)] ++
    partsOf (0x5000 + 4096 * n) 1 e.bytes fun o b => [(o, 1, b.val % 256)]

/-- Bytes of the image of a task with its window (R95). -/
def imageBytes (blk : List Word) : Nat := 0x25000 + blkL0Size blk

/-- The snapshot image (R95). -/
def Image.parts (m : Image) (window : List Host.Cell) : List Part :=
  let b := m.blk
  let q := m.q.toList
  let iq := m.ctx.toList.map (·.iq)
  let head : List Part :=
    [(0, 4, 1), (4, 4, imageBytes b), (8, 4, blkSlotMap b), (12, 1, m.taskCycle % 12), (13, 1, 1), (16, 4, m.pend.length),
      (20, 1, (m.elems.filter fun e => e.q.val != 2 && !e.bytes.isEmpty).length), (21, 1, if m.passes.isEmpty then 0 else 1),
      (24, 8, m.taskCycle), (32, 8, blkL0Base b), (40, 8, blkL0Size b)]
  let pend := partsOf 0x700 16 m.pend fun o w =>
    [(o, 8, w.val.toNat), (o + 8, 1, w.ctx.val), (o + 9, 1, w.file), (o + 10, 1, w.idx), (o + 12, 2, w.due - m.cyc)]
  let queues := partsOf 0xF00 1 (q ++ iq) (fun o l => [(o, 1, l.length)]) ++
    partsOf 0xF20 64 (q.take 12) (fun o l => partWords o l) ++ partsOf 0x1220 256 ((q.drop 12).take 2) (fun o l => partWords o l) ++
    partWords 0x1420 (q.getD 14 []) ++ partsOf 0x14A0 256 iq (fun o l => partWords o l)
  let regs := partWords 0x2C00 m.va.toList ++ partWords 0x2C80 m.ra.toList ++ partWords 0x2CC0 m.sa.toList ++
    partWords 0x2D00 m.td.toList ++
    partsOf 0x2E00 64 m.ts.toList fun o v => partWords o ((List.range 8).map fun i => BitVec.ofNat 64 (v.toNat / 2 ^ (64 * i)))
  let events := partsOf 0x3700 80 m.ctx.toList fun o x => partsOf o 10 x.events fun o e =>
    [(o, 2, e.code.toNat % 65536), (o + 2, 8, e.addr.toNat)]
  let elems := ((m.elems.filter fun e => e.q.val != 2 && !e.bytes.isEmpty).take 32).zipIdx.flatMap fun x => x.1.parts m.cyc x.2
  let pass := match m.passes with
    | p :: _ => p.parts m.cyc
    | [] => []
  head ++ partsOf 0x100 512 m.ctx.toList (fun o x => x.parts o) ++ pend ++ queues ++
    (List.finRange 39).flatMap m.queueParts ++ regs ++ m.lp.parts 0x3600 ++ events ++ elems ++ pass ++
    window.map fun y => (0x25000 + y.1, 1, y.2.toNat)

/-- A save slot's contents (R114). -/
def Saved.parts (x : Saved) : List Part :=
  let t := x.task
  partWords 0 t.blk ++
    [(128, 8, t.weight), (136, 4, (recordRef t.slot t.die.val 0 t.pkg).toNat), (140, 4, t.group), (144, 1, t.cls)] ++
    partWords 160 x.fault.toList ++ (x.img.parts x.window).map fun p => (256 + p.1, p.2)

/-- The virtual address of a save slot (R114). -/
def State.slotVa (s : State) (d : DieIx) (n : Nat) : Nat := (s.die d).saveBase.toNat + 2621440 * n

/-- The page of a virtual address, when it is resident. -/
def State.pageOf (s : State) (va : Nat) (wr : Bool) : Option Nat × State :=
  match s.translate none va wr with
  | (.pa k, s1) => (some (k - k % 4096), s1)
  | (_, s1) => (none, s1)

/-- An image is written to its slot: what its pages held before is gone. -/
def State.writeSlot (s : State) (d : DieIx) (x : Saved) : State :=
  match x.slot with
  | none => s
  | some n =>
    let va := s.slotVa d n
    let parts := x.parts
    (List.range (ceilDiv (256 + imageBytes x.task.blk) 4096)).foldl (fun s i =>
      match s.pageOf (va + 4096 * i) true with
      | (none, s1) => s1
      | (some k, s1) =>
        let s2 := { s1.clearErrors k 4096 with mem := s1.mem.filter fun y => !(decide (k ≤ y.1 ∧ y.1 < k + 4096)) }
        s2.each (parts.filter fun p => p.1 / 4096 == i) fun s p => s.write (k + p.1 % 4096) p.2.1 p.2.2) s

/-- The header that a slot's image holds passes R334: version, slot map and image bytes. A slot whose page is not resident
holds what was written to it. -/
def State.slotSound (s : State) (d : DieIx) (x : Saved) : Bool :=
  match x.slot with
  | none => true
  | some n =>
    match (s.pageOf (s.slotVa d n) false).1 with
    | none => true
    | some k =>
      s.read (k + 256) 4 == 1 && s.read (k + 260) 4 == imageBytes x.task.blk && s.read (k + 264) 4 == blkSlotMap x.task.blk

end Sys2Proof.Machine
end

