-- ==== Sys2Proof/Machine/Task.lean ====
section
/-! DEFINITION. Tasks on their cores (R80, R92 to R98, R101, R102, R107 to R114, R123, R361, R362, R366): starts, boundaries,
stops, the saving and resuming of images, waits for answers from outside the core, filler in collective waits, and
failure. -/

namespace Sys2Proof.Machine

open Sys2Proof

/-! ### The entries a word pops -/

/-- Dimension entries that a shaped copy pops: RANK of its slot; none for a RANK that no descriptor may have (R253). -/
def slotRank (d : BitVec 512) : Nat := let n := (shapeOf d).rank; if n ≤ 5 then n else 0

/-- The entries that a word pops when it starts: queues and numbers, in the order in which it pops them. -/
def queueOperand (ts : Vector (BitVec 512) 32) (i : Instr) : List (Fin 16 × Nat) :=
  let one (q : Fin 16) (n : Nat) : List (Fin 16 × Nat) := [(q, n)]
  let rank (s : Fin 32) : Nat := slotRank ts[s.val]
  match i with
  | .vSeta _ q _ | .vFill _ q _ | .vIota _ q _ _ _ => one q 1
  | .vAddq _ q _ _ _ _ | .vMulq _ q _ _ _ _ | .vFmaq _ q _ _ _ _ => one q 1
  | .vClamp _ q _ _ => one q 2
  | .mSett _ q _ | .mScl _ q _ => one q 1
  | .mMma _ _ _ _ | .mMmat _ _ _ _ | .mDrop _ => one 14 1
  | .rowSeta _ q _ | .rowMax _ q _ _ | .rowExpsum _ q _ _ _ | .rowScale _ q _ _ _ | .rowSoft _ q _ _ => one q 1
  | .rowSum _ q _ _ | .rowNorm _ q _ _ | .rowRms _ q _ _ _ => one q 1
  | .saSeta _ q _ | .saAdd _ q _ _ _ _ _ | .saMin _ q _ _ _ _ _ | .saMax _ q _ _ _ _ _ => one q 1
  | .saAnd _ q _ _ _ _ _ | .saOr _ q _ _ _ _ _ | .saXor _ q _ _ _ _ _ | .saSwap _ q _ _ _ _ _ => one q 1
  | .saCas _ q _ _ _ _ | .saCnt _ q _ _ _ _ => one q 1
  | .xLdshape _ q _ | .xEvict _ q _ | .xDact _ q | .xDpre _ q | .xDref _ q => one q 1
  | .xLd1 _ q s | .xSt1 _ q s | .xLd2 _ q s | .xSt2 _ q s => one q (2 + rank s)
  | .xLd3 _ q s | .xSt3 _ q s | .xLd4 _ q s | .xSt4 _ q s | .xFst _ q s => one q (2 + rank s)
  | .xFld _ q s c _ => one q ((if convScaled c.val then 3 else 2) + rank s)
  | .xCp1 _ q | .xCp2 _ q | .xCp3 _ q | .xCp4 _ q => one q 4
  | .xTrun _ q => one q 6
  | .lpLdtab _ q | .lpSchedr _ q _ _ _ | .lpCov _ q _ _ | .lpCovrd _ q _ _ | .lpAddp _ q | .lpPos _ q _ _ => one q 1
  | .lpSchedw _ q => one q 5
  | .sArm _ q f | .sArmc _ q f => one q (if f then 3 else 2)
  | .sDisarm _ q | .sWait _ q _ _ | .sWaitn _ q | .sBstat _ q _ _ | .sFnew _ q | .sFpeek _ q _ _ => one q 1
  | .sLaunch _ q _ _ | .sQret _ q => one q 1
  | .sSig _ q | .sFjoin _ q | .sFres _ q | .sQsplit _ q => one q 2
  | .sExit _ q k => if k.val = 0 then [] else one q k.val
  | .sPhase _ q n => if n then one q 1 else []
  | _ => []

/-! ### Windows and banks -/

/-- Whether the layer 0 windows of two launch blocks overlap (R92, R123). -/
def windowsMeet (a b : List Word) : Bool :=
  decide (blkL0Base a < blkL0Base b + blkL0Size b) && decide (blkL0Base b < blkL0Base a + blkL0Size a)

/-- A bank whose task runs, or is about to. -/
def Bank.busy (b : Bank) : Bool := b.status == .running || b.status == .starting

/-- The other bank of a core. -/
def otherBank (b : BankIx) : BankIx := b + 1

/-- Whether the chain of a bank's cycles goes on by itself. -/
def State.chained (s : State) (c : CoreIx) (b : BankIx) : Bool :=
  s.agenda.any fun e => match e.act with
    | .bank c' b' _ => c' == c && b' == b
    | _ => false

/-- The bank's cycles go on from a cycle. -/
def State.chain (s : State) (c : CoreIx) (b : BankIx) (at' : Nat) : State :=
  if s.chained c b then s else s.schedule at' (rankLand + c.val) (.bank c b .land)

/-- Words, writes or passes of ended tasks are still under way in a bank (R97). -/
def Image.runsOn (m : Image) : Bool :=
  m.eq.toList.any (fun q => !q.words.isEmpty) || !m.elems.isEmpty || !m.passes.isEmpty

/-! ### Starts (R80, R98, R102, R107, R113) -/

/-- The value of WAIT entry i of a record, as g7 to g10 receive it (R102). -/
def Record.waitValue (r : Record) (i : Nat) : Word :=
  match r.waits[i]? with
  | some w => if nameKind w.name = 2 then (match w.sat with
    | some (v, _) => v.setWidth 64
    | none => 0) else 0
  | none => 0

/-- The g registers of a task's contexts (R102). -/
def startRegs (r : Record) (group : Nat) : Vector Word 32 :=
  let b := r.blk
  Vector.ofFn fun n => match n.val with
    | 1 | 2 | 3 | 4 => blkArg b (n.val - 1)
    | 5 => BitVec.ofNat 64 group
    | 6 => BitVec.ofNat 64 (blkGroups b)
    | 7 | 8 | 9 | 10 => r.waitValue (n.val - 7)
    | _ => 0

/-- A context that owns no slot of a map (R81). -/
def ownsSlot (map : Nat) (c : Fin 3) : Bool := (List.range 12).any fun i => map / 4 ^ i % 4 == c.val

/-- A context at its start (R80, R81): its entry point is bytes 0 to 5 of the image's header; an entry of 0 names no
stream. -/
def startContext (r : Record) (group : Nat) (entry : Nat) (c : Fin 3) (iq : List Word) : Context :=
  { Context.reset with
    g := startRegs r group, pc := BitVec.ofNat 15 entry, iq
    ended := entry == 0 || !(ownsSlot (blkSlotMap r.blk) c) }

/-- The image of a task that starts in a bank: queue registers and engine queues keep what they hold (R80, R97). -/
def Image.begin (m : Image) (t : Task) (r : Record) (word : Nat → Word32) : Image :=
  let entry (c : Fin 3) : Nat := fld (14 + 16 * (c.val % 2)) (16 * (c.val % 2)) (word (c.val / 2)).toNat
  let ctx (c : Fin 3) : Context := startContext r t.group (entry c) c m.ctx[c.val].iq
  { Image.reset with
    task := some t, cyc := m.cyc, base := none, ctx := #v[ctx 0, ctx 1, ctx 2], q := m.q, eq := m.eq, eng := m.eng
    elems := m.elems, passes := m.passes, arrayFree := m.arrayFree }

/-- The image of a program is resident in a bank's half (R98). -/
def Bank.resident (b : Bank) (blk : List Word) : Bool :=
  b.tag == some (blkProg blk, blkImgLen blk) && !(blkReload blk)

/-- Cycles from a boundary to the first word (R98). -/
def Bank.loadTime (b : Bank) (blk : List Word) : Nat :=
  if b.resident blk then 2 else 22 + ceilDiv (blkImgLen blk) 4096

/-- A program image copied from layer 1 into a bank's half, its tag set; the fault of the place, or of a poisoned granule
(R98, R338). -/
def State.loadImage (s : State) (c : CoreIx) (b : BankIx) (blk : List Word) :
    State × Option (BitVec 16 × Option Word) :=
  if (s.bank c b).resident blk then (s, none)
  else
    let a := blkProg blk
    let n := blkImgLen blk
    match locOf c a with
    | none => (s, some (0x0701, some a))
    | some l =>
      match s.capFault l n s.now with
      | some e => (s, some (e, some a))
      | none =>
        let (bad, s1) := s.unitRead l.key n
        let words : List Word32 := (List.range (n / 4)).map fun i => BitVec.ofNat 32 (s1.read (l.key + 4 * i) 4)
        let s2 := s1.modBank c b fun k => { k with overlay := words, tag := some (a, n) }
        (s2, bad.map fun g => (0x0E01, some (a + BitVec.ofInt 64 ((g : Int) - (l.key : Int)))))

/-- A dealt group starts in a bank: its first word issues at a cycle (R80, R98). A system task runs firmware's program,
which ends its case (R322). -/
def State.install (s : State) (c : CoreIx) (b : BankIx) (h : HandEntry) (at' : Nat) : State :=
  let d := coreDie c
  match s.record d h.slot with
  | none => s
  | some r =>
    let t : Task :=
      { tid := s.nextTid, die := d, slot := h.slot, group := h.group, blk := r.blk, cls := r.cls, weight := h.weight
        scope := r.scope, irrev := false, replays := h.replays, started := at', system := r.system
        pkg := s.pkg.num, futures := [] }
    let s0 := { s with nextTid := s.nextTid + 1 }
    let s1 := s0.modCore c fun k => { k with front := b }
    if r.system then
      let (f, s2) := (s1.modBank c b fun k =>
        { k with status := .running, startAt := at', img := k.img.begin t r fun _ => 0 }).nextFree
      let id := (blkArg r.blk 0).toNat
      let code : BitVec 16 := match (s2.die d).cases.find? fun x => x.id == id with
        | some x => x.record[0].setWidth 16
        | none => 0
      s2.schedule (at' + 1 + Config.freeLatency f) rankDealer (.ev (.faultHandlerEnd d id (handlerAction code)))
    else
      let (s2, bad) := s1.loadImage c b r.blk
      let s3 := s2.modBank c b fun k =>
        { k with status := .starting, startAt := at', img := k.img.begin t r fun i => k.overlay.getD i 0 }
      match bad with
      | some (e, a) => s3.taskFault t.tid e a
      | none => s3.chain c b at'

/-- A boundary or a start of the group came in this cycle. -/
def State.justEnded (s : State) (c : CoreIx) (b : BankIx) : Bool :=
  decide ((s.bank c b).startAt = s.now ∧ 0 < s.now)

/-- The first issue of a group that starts now in a bank (R98, R113). -/
def State.firstIssue (s : State) (c : CoreIx) (b : BankIx) (blk : List Word) (ready : Nat) : Nat :=
  let k := s.bank c b
  let copy := if k.resident blk then 0 else ceilDiv (blkImgLen blk) 4096
  if s.justEnded c b then s.now + k.loadTime blk else max s.now ready + 22 + copy

/-- The bank in which the head of a core's hand may start now (R92, R107, R123, R322). -/
def State.startBank (s : State) (c : CoreIx) (h : HandEntry) : Option BankIx :=
  let k := s.core c
  let stuck (b : Bank) : Bool := b.status == .stopped && b.img.sysFault.isSome
  let saving (b : Bank) : Bool := (s.die (coreDie c)).saved.any fun x => b.img.holds x.task.tid && !x.complete
  let any (f : Bank → Bool) : Bool := f k.banks[0] || f k.banks[1]
  let here := h.tid.bind fun t => s.bankOf t
  let blk := match s.record (coreDie c) h.slot with
    | some r => r.blk
    | none => []
  let meets (b : Bank) : Bool := b.status == .waiting && windowsMeet b.img.blk blk
  if any Bank.busy || any stuck || any (fun b => b.status == .ready) then none
  else match here with
    | some (c', b) =>
      if c' = c ∧ saving k.banks[b.val] = false ∧ meets k.banks[(otherBank b).val] = false then some b else none
    | none =>
      let gone := match h.tid with
        | some t => !((s.die (coreDie c)).saved.any fun x => x.holds t && x.complete)
        | none => false
      if any meets || gone then none
      else if k.banks[k.front.val].status = .idle then some k.front
      else if k.banks[(otherBank k.front).val].status = .idle then some (otherBank k.front)
      else none

/-- TASK_START (R98, R107): the head of the hand starts, if a bank is free for it. -/
def State.taskStart (s : State) (c : CoreIx) : State :=
  match (s.core c).hand with
  | [] => s
  | h :: rest =>
    match s.startBank c h with
    | none => s
    | some b =>
      let s1 := (s.modCore c fun k => { k with hand := rest }).wantChoice (coreDie c)
      match h.tid with
      | some t => s1.schedule s1.now (rankDealer + 211) (.ev (.taskResume c b t))
      | none =>
        let blk := match s1.record (coreDie c) h.slot with
          | some r => r.blk
          | none => []
        s1.install c b h (s1.firstIssue c b blk h.ready)

def execTaskStart (s : State) : Out :=
  match s.focus.event with
  | some (.taskStart c) => .next (s.taskStart c)
  | _ => .fault (.nothingThere "TASK_START")

/-- GANG_START (R108, R101): every group of the gang starts in one cycle, the first that suits all its cores. -/
def State.gangStart (s : State) (d : DieIx) (slot first : Nat) : State :=
  match s.record d slot with
  | none => s
  | some r =>
    let cores := (List.range r.groups).map fun i => (dieCore d (first + i), i)
    let at' := cores.foldl (fun n x => max n (s.firstIssue x.1 (s.core x.1).freeBank r.blk r.ready)) 0
    let s1 := s.setRecord d slot { r with reserved := none }
    let s2 := s1.each cores fun s x =>
      let s' := s.modCore x.1 fun k => { k with reserved := none }
      s'.install x.1 (s'.core x.1).freeBank (r.entry slot { r.nextGroup with group := x.2, weight := r.groupShare }) at'
    s2.wantChoice d

def execGangStart (s : State) : Out :=
  match s.focus.event with
  | some (.gangStart d slot first) => .next (s.gangStart d slot first)
  | _ => .fault (.nothingThere "GANG_START")

/-! ### What runs next on a core -/

/-- A core without a running task takes its next: a task that is ready again in its bank (R92, R123), or the head of its
hand; a core that is out is withdrawn once it holds no task (R348). -/
def State.coreFree (s : State) (c : CoreIx) : State :=
  let k := s.core c
  if k.banks[0].busy || k.banks[1].busy then s
  else if k.ineligible && !k.withdrawn && k.idle then s.schedule s.now rankDealer (.ev (.coreWithdrawn c))
  else
    let ready (b : BankIx) : Option Nat :=
      if k.banks[b.val].status = .ready then k.banks[b.val].img.task.map (·.tid) else none
    match ready k.front, ready (otherBank k.front) with
    | some t, _ => s.schedule s.now (rankDealer + 209) (.ev (.taskResume c k.front t))
    | none, some t => s.schedule s.now (rankDealer + 209) (.ev (.taskResume c (otherBank k.front) t))
    | none, none => s.tryStart c

/-- A save slot is free: a stop that waits for one is tried, and a record that waits for it is placed (R114, R322). -/
def State.slotFreed (s : State) (d : DieIx) : State := s.wantChoice d

/-! ### Boundaries (R97, R98, R121) -/

/-- What an ended task leaves in its bank: queue registers, words that run on, and their writes. -/
def Image.leave (m : Image) : Image :=
  { m with
    task := none, base := none, pend := [], progs := [], npr := none, stopReq := none, phase := none, deadCount := 0
    collCount := 0, touched := [], sysFault := none, abandon := none
    ctx := m.ctx.map fun x => { Context.reset with iq := x.iq } }

/-- The collective wait of a bank's task is over: the slot reserved with it is free (R123). -/
def State.fillingOver (s : State) (c : CoreIx) (b : BankIx) : State :=
  if (s.die (coreDie c)).fillers.any fun x => x.core == c && x.bank == b then
    s.modDie (coreDie c) fun k => { k with fillers := k.fillers.filter fun x => x.core != c || x.bank != b }
  else s

/-- The bank is free of its task. -/
def State.emptyBank (s : State) (c : CoreIx) (b : BankIx) : State :=
  (s.fillingOver c b).modBank c b fun k => { k with status := .idle, img := k.img.leave }

/-- TASK_BOUNDARY (R97): the weight left to the group is returned, its launch counts it, and the next task starts. -/
def State.taskBoundary (s : State) (c : CoreIx) (b : BankIx) : State :=
  match (s.img c b).task with
  | none => s
  | some t =>
    let s1 := (s.emptyBank c b).modBank c b fun k => { k with startAt := s.now }
    let s2 := (s1.returnWeight t.die t.scope t.weight).groupDone t.die t.slot
    let s3 := if (s2.die t.die).fillers.any fun x => x.core == c
      then s2.schedule s2.now (rankDealer + 208) (.ev (.fillerCollectiveWait c)) else s2
    (s3.checkRetire.coreFree c).wantChoice t.die

def execTaskBoundary (s : State) : Out :=
  match s.focus.event with
  | some (.taskBoundary c b) => .next (s.taskBoundary c b)
  | _ => .fault (.nothingThere "TASK_BOUNDARY")

/-- IMPLICIT_EXIT (R366): an `s.exit` with no successors is performed on the task's behalf, and a record reports it. -/
def State.implicitExit (s : State) (c : CoreIx) (b : BankIx) : State :=
  match (s.img c b).task with
  | none => s
  | some t =>
    if (s.img c b).exited then s
    else
      let (a, s1) := (s.modImg c b fun m => ({ m with exited := true, exitRun := true } : Image).setWeight 0).faultAddr none
      (s1.returnWeight t.die t.scope t.weight).toRing t.die (s.faultRec 0x0A09 3 12 0 0 a (some t) c.val)

def execImplicitExit (s : State) : Out :=
  match s.focus.event with
  | some (.implicitExit c b) => .next (s.implicitExit c b)
  | _ => .fault (.nothingThere "IMPLICIT_EXIT")

/-! ### Failure (R361, R362) -/

/-- Every detached item of a task's words returns its unit, those of words that have not started among them. -/
def State.returnItems (s : State) (d : DieIx) (m : Image) : State :=
  s.each m.eq.toList fun s q =>
    s.each (q.words.zipIdx.filter fun w => w.1.tid == m.tid) fun s w =>
      match w.2, q.cur with
      | 0, some k => s.returnWeight d k.item 1
      | _, _ => s.returnWeight d w.1.item 1

/-- A failed group's launch is failed, its weight returned and its futures poisoned (R362). -/
def State.failGroup (s : State) (t : Task) (code : BitVec 16) : State :=
  let d := t.die
  let s1 := (s.returnWeight d t.scope t.weight).each t.futures fun s f =>
    s.poisonFut f (if nameDie f = d then 0 else 24) code
  (s1.modRecord d t.slot fun r => { r with failed := some (r.failed.getD code) }).groupDone d t.slot

/-- The group enters the runnable order again, off the core it failed on (R362). -/
def State.replayGroup (s : State) (t : Task) (core : CoreIx) : State :=
  let s1 := s.modRecord t.die t.slot fun r =>
    { r with
      again := r.again ++
        [{ group := t.group, weight := t.weight, replays := t.replays + 1, tid := none, avoid := some (core, s.now) }] }
  (s1.wantChoice t.die).schedule (s1.now + 65536) (rankDealer + 200) (.ev (.dealerChoice t.die))

/-- A task has failed with a code on a core (R362): it is replayed, or its launch fails, or the host decides. -/
def State.taskFailed (s : State) (t : Task) (core : CoreIx) (code : BitVec 16) : State :=
  let host := bitAt 5 s.pkg.modes.toNat
  if blkReplay t.blk && !t.irrev && decide (t.replays < 2) && !host then s.replayGroup t core
  else
    let (a, s1) := s.faultAddr none
    let r := s.faultRec 0x0A03 3 0 0 0 a (some t) core.val
    if host then
      let x : FaultCase := { id := s1.nextTid, record := r, tid := none, modes := s.modesNow, num := none, failed := some (t, core, code) }
      (({ s1 with nextTid := s1.nextTid + 1 } : State).modDie t.die fun k => { k with cases := k.cases ++ [x] }).toRing
        t.die r
    else (s1.toRing t.die r).failGroup t code

/-- Entries of a queue that the words of other tasks, still to start, pop: they stand first in it (R97). -/
def Image.oldNeeds (m : Image) (tid : Nat) (c : Fin 3) (q : Fin 16) : Nat :=
  ((List.finRange 13).flatMap fun e => (m.eqAt e c).words.zipIdx.flatMap fun w =>
    if w.1.tid = tid ∨ (w.2 = 0 ∧ (m.eqAt e c).cur.isSome = true) then []
    else (queueOperand m.ts w.1.instr).filterMap fun x => if x.1 = q then some x.2 else none).foldl (· + ·) 0

/-- The queue registers parted between the words of other tasks and the task of an image that leaves. -/
def Image.partQ (m : Image) (tid : Nat) (old : Bool) : Image :=
  let cut (n : Nat) (l : List Word) : List Word := if old then l.take n else l.drop n
  { m with
    q := Vector.ofFn fun i =>
      cut ((List.finRange 3).foldl (fun n c => n + m.oldNeeds tid c (Fin.ofNat 16 i.val)) 0) m.q[i.val]
    ctx := Vector.ofFn fun c => { m.ctx[c.val] with iq := cut (m.oldNeeds tid c 15) m.ctx[c.val].iq } }

/-- Words and writes of a task leave an image: what runs on from earlier tasks stays (R362). -/
def Image.without (m : Image) (tid : Nat) : Image :=
  { m with
    eq := m.eq.map fun q =>
      let mine := match q.words with
        | w :: _ => w.tid == tid
        | [] => false
      { words := q.words.filter fun w => w.tid != tid, cur := if mine then none else q.cur }
    eng := Vector.ofFn fun i => (let e := m.eng[i.val]
      match e.act with
      | some c => (match (m.eqAt i c).words with
        | w :: _ => if w.tid = tid then { e with act := none } else e
        | [] => e)
      | none => e)
    elems := m.elems.filter fun e => e.tid != tid
    passes := m.passes.filter fun p => p.tid != tid }

/-- A task that fails in its bank: its image is discarded. -/
def State.failInBank (s : State) (c : CoreIx) (b : BankIx) (code : BitVec 16) : State :=
  let m := s.img c b
  match m.task with
  | none => s
  | some t =>
    let s1 := (s.returnItems t.die m).modImg c b fun m => (m.partQ t.tid true).without t.tid
    let s2 := (s1.emptyBank c b).modBank c b fun k => { k with startAt := s.now }
    let s3 := s2.modDie t.die fun k => { k with saved := k.saved.filter fun x => !(x.holds t.tid) }
    let s4 := if s3.chained c b || !(s3.img c b).runsOn then s3 else s3.chain c b (s3.now + 1)
    ((s4.taskFailed t c code).checkRetire.coreFree c).wantChoice t.die

/-! ### Stops (R93, R94, R110, R111, R223, R235, R244, R256, R264) -/

/-- A copy is brought to its next destination sector (R94): what it has read is written, and its engine lets go of it. A
shape-slot word that has started is performed whole (R251); a DRAM-layer command waits for CE4. -/
def State.stopCopy (s : State) (w : EngWord) : State :=
  let slotWord := match w.instr with
    | .xLdshape _ _ _ | .xEvict _ _ _ => true
    | _ => false
  let command := match w.instr with
    | .xDact _ _ | .xDpre _ _ | .xDref _ _ => true
    | _ => false
  if command then s
  else
    let slots := (s.pendingActs.filter s.copyMine).filterMap fun a => match a with
      | .ev (.copyCompletion _ _ _ _ (.slot n d)) => some (CopyPart.slot n d)
      | _ => none
    let cells := s.copyUnwritten
    let s1 := (s.withdraw s.copyMine).copyWrite cells
    if slotWord then (if cells.isEmpty then s1 else s1.copyDone).each slots fun s p => s.copyStep p
    else
      (s1.copyHalt.modRun fun r => { r with writes := 0 }).modCur fun m =>
        m.modEng s.focus.q fun e => { e with act := if e.act = some s.focus.ctx then none else e.act }

/-- A word that has asked for lines and read none of them: it asks again when it goes on. -/
def Cur.unopened (k : Cur) : Cur := { k with opened := false, reads := [], lines := [] }

/-- The word at the head of the matrix queue (R94, R235, R236): a pass in the array reads the rest of its lines, and its
micro-PC becomes its block count; an accumulator word that has begun to read writes; one that has not starts again. -/
def State.stopMat (s : State) (w : EngWord) : State :=
  let k := s.prog
  let tile (d a b : Fin 8) (kMajor : Bool) : State :=
    let x := s.tileCmd (formatOf (k.popped.getD 0 0)) d a b kMajor
    if k.lastDone then s.setProg { k with mpc := x.nb }
    else if k.part.getD 0 0 = 2 then
      let s1 := s.tileFormed x k.lines
      if s1.prog.lastDone then s1.setProg { s1.prog with mpc := x.nb } else s1
    else s.setProg k.unopened
  match w.instr with
  | .mMma _ d a b => tile d a b false
  | .mMmat _ d a b => tile d a b true
  | i => match s.accSpecOf i with
    | some (x, d, a) =>
      if k.opened ∧ k.lines ≠ [] then s.accClose x (tileOf s.cur.td[d.val]) (tileOf s.cur.td[a.val]) k.lines
      else s.setProg k.unopened
    | none => s

/-- The word at the head of a queue is brought to its point (R94). -/
def State.stopWord (s : State) (c : CoreIx) (b : BankIx) (q : Fin 13) (x : Fin 3) : State :=
  let m := s.img c b
  match (m.eqAt q x).words.head?, (m.eqAt q x).cur with
  | some w, some k =>
    if w.tid ≠ m.tid then s
    else
      let f := s.focusOn .perform c b x q
      match q.val with
      | 1 => if k.lastDone then f else f.setProg k.unopened
      | 2 => f.stopMat w
      | 3 =>
        (match rowSpecOf w.instr with
        | some r =>
          if k.lastDone then f
          else f.setProg { ({ k.unopened with halt := none } : Cur).rowBegin (k.rowRun r) m.cyc with next := m.cyc }
        | none => f)
      | 4 =>
        (match saWordOf w.instr with
        | some r =>
          let g := saRegions r (k.part.getD 0 0) (k.part.getD 1 0) (k.part.getD 2 0)
          let f1 := f.saDrain r g.ty
          f1.setProg f1.prog.unopened
        | none => f)
      | 5 | 6 | 7 | 8 | 9 => f.stopCopy w
      | 10 =>
        (f.withdraw fun a => match a with
          | .perform c' b' q' x' => c' == c && b' == b && q' == q && x' == x
          | _ => false).setProg { k with part := [], waiting := false }
      | _ => f
  | _, _ => s

/-- Passes whose values are formed perform all their read-modify-writes, and post (R235). -/
def State.stopPasses (s : State) (c : CoreIx) (b : BankIx) : State :=
  let m := s.img c b
  let (formed, later) := m.passes.partition fun p => decide (p.formed ≤ m.cyc)
  (s.modImg c b fun m => { m with passes := later }).each formed fun s p =>
    if p.post.isSome then s
    else
      let (p1, s1) := s.passLines c m.cyc (fun _ => true) p
      let (p2, s2) := s1.passLines c m.cyc (fun _ => true) p1
      s2.passDone c b p2

/-- The task's transform programs leave TS at a boundary between two instructions: what the last has still to read is read,
and its writes are performed and posted (R264). -/
def State.stopTs (s : State) (c : CoreIx) (b : BankIx) (tid : Nat) : State :=
  let col := coreCol c
  let mine (p : TsProg) : Bool := p.tid == tid
  let ending := s.agenda.any fun e => e.act == .ev (.tsProgramEnd col)
  let s0 := s.each ((s.col col).tsOps.filter fun o => mine o.prog) fun s o =>
    s.tsGot (o.prog.step .check) o.id o.left
  let k := s0.col col
  let run := if ending then [] else k.tsRun.toList.filter mine
  let s1 := s0.modImg c b fun m => { m with progs := m.progs ++ run ++ k.tsWait.filter mine }
  let s2 := s1.modCol col fun k => { k with tsWait := k.tsWait.filter fun p => !(mine p) }
  match run with
  | [] => s2
  | p :: _ =>
    let s3 := s2.withdraw fun a => match a with
      | .ts x => x == col
      | .ev (.tsDataPosting x) => x.col == col && (match x.part with
        | .read _ _ => true
        | .got _ _ => true
        | _ => false)
      | _ => false
    ({ s3 with focus := { s3.focus with col } } : State).tsLeave (max s3.now p.postBusy)

/-- The engines of a bank come to the points of R94, and its cycles end. Unresolved faults are not kept, but those that
stop the task (R333). -/
def State.freeze (s : State) (c : CoreIx) (b : BankIx) : State :=
  let open' := s.agenda.any fun e => e.act == .bank c b .endCycle
  let s0 := (s.withdraw fun a => match a with
    | .bank c' b' _ => c' == c && b' == b
    | _ => false).modCore c fun k => { k with throttled := false }
  let s1 := s0.stopPasses c b
  let s2 := if (s1.img c b).lp.loadAt.isSome then s1.lpHold c b else s1
  let s3 := (List.finRange 13).foldl (fun s q => (List.finRange 3).foldl (fun s x => s.stopWord c b q x) s) s2
  let tid := (s3.img c b).tid
  let s3 := if (s3.col (coreCol c)).stopFor = some tid then s3.modCol (coreCol c) fun k => { k with stopFor := none } else s3
  let s4 := (s3.landWords c b).stopTs c b tid
  s4.modImg c b fun m =>
    let keep := m.sysFault.isSome
    { m with
      cyc := if open' then m.cyc + 1 else m.cyc
      stopReq := none, deadCount := 0, collCount := 0
      ctx := m.ctx.map fun x => { x with faults := if keep then x.faults.filter fun f => !f.user else [] } }

/-- A group of a stopped task is runnable again, in its record's order (R111). -/
def State.redeal (s : State) (t : Task) : State :=
  (s.modRecord t.die t.slot fun r =>
    { r with
      again := r.again ++ [{ group := t.group, weight := t.weight, replays := t.replays, tid := some t.tid, avoid := none }] }).wantChoice
    t.die

/-- A stopped task is no longer runnable: it leaves its record's order, and the hand it was dealt to. -/
def State.undeal (s : State) (t : Task) : State :=
  let s1 := s.modRecord t.die t.slot fun r => { r with again := r.again.filter fun x => x.tid != some t.tid }
  (List.range 64).foldl (fun s i =>
    s.modCore (dieCore t.die i) fun k => { k with hand := k.hand.filter fun h => h.tid != some t.tid }) s1

/-- Whether a stop has to wait for the end of a non-pre-emptible region, or of a trap stream (R93, R333). -/
def State.stopHeld (s : State) (c : CoreIx) (b : BankIx) : Bool :=
  let m := s.img c b
  let own (x : Context) (i : Nat) : Bool := match m.sysFault with
    | some r => fld 23 16 r[0].toNat == i && x.shadow.isSome
    | none => false
  let trap := m.ctx.toList.any (fun x => x.shadow.isSome) && !(m.ctx.toList.zipIdx.any fun x => own x.1 x.2)
  let overrun := m.ctx.toList.any fun x => x.faults.any fun f => f.code == 0x0D01 && f.user
  m.abandon.isNone && (m.npr.isSome || trap || overrun)

/-- Whether a stop that writes the image out of its core has to wait for a slot (R114). -/
def State.stopNoSlot (s : State) (c : CoreIx) (b : BankIx) (why : StopWhy) : Bool :=
  match why with
  | .preempt | .yield | .thermal | .withdrawn =>
    (s.img c b).abandon.isNone && (s.bank c (otherBank b)).status != .idle && !(s.hasSlot (coreDie c)) &&
      ((s.die (coreDie c)).keptSlot c).isNone
  | _ => false

/-- Whether a stop has to wait. -/
def State.stopWaits (s : State) (c : CoreIx) (b : BankIx) (why : StopWhy) : Bool :=
  s.stopHeld c b || s.stopNoSlot c b why

/-- A stopped task's place: it fails, waits in its bank for an answer, goes to a slot for its fault to be ended, or is
runnable again (R92, R111, R322, R362). -/
def State.stopped (s : State) (c : CoreIx) (b : BankIx) (t : Task) (why : StopWhy) : State :=
  let d := coreDie c
  let m := s.img c b
  match m.abandon with
  | some code => s.failInBank c b code
  | none =>
    if m.sysFault.isSome then
      let s1 := s.modBank c b fun k => { k with status := .stopped }
      if s1.hasSlot d then s1.moveOut c b else s1
    else match why with
      | .pageWait => (s.modBank c b fun k => { k with status := .waiting }).coreFree c
      | _ =>
        let s1 := (s.modBank c b fun k => { k with status := .stopped, startAt := s.now }).redeal t
        if (s1.bank c (otherBank b)).status = .idle then s1.coreFree c
        else
          -- a filler of a collective wait goes to the slot that was reserved for it (R123)
          ((s1.moveTo c b ((s1.die d).keptSlot c)).modDie d fun k =>
            { k with fillers := k.fillers.map fun x => if x.core = c then { x with slot := none } else x }).coreFree c

/-- TASK_STOP (R93). -/
def State.taskStop (s : State) (c : CoreIx) (b : BankIx) (why : StopWhy) : State :=
  let k := s.bank c b
  match k.img.task with
  | none => s
  | some t =>
    if t.system then s
    else match k.status with
      | .idle => s
      | .running | .starting =>
        if s.stopWaits c b why then
          (if why = .yield ∧ s.stopHeld c b = false then s
          else s.modImg c b fun m => { m with stopReq := some (m.stopReq.getD why) })
        else (s.freeze c b).stopped c b t why
      | _ =>
        if k.img.sysFault.isSome || k.img.abandon.isSome then (s.undeal t).stopped c b t why else s

def execTaskStop (s : State) : Out :=
  match s.focus.event with
  | some (.taskStop c b why) => .next (s.taskStop c b why)
  | _ => .fault (.nothingThere "TASK_STOP")

/-! ### Saving and resuming (R95, R96, R114, R334) -/

/-- The cells that a task's layer 0 window lists, with their offsets in layer 0. -/
def State.windowCells (s : State) (c : CoreIx) (blk : List Word) : List Host.Cell :=
  let lo := keyL0 c.val (blkL0Base blk)
  (s.mem.filter fun x => decide (lo ≤ x.1 ∧ x.1 < lo + blkL0Size blk)).map fun x => (x.1 - lo, x.2)

/-- Accesses, updates, writes and requests of a task that are under way, and whose effects its image or its window is to
hold (R95, R96). -/
def State.underWay (s : State) (tid : Nat) (m : Image) : Bool :=
  m.lp.inFlight || (s.pkg.away.any fun u => u.tid == tid) || s.pendingActs.any fun a => match a with
    | .ev (.accessPoint x) => (match x with
      | .load o _ _ _ _ _ _ => o.tid == tid
      | .store o _ _ _ => o.tid == tid
      | .mfsr o _ _ _ _ => o.tid == tid
      | .mtsr o _ _ => o.tid == tid)
    | .ev (.saHomeUpdate u) => u.tid == tid && u.via.isNone
    | .ev (.tsDataPosting x) => x.tid == tid
    | _ => false

/-- IMAGE_SAVE_COMPLETE (R96): the image leaves its bank, with the copy of its window; the handler then runs for a task of
the system route (R322). -/
def State.saveComplete (s : State) (d : DieIx) (tid : Nat) : State :=
  match s.bankOf tid, (s.die d).saved.find? fun x => x.holds tid with
  | some (c, b), some x =>
    let m := s.img c b
    if s.underWay tid m then s.after 1 rankDealer (.imageSaveComplete d tid)
    else
    let t := m.task.getD x.task
    let own : Image := (m.eq.toList.flatMap fun q => q.words.map (·.tid)).eraseDups.foldl (fun (m : Image) i =>
      if i = tid then m else m.without i) (m.partQ tid false)
    let w := s.windowCells c t.blk
    let fault := m.sysFault.getD #v[0, 0, 0, 0]
    let x' : Saved := { x with task := t, img := own, window := w, fault, faulted := m.sysFault.isSome, complete := true }
    let s1 := (s.modImg c b fun m => (m.partQ tid true).without tid).emptyBank c b
    let s2 := s1.modDie d fun k => { k with saved := k.saved.map fun y => if y.holds tid then x' else y }
    let s3 := s2.writeSlot d x'
    let s4 := if x'.faulted then s3.openCase d fault (some tid) else s3
    let s5 := if (s4.img c b).runsOn then s4.chain c b (s4.now + 1) else s4
    let takers := (List.range 64).filter fun i => match (s5.core (dieCore d i)).hand with
      | h :: _ => h.tid == some tid
      | [] => false
    ((s5.coreFree c).each takers fun s i => s.tryStart (dieCore d i)).wantChoice d
  | _, _ => s

def execImageSaveComplete (s : State) : Out :=
  match s.focus.event with
  | some (.imageSaveComplete d tid) => .next (s.saveComplete d tid)
  | _ => .fault (.nothingThere "IMAGE_SAVE_COMPLETE")

/-- Every time of an image n cycles later. -/
def Cur.later (k : Cur) (n : Nat) : Cur :=
  { k with
    started := k.started + n, next := k.next + n, fromAt := k.fromAt + n
    rows := k.rows.map fun r => { r with start := r.start + n } }

def Image.later (m : Image) (n : Nat) : Image :=
  { m with
    cyc := m.cyc + n, base := m.base.map (· + n), arrayFree := m.arrayFree + n
    eq := m.eq.map fun q => { q with cur := q.cur.map fun k => k.later n }
    eng := m.eng.map fun e => { e with free := e.free + n }
    ctx := m.ctx.map fun x => { x with trapOpen := x.trapOpen + n }
    pend := m.pend.map fun w => { w with due := w.due + n }
    elems := m.elems.map fun e => { e with due := e.due + n, word := e.word + n }
    passes := m.passes.map fun p =>
      { p with
        formed := p.formed + n, wrote := p.wrote + n, post := p.post.map (· + n)
        lines := p.lines.map fun l => { l with due := l.due + n } }
    npr := m.npr.map fun r => { r with opened := r.opened + n }
    phase := m.phase.map fun w => { w with open? := w.open?.map (· + n) }
    lp := { m.lp with loadAt := m.lp.loadAt.map (· + n) } }

/-- A resumed image in a bank where words of ended tasks run on: those stand first, and the bank's queue registers hand
out their old entries first (R97). -/
def Image.join (old m : Image) : Image :=
  let top := max old.cyc m.cyc
  let o := old.later (top - old.cyc)
  let x := m.later (top - m.cyc)
  { x with
    q := Vector.ofFn fun i => o.q[i.val] ++ x.q[i.val]
    ctx := Vector.ofFn fun i => { x.ctx[i.val] with iq := o.ctx[i.val].iq ++ x.ctx[i.val].iq }
    eq := Vector.ofFn fun i =>
      let a := o.eq[i.val]
      let b := x.eq[i.val]
      match a.words with
      | [] => b
      | _ =>
        { words := a.words ++ (match b.words with
            | w :: rest => { w with kept := b.cur } :: rest
            | [] => []), cur := a.cur }
    eng := Vector.ofFn fun i => if o.eng[i.val].act.isSome then o.eng[i.val] else x.eng[i.val]
    elems := o.elems ++ x.elems, passes := o.passes ++ x.passes, arrayFree := max o.arrayFree x.arrayFree }

/-- TASK_RESUME (R96): a stopped task goes on in its bank, or from its save slot on any core of its die, its window
restored; an image whose header is not as R334 requires is refused. -/
def State.taskResume (s : State) (c : CoreIx) (b : BankIx) (tid : Nat) : State :=
  let d := coreDie c
  let go (s : State) (n : Nat) : State :=
    let blk := (s.img c b).blk
    let (s1, bad) := s.loadImage c b blk
    let s2 := (s1.modCore c fun k => { k with front := b }).modBank c b fun k =>
      { k with status := .starting, startAt := s.now + n }
    match bad with
    | some (e, a) => s2.taskFault tid e a
    | none => s2.chain c b (s2.now + n)
  match s.bankOf tid with
  | some (c', b') =>
    if c' = c ∧ b' = b ∧ (s.bank c b).busy = false then go (s.fillingOver c b) ((s.bank c b).loadTime (s.img c b).blk) else s
  | none =>
    match (s.die d).saved.find? fun x => x.holds tid with
    | none => s
    | some x =>
      let s1 := (s.modDie d fun k => { k with saved := k.saved.filter fun y => !(y.holds tid) }).slotFreed d
      if !(s.slotSound d x) then
        let (a, s2) := s1.faultAddr none
        ((s2.toRing d (s.faultRec 0x0E03 3 0 0 0 a (some x.task) c.val)).returnItems d x.img).taskFailed x.task c 0x0E03
      else
        let lo := keyL0 c.val (blkL0Base x.task.blk)
        let n := blkL0Size x.task.blk
        let s2 := { s1 with mem := s1.mem.filter fun y => !(decide (lo ≤ y.1 ∧ y.1 < lo + n)) }
        let s3 := s2.each x.window fun s y => s.write (lo + y.1) 1 y.2.toNat
        let s4 := s3.modBank c b fun k => { k with img := k.img.join { x.img with task := some x.task, sysFault := none } }
        let (f, s5) := s4.nextFree
        go s5 ((s5.bank c b).loadTime x.task.blk + Config.freeLatency f)

def execTaskResume (s : State) : Out :=
  match s.focus.event with
  | some (.taskResume c b tid) => .next (s.taskResume c b tid)
  | _ => .fault (.nothingThere "TASK_RESUME")

/-! ### Waiting tasks (R92, R332) -/

/-- WAITING_TASK_READY (R92): the answer of a waiting task has come. -/
def State.waitingReady (s : State) (c : CoreIx) (b : BankIx) : State :=
  let k := s.bank c b
  if k.status ≠ .waiting then s
  else
    let s1 := s.modBank c b fun k => { k with status := .ready }
    let o := otherBank b
    let run := s1.bank c o
    if run.busy then
      (match k.img.task, run.img.task with
      | some t, some r => if r.cls < t.cls then s1.after 0 rankStop (.taskStop c o .preempt) else s1
      | _, _ => s1)
    else s1.coreFree c

def execWaitingTaskReady (s : State) : Out :=
  match s.focus.event with
  | some (.waitingTaskReady c b) => .next (s.waitingReady c b)
  | _ => .fault (.nothingThere "WAITING_TASK_READY")

/-! ### Filler in collective waits (R123) -/

/-- A context's wait on a barrier armed as collective heads its SYNC queue, and is answered by nothing yet. -/
def State.collWait (s : State) (m : Image) : Bool :=
  (List.finRange 3).any fun c => match (m.eqAt 12 c).words, (m.eqAt 12 c).cur with
    | w :: _, some k => k.waiting && k.mpc == 1 && (match w.instr with
      | .sWait _ _ _ _ =>
        let n := k.popped.getD 0 0
        let x := s.bar (nameColIx n) (nameIndex n)
        namePkg n == s.pkg.num && x.st == .armed && x.coll
      | _ => false)
    | _, _ => false

/-- The front task of a core waits collectively in this cycle. -/
def State.collective (s : State) (m : Image) : Bool :=
  m.task.isSome && (m.ctx.toList.all fun x => x.ended || x.blocked) && s.collWait m

/-- The oldest runnable FILLER record of a die whose window does not meet a task's; a gang, whose groups start together on a
run of cores (R101), starts on none of them alone. -/
def State.fillerFor (s : State) (d : DieIx) (blk : List Word) : Option (Nat × Record) :=
  (s.runnables d 0).find? fun x => !(windowsMeet x.2.blk blk) && !x.2.newGang

/-- A filler's next group starts in a bank, or a stopped one resumes there; one that another core's bank keeps leaves it first,
for a slot beside the reserved one (R111, R114). -/
def State.fillerStart (s : State) (c : CoreIx) (o : BankIx) (slot : Nat) (r : Record) : State :=
  let d := coreDie c
  let x := r.nextGroup
  match x.tid with
  | none => (s.setRecord d slot r.dealt).install c o (r.entry slot x) (s.firstIssue c o r.blk r.ready)
  | some t => (s.setRecord d slot r.dealt).schedule s.now (rankDealer + 211) (.ev (.taskResume c o t))

/-- A filler's next group can start now: it is new, or its image is whole in its slot. -/
def State.fillerReady (s : State) (d : DieIx) (r : Record) : Bool :=
  match r.nextGroup.tid with
  | none => true
  | some t => (s.die d).saved.any fun x => x.holds t && x.complete

/-- The image of a stopped filler leaves another core's bank, when a slot is free beside the one to be reserved (R111,
R114). -/
def State.fillerFetch (s : State) (d : DieIx) (r : Record) : State :=
  match r.nextGroup.tid.bind s.bankOf with
  | some (k, b) => if 2 ≤ s.slotsFree d ∧ (s.bank k b).status = .stopped then s.moveOut k b else s
  | none => s

/-- FILLER_COLLECTIVE_WAIT (R123): a slot is reserved, the waiting task stops in its bank, and a filler starts in the
other. -/
def State.fillerWait (s : State) (c : CoreIx) : State :=
  let d := coreDie c
  let k := s.core c
  let old := (s.die d).fillers.find? fun x => x.core == c
  let again := old.isSome
  let b : BankIx := match old with
    | some x => x.bank
    | none => k.front
  let o := otherBank b
  let m := s.img c b
  let may := if again then (s.bank c b).status == .waiting && bitAt 20 (s.die d).fillwait.toNat
    else s.collective m && !(s.stopWaits c b .pageWait)
  match m.task, s.fillerFor d m.blk with
  | some _, some (slot, r) =>
    if (s.bank c o).status ≠ .idle ∨ may = false ∨ (s.hasSlot d || ((s.die d).keptSlot c).isSome) = false then s
    else if !(s.fillerReady d r) then s.fillerFetch d r
    else
      let n := ((s.die d).keptSlot c).getD (s.die d).lowSlot
      let s1 := if again then s else (s.freeze c b).modBank c b fun k => { k with status := .waiting }
      let s2 := s1.modDie d fun k =>
        { k with fillers := (k.fillers.filter fun x => x.core != c) ++ [{ core := c, bank := b, slot := some n }] }
      s2.fillerStart c o slot r
  | _, _ => s

def execFillerCollectiveWait (s : State) : Out :=
  match s.focus.event with
  | some (.fillerCollectiveWait c) => .next (s.fillerWait c)
  | _ => .fault (.nothingThere "FILLER_COLLECTIVE_WAIT")

/-- FILLER_RETURN (R123): the barrier has fired; the filler stops and is written to its slot, and the waiting task
resumes. Where another task than a filler runs beside it, the waiting task is ready as R92 says. -/
def State.fillerReturn (s : State) (c : CoreIx) : State :=
  let d := coreDie c
  match (s.die d).fillers.find? fun x => x.core == c with
  | none => s
  | some x =>
    let b := x.bank
    if (s.bank c b).status ≠ .waiting ∨ s.collWait (s.img c b) = true then s
    else
      if x.slot.isSome ∧ (s.bank c (otherBank b)).busy = true then
        (s.modBank c b fun k => { k with status := .ready }).taskStop c (otherBank b) .preempt
      else s.waitingReady c b

def execFillerReturn (s : State) : Out :=
  match s.focus.event with
  | some (.fillerReturn c) => .next (s.fillerReturn c)
  | _ => .fault (.nothingThere "FILLER_RETURN")

end Sys2Proof.Machine
end

