-- ==== Sys2Proof/Machine/Faults.lean ====
section
/-! DEFINITION. Faults from their raising to their end (R316 to R325, R332, R333, R339, R348, R351 to R356, R371, R378): what a
context takes, what units find, the end of a case by the firmware's handler or the host, and the migration service. -/

namespace Sys2Proof.Machine

open Sys2Proof

/-! ### Taking a fault or an event (R320, R284) -/

/-- FAULT_TAKEN (R320). -/
def execFaultTaken (s : State) : Out :=
  match s.focus.event with
  | some (.faultTaken c b x) => .next (s.modBank c b fun k => k.takeTrap (ctxIx x))
  | _ => .fault (.nothingThere "FAULT_TAKEN")

/-- EVENT_TAKE (R284). -/
def execEventTake (s : State) : Out :=
  match s.focus.event with
  | some (.eventTake c b x) => .next (s.modBank c b fun k => k.takeTrap (ctxIx x))
  | _ => .fault (.nothingThere "EVENT_TAKE")

/-! ### Faults that a core finds by itself -/

/-- DEFERRED_FAULT (R339): the word of an access raises it at the access point. -/
def execDeferredFault (s : State) : Out :=
  match s.focus.event with
  | some (.deferredFault c b x code addr pc trap) => .next (s.raiseAt c b (ctxIx x) 0 0 pc trap code addr)
  | _ => .fault (.nothingThere "DEFERRED_FAULT")

/-- The queue registers of an image that are empty, and those that are full, as 0x0402 gives them (R319). -/
def Image.queueBits (m : Image) (c : Fin 3) : Word :=
  BitVec.ofNat 64 ((List.finRange 16).foldl (fun n q =>
    n + bit64 (m.queue c q).isEmpty q.val + bit64 (m.full c q) (16 + q.val)) 0)

/-- QUEUE_DEADLOCK (R324): the lowest-numbered context that has not ended is at fault, or the task with CTX 3. -/
def State.queueDeadlock (s : State) (c : CoreIx) (b : BankIx) : State :=
  let m := s.img c b
  match (List.finRange 3).find? fun i => !(m.ctx[i.val]).ended with
  | some i => s.raiseAt c b i 0 0 (m.ctx[i.val]).pc (m.ctx[i.val]).shadow.isSome 0x0402 (m.queueBits i)
  | none => s.systemRoute c b 3 0 0 0 0x0402 (m.queueBits 0)

def execQueueDeadlock (s : State) : Out :=
  match s.focus.event with
  | some (.queueDeadlock c b) => .next (s.queueDeadlock c b)
  | _ => .fault (.nothingThere "QUEUE_DEADLOCK")

/-- FORMAT_UNDERFLOW (R325): the MAT word at the head of a context's queue. -/
def State.formatUnderflow (s : State) (c : CoreIx) (b : BankIx) (i : Fin 3) : State :=
  (s.focusOn .perform c b i 2).engineFault 0x0401 none

def execFormatUnderflow (s : State) : Out :=
  match s.focus.event with
  | some (.formatUnderflow c b x) => .next (s.formatUnderflow c b (ctxIx x))
  | _ => .fault (.nothingThere "FORMAT_UNDERFLOW")

/-- TRAP_STREAM_TIMEOUT (R333). -/
def State.trapTimeout (s : State) (c : CoreIx) (b : BankIx) (i : Fin 3) : State :=
  let (a, s1) := s.faultAddr none
  s1.raiseAt c b i 0 0 ((s1.img c b).ctx[i.val]).pc true 0x0D02 a

def execTrapStreamTimeout (s : State) : Out :=
  match s.focus.event with
  | some (.trapStreamTimeout c b x) => .next (s.trapTimeout c b (ctxIx x))
  | _ => .fault (.nothingThere "TRAP_STREAM_TIMEOUT")

/-- REGION_OVERRUN (R371): the region is closed, and its context at fault. -/
def State.regionOverrun (s : State) (c : CoreIx) (b : BankIx) : State :=
  match (s.img c b).npr with
  | none => s
  | some r =>
    let (a, s1) := (s.modImg c b fun m => { m with npr := none }).faultAddr none
    s1.raiseAt c b r.ctx 0 0 ((s1.img c b).ctx[r.ctx.val]).pc false 0x0D01 a

def execRegionOverrun (s : State) : Out :=
  match s.focus.event with
  | some (.regionOverrun c b) => .next (s.regionOverrun c b)
  | _ => .fault (.nothingThere "REGION_OVERRUN")

/-! ### The end of a case (R321, R322, R323, R356, R362, R378) -/

/-- A task stopped on the system route, with the die that keeps it. -/
def State.savedTask (s : State) (tid : Nat) : Option (DieIx × Saved) :=
  s.dies.findSome? fun d => (d.2.saved.find? fun x => x.holds tid).map fun x => (Fin.ofNat 4 d.1, x)

/-- Changes to the word at fault: retry leaves a CTRL word at PC; skip passes it, or takes the head of the queue out (R321,
R331). The second component is the count that a skipped copy posts. -/
def Image.endFault (m : Image) (r : FaultRec) (action : Nat) (word : Nat → Word32) : Image × Option Cur :=
  let c : Nat := fld 23 16 r[0].toNat
  let q : Fin 13 := Fin.ofNat 13 (fld 31 24 r[0].toNat)
  let pc := fld 14 0 r[1].toNat
  if 3 ≤ c then (m, none)
  else
    let i : Fin 3 := Fin.ofNat 3 c
    if q.val = 0 then
      let past := if takesExt (word (pc / 4)) then 8 else 4
      (m.modCtx i fun x => { x with pc := BitVec.ofNat 15 (if action = 0 then pc else pc + past) }, none)
    else if action = 0 then (m, none)
    else if q.val = 10 then ({ m with progs := m.progs.filter fun p => !(p.faulted && p.ctx == i) }, none)
    else
      let f := (m.ctx[i.val]).faults.find? fun f => f.q == q
      match f, (m.eqAt q i).words with
      | some f, w :: _ => if w.pc = f.pc then (m.finish q i, (m.eqAt q i).cur) else (m, none)
      | _, _ => (m, none)

/-- A skipped copy posts the sectors counted so far, and its unit of weight returns (R321). -/
def State.postSkipped (s : State) (d : DieIx) (r : FaultRec) (k : Option Cur) : State :=
  let q := fld 31 24 r[0].toNat
  match k with
  | none => s
  | some k =>
    let s1 := if 5 ≤ q ∧ q ≤ 9 ∧ 0 < k.sent then
      s.postCount (Fin.ofNat 256 (fld 39 32 r[3].toNat)) 0 k.bar k.sent none else s
    s1.returnWeight d k.item (if k.item.isSome then 1 else 0)

/-- The answers still due to the word of a queue are discarded. -/
def State.dropAnswers (s : State) (tid : Nat) (r : FaultRec) : State :=
  s.withdraw fun a => match a with
    | .ev (.syncAnswer k _ _) =>
      k.tid == tid && k.q.val == fld 31 24 r[0].toNat && (ctxIx k.ctx).val == fld 23 16 r[0].toNat
    | _ => false

/-- ACTION in a fault record (R322). -/
def withAction (r : FaultRec) (action : Nat) : FaultRec :=
  r.set 3 (maskIn r[3] (BitVec.ofNat 64 (action * 2 ^ 48)) (bitsMask 55 48))

/-- ACTION is written into the record in a save slot, when its page is resident. -/
def State.markSlot (s : State) (d : DieIx) (x : Saved) (action : Nat) : State :=
  match x.slot with
  | none => s
  | some n =>
    match s.pageOf (s.slotVa d n) true with
    | (some k, s1) => s1.write (k + 190) 1 action
    | (none, s1) => s1

/-- A word of a program image, by its index. -/
def State.progWord (s : State) (d : DieIx) (blk : List Word) (i : Nat) : Word32 :=
  match locOf (dieCore d 0) (blkProg blk) with
  | some l => BitVec.ofNat 32 (s.read (l.key + 4 * i) 4)
  | none => 0

/-- The fault of a task out of its core is ended with an action (R321, R322): it is runnable again, or it fails. -/
def State.endTask (s : State) (tid : Nat) (code : BitVec 16) (action : Nat) : State :=
  match s.savedTask tid with
  | none => s
  | some (d, x) =>
    let r := x.fault
    let s0 := s.markSlot d x action
    if 2 ≤ action then
      let core : CoreIx := Fin.ofNat 256 (fld 39 32 r[3].toNat)
      let s1 := s0.modDie d fun k => { k with saved := k.saved.filter fun y => !(y.holds tid) }
      ((((s1.returnItems d x.img).undeal x.task).taskFailed x.task core code).slotFreed d).checkRetire
    else
      let (m, k) := x.img.endFault r action (s0.progWord d x.task.blk)
      let m1 : Image := { m with sysFault := none, ctx := m.ctx.map fun c => { c with faults := [] } }
      let s1 := if action = 1 then (s0.dropAnswers tid r).postSkipped d r k else s0
      (s1.modDie d fun y =>
        { y with
          saved := y.saved.map fun z =>
            if z.holds tid then { z with img := m1, faulted := false, fault := withAction r action } else z }).redeal x.task

/-- A case is ended with an action: its task's fault, or the host's decision on a failed group (R362). -/
def State.endCase (s : State) (d : DieIx) (x : FaultCase) (action : Nat) : State :=
  let s1 := s.modDie d fun k => { k with cases := k.cases.filter fun y => y.id != x.id }
  match x.failed with
  | some (t, core, code) => if action = 0 then s1.replayGroup t core else s1.failGroup t code
  | none =>
    match x.tid with
    | some tid => s1.endTask tid (x.record[0].setWidth 16) action
    | none => s1

/-- Records that a die holds in its overflow region (R104, R359). -/
def Die.overflow (k : Die) : Nat := (k.records.filter fun x => decide (65536 ≤ x.1)).length

/-- The system task of a case reaches its boundary. -/
def State.handlerDone (s : State) (d : DieIx) (id : Nat) : State :=
  let mine (c : CoreIx) (b : BankIx) : Bool :=
    let m := s.img c b
    m.system && (blkArg m.blk 0).toNat == id
  let here := (List.range 64).findSome? fun i =>
    let c := dieCore d i
    if mine c 0 then some (c, (0 : BankIx)) else if mine c 1 then some (c, 1) else none
  match here with
  | some (c, b) => s.taskBoundary c b
  | none => s

/-- FAULT_HANDLER_END (R322, R323): the handler copies the record to the ring, which it waits for, and ends the fault, or
leaves it to the host, whose service vector 1 requests (R303); 0x0A02 waits for room in the overflow region (R359). -/
def State.handlerEnd (s : State) (d : DieIx) (id : Nat) (action : Fin 4) : State :=
  match (s.die d).cases.find? fun x => x.id == id with
  | none => s.handlerDone d id
  | some x =>
    let code : BitVec 16 := x.record[0].setWidth 16
    let host := hostDecides x.modes code
    let act := min 2 action.val
    if (s.pkg.pcieUp && s.ringFull) || (!host && code == 0x0A02 && act == 0 && decide (258048 < (s.die d).overflow)) then
      s.schedule (s.now + 1) rankDealer (.ev (.faultHandlerEnd d id action))
    else
      let s1 := s.toRing d (if host then x.record else withAction x.record act)
      (if host then s1.modPkg fun p => { p with msix := p.msix ++ [1] } else s1.endCase d x act).handlerDone d id

def execFaultHandlerEnd (s : State) : Out :=
  match s.focus.event with
  | some (.faultHandlerEnd d id action) => .next (s.handlerEnd d id action)
  | _ => .fault (.nothingThere "FAULT_HANDLER_END")

/-- The case that waits for the host's decision on a record of the ring. -/
def State.hostCase (s : State) (n : Nat) : Option (DieIx × FaultCase) :=
  s.dies.findSome? fun d => (d.2.cases.find? fun x => x.num == some n).map fun x => (Fin.ofNat 4 d.1, x)

/-- The task that a record's REF and GROUP name, while it has not ended. -/
def State.recordTask (s : State) (r : FaultRec) : Option Nat :=
  let ref := fld 63 32 r[1].toNat
  let group := fld 31 0 r[3].toNat
  if fld 23 16 r[0].toNat = 3 then none
  else
    s.images.findSome? fun m => m.task.bind fun t =>
      if (recordRef t.slot t.die.val 0 t.pkg).toNat = ref ∧ t.group = group then some t.tid else none

/-- A task is failed by the host (R346), wherever it is. -/
def State.hostFails (s : State) (tid : Nat) (code : BitVec 16) : State :=
  match s.bankOf tid with
  | some (c, b) =>
    (s.modImg c b fun m => { m with abandon := some code }).after 0 rankStop (.taskStop c b (.fault code))
  | none => s.endTask tid code 2

/-- The host's action on a record that no case of this package waits for: it fails a task whose word was cut off (R346). -/
def State.actLate (s : State) (r : FaultRec) (act : Nat) : State :=
  let code : BitVec 16 := r[0].setWidth 16
  if code = 0x0804 ∧ bitAt 1 s.pkg.modes.toNat = true ∧ act = 2 then
    match s.recordTask r with
    | some tid => s.hostFails tid code
    | none => s
  else s

/-- The host's action on a record of this package that another package's ring holds (R323). -/
def State.actFar (s : State) (r : FaultRec) (act : Nat) : State :=
  let mine (x : FaultCase) : Bool := x.record == r && hostDecides x.modes (r[0].setWidth 16)
  match s.dies.findSome? fun d => (d.2.cases.find? mine).map fun x => (Fin.ofNat 4 d.1, x) with
  | some (d, x) => s.endCase d x act
  | none => s.actLate r act

/-- FAULTACT (R323): the action is applied to the task of the record the index names, if it still waits; the bridge sends it
on to the package of the record. -/
def State.faultact (s : State) (v : Word) : State :=
  let h := s.pkg.bridge.faultHead.toNat
  let ix := fld 5 0 v.toNat
  let act := min 2 (fld 9 8 v.toNat)
  let n := h - 1 - (h - 1 - ix) % 64
  let r := s.pkg.bridge.ring.get (#v[0, 0, 0, 0]) ix
  if h = 0 ∨ h ≤ ix then s
  else if recordPkg r ≠ s.pkg.num then
    (if s.reaches (recordPkg r) then s.send (recordPkg r) (.act r.toList act) else s)
  else match s.hostCase n with
    | some (d, x) => s.endCase d x act
    | none => s.actLate r act

def execFaultact (s : State) : Out :=
  match s.focus.event with
  | some (.faultact v) => .next (s.faultact v)
  | _ => .fault (.nothingThere "FAULTACT")

/-! ### A core is withdrawn (R348) -/

/-- A launch's record of a fault that names it and no word. -/
def State.launchRecord (s : State) (d : DieIx) (slot : Nat) (code : BitVec 16) : State :=
  let (a, s1) := s.faultAddr none
  s1.toRing d ((s.faultRec code 3 0 0 0 a none 0).set 1 (BitVec.ofNat 64 ((recordRef slot d.val 0 s.pkg.num).toNat * 2 ^ 32)))

/-- Gangs that no run of the die's cores can take any more fail. -/
def State.failGangs (s : State) (d : DieIx) : State :=
  let l := (s.die d).records.filter fun x =>
    blkGang x.2.blk && x.2.next == 0 && !x.2.husk && decide (s.longestRun d < x.2.groups)
  s.each l fun s x => (s.launchRecord d x.1 0x0A01).failRecord d x.1 0x0A01

/-- CORE_WITHDRAWN (R348): the core takes no more groups; it is withdrawn once it holds no task. -/
def State.coreWithdrawn (s : State) (c : CoreIx) : State :=
  let d := coreDie c
  let k := s.core c
  let s1 :=
    if k.ineligible then s
    else
      let s2 := (s.modCore c fun k => { k with ineligible := true, hand := [], reserved := none }).each k.hand.reverse
        fun s h => s.handBack d h
      let s3 := match k.reserved with
        | none => s2
        | some slot =>
          ((s2.modRecord d slot fun r => { r with reserved := none }).each (List.range 64) fun s i =>
            s.modCore (dieCore d i) fun x => if x.reserved = some slot then { x with reserved := none } else x).schedule
              s2.now (rankDealer + 150) (.ev (.gangReservation d slot))
      (s3.failGangs d).wantChoice d
  if (s1.core c).idle then s1.modCore c fun k => { k with withdrawn := true } else s1

def execCoreWithdrawn (s : State) : Out :=
  match s.focus.event with
  | some (.coreWithdrawn c) => .next (s.coreWithdrawn c)
  | _ => .fault (.nothingThere "CORE_WITHDRAWN")

/-! ### The migration service (R77, R332, R352) -/

/-- Where a walk ends, a page that is not resident included: the entry's key, its value and its page's size; none when the
tables have no leaf there. -/
def State.leafAt (s : State) (va : Nat) : Nat → Nat → Except (BitVec 16) Leaf
  | 0, _ => .error 0x0603
  | level + 1, table =>
    match s.place (table + 8 * (va / 2 ^ (12 + 9 * level) % 512)) with
    | none => .error 0x0603
    | some key =>
      let e := s.entryAt key
      let leaf := bitAt 2 e
      if fld 11 6 e ≠ 0 ∨ fld 63 52 e ≠ 0 then .error 0x0603
      else if (leaf && decide (3 ≤ level)) || (!leaf && level == 0 && bitAt 0 e) then .error 0x0603
      else if leaf then .ok ⟨key, e, 2 ^ (12 + 9 * level)⟩
      else if !(bitAt 0 e) then .error 0x0601
      else if (s.place (pteFrame e)).isNone then .error 0x0603
      else s.leafAt va level (pteFrame e)

/-- The leaf of a virtual address in the tables of PTBASE. -/
def State.leafOf (s : State) (va : Nat) : Except (BitVec 16) Leaf :=
  s.leafAt va 5 (fld 51 12 s.pkg.ptbase.toNat * 4096)

/-- Whether the 4 KiB page of a virtual address is resident. -/
def State.isResident (s : State) (va : Nat) : Bool :=
  match s.leafOf va with
  | .ok l => bitAt 0 l.pte
  | .error _ => false

/-- The 4 KiB pages of a block. -/
def pagesOf (base size : Nat) : List Nat := (List.range (size / 4096)).map fun i => base + 4096 * i

/-- The span s around a faulting address, grown in at most n doublings (R77). -/
def State.spanOf (s : State) (va : Nat) : Nat → Nat → Nat
  | 0, size => size
  | n + 1, size =>
    let b := va / (2 * size) * (2 * size)
    let mine := va / size * size
    let other := if mine = b then b + size else b
    let res := 4096 * ((pagesOf other size).filter s.isResident).length
    -- 256 × f > T, f a fraction of 2s
    if fld 7 0 s.pkg.pfthresh.toNat * (2 * size) < 256 * (size + res) then s.spanOf va n (2 * size) else size

/-- The pages that the service has to bring in. -/
def State.migrationSpan (s : State) (va : Nat) : List Nat :=
  let size := s.spanOf va (fld 2 0 s.pkg.pfblock.toNat) 65536
  (pagesOf (va / size * size) size).filter fun p => !(s.isResident p)

/-- The word that waits, at fault (R332); its task when the word is out of its bank. -/
def State.waitFault (s : State) (who : Asker) (code : BitVec 16) (va : Word) : State :=
  let c := ctxIx who.ctx
  match bankWithWord s.cores who.tid who.q c with
  | none => s.taskFault who.tid code (some va)
  | some (core, bank) =>
    match ((s.img core bank).eqAt who.q c).words with
    | [] => s
    | w :: _ => s.raiseAt core bank c who.q who.mpc w.pc w.trap code va

/-- MIGRATION_SERVICE (R77): hardware chooses the span and brings it in, in a time that the spec does not fix; in
host-assisted mode the fault goes to the host (R352). -/
def State.migrationService (s : State) (who : Asker) (va : Word) : State :=
  if bitAt 0 s.modesNow.toNat then s.waitFault who 0x0601 va
  else
    let (f, s1) := s.nextFree
    s1.schedule (s1.now + 1 + Config.freeLatency f) rankUnit (.ev (.migrationComplete who (s.migrationSpan va.toNat)))

def execMigrationService (s : State) : Out :=
  match s.focus.event with
  | some (.migrationService who va) => .next (s.migrationService who va)
  | _ => .fault (.nothingThere "MIGRATION_SERVICE")

/-- Bytes moved from one place of memory to another that holds nothing else. -/
def State.moveBlock (s : State) (from' to' n : Nat) : State :=
  let cells := (s.mem.filter fun x => decide (from' ≤ x.1 ∧ x.1 < from' + n)).map fun x => (to' + (x.1 - from'), x.2)
  let s1 := { s.clearErrors to' n with mem := s.mem.filter fun y => !(decide (to' ≤ y.1 ∧ y.1 < to' + n)) }
  { s1 with mem := cells.foldl (fun m x => memPut m x.1 x.2) s1.mem }

/-- The sixteen entries of a 64 KiB page, or the one entry of any other. -/
def Leaf.keys (l : Leaf) : List Nat :=
  if l.size = 4096 ∧ bitAt 3 l.pte = true then (List.range 16).map fun i => l.key - l.key % 128 + 8 * i else [l.key]

/-- The frame of n bytes that firmware's pool gives (R352), by its key: one of this package's far memory which the service has
not taken before and where nothing is stored; a pool that names another is empty: DESIGN CHOICE, log entry 115. -/
def State.poolFrame (s : State) (f n : Nat) : Option Nat :=
  match Config.freeFrame f with
  | none => none
  | some x =>
    let base := x * 4096 % 2 ^ 40 / n * n
    let used (lo : Nat) : Bool := decide (base ≤ lo ∧ lo < base + n)
    let old := (s.pkg.taken.zip (s.pkg.taken.drop 1)).zipIdx.any fun t =>
      t.2 % 2 == 0 && decide (t.1.1 < base + n ∧ base < t.1.1 + t.1.2)
    if old || (s.mem.any fun c => used c.1) || (s.poison.any used) || decide (s.farRoom < base % 2 ^ 38 + n) then none
    else some base

/-- One page is brought in (R77, R352): its leaf's frame of host memory moves to a free frame of far memory. -/
def State.bringIn (s : State) (va : Nat) : State × Option (BitVec 16) :=
  match s.leafOf va with
  | .error c => (s, some c)
  | .ok l =>
    if bitAt 0 l.pte then (s, none)
    else if !(bitAt 51 (pteFrame l.pte)) then (s, some 0x0601)
    else
      let keys := l.keys
      let size := l.size * keys.length
      let (f, s1) := s.nextFree
      match s1.poolFrame f size with
      | none => (s1, some 0x0604)
      | some base =>
        let src := keys.map fun k => pteFrame (s1.entryAt k) / l.size * l.size
        if !s1.pkg.pcieUp || src.any (fun a => s1.poison.any fun g => decide (a ≤ g ∧ g < a + l.size)) ||
            src.any (fun a => !(bitAt 51 a)) then (s1, some 0x0604)
        else
          let s2 := (s1.modPkg fun p => { p with taken := p.taken ++ [base, size] }).each src.zipIdx fun s x =>
            s.moveBlock x.1 (base + l.size * x.2) l.size
          (s2.each keys.zipIdx (fun s x =>
            let e := s.entryAt x.1
            let frame := s.pkgKey (base + l.size * x.2)
            s.write x.1 8 (e - pteFrame e + frame + (if bitAt 0 e then 0 else 1))), none)

/-- The pages of a span, in ascending order, until one cannot be brought in. -/
def State.bringAll (s : State) : List Nat → State × Option (BitVec 16 × Nat)
  | [] => (s, none)
  | p :: rest =>
    match s.bringIn p with
    | (s1, none) => s1.bringAll rest
    | (s1, some c) => (s1, some (c, p))

/-- MIGRATION_COMPLETE (R332, R352): the span is resident and the task ready, or the word that waits is at fault. -/
def State.migrationComplete (s : State) (who : Asker) (pages : List Nat) : State :=
  match s.bringAll pages with
  | (s1, some (c, p)) => s1.waitFault who c (BitVec.ofNat 64 p)
  | (s1, none) =>
    match s1.bankOf who.tid with
    | none => s1
    | some (core, bank) =>
      let s2 := s1.modImg core bank fun m => { m with stopReq := if m.stopReq = some .pageWait then none else m.stopReq }
      s2.schedule s2.now rankDealer (.ev (.waitingTaskReady core bank))

def execMigrationComplete (s : State) : Out :=
  match s.focus.event with
  | some (.migrationComplete who pages) => .next (s.migrationComplete who pages)
  | _ => .fault (.nothingThere "MIGRATION_COMPLETE")

/-- WALK_FILL (R76, R353): the translation that a stream buffer has requested is filled; a fill whose generation is old is discarded, and the walk begins again. -/
def execWalkFill (s : State) : Out :=
  match s.focus.event with
  | some (.walkFill core q va wr gen) =>
    .next (if gen = s.pkg.tgen then (s.translate (some (core, q)) va.toNat wr).2
      else s.after 1 rankUnit (.walkFill core q va wr s.pkg.tgen))
  | _ => .fault (.nothingThere "WALK_FILL")

end Sys2Proof.Machine
end

