-- ==== Sys2Proof/Machine/System.lean ====
section
/-! DEFINITION. The package as the host and the driver see it (R301 to R306, R313, R314, R323, R359, R360, R374 to R376): the
start, writes of registers, host accesses, telemetry and the attestation report. -/

namespace Sys2Proof.Machine

open Sys2Proof

/-! ### The start (R301, R302, R376) -/

/-- What the world outside brings: it stays due when the package starts again. -/
def Event.external (e : Event) : Bool :=
  match e with
  | .powerOn _ _ | .bridgeClaim _ _ | .reset | .enabled _ | .nonce _ | .faultact _ | .tlbinv _ | .refwinWrite _ _
  | .bankbudgetWrite _ _ _ | .bustimingWrite _ _ _ | .registerWrite _ _ | .hostMemoryRead _ _ _ | .hostMemoryWrite _ _ _
  | .hostEnqueueWrite _ _ | .dramSensorReading _ _ _ | .governorSample _ _ | .thermalTrip _ | .telemetryRecord _ _ _ _ _
  | .ptpSyncArrival _ _ _ | .todMessage _ | .ppsEdge | .ptmSteer _ _ | .timeSourceLoss | .flitReceive _ _ _ _ _ | .portDown _
  | .portTrained _ | .routeRecompute _ | .pcieLinkLoss | .columnPowerDown _ | .columnPowerUp _ | .columnReset _ => true
  | _ => false

/-- Entries from outside that are still to come, counted from a start in cycle n. -/
def externals (n : Nat) (l : List Entry) : List Entry :=
  l.filterMap fun x => match x.act with
    | .ev e => if e.external then some { x with due := x.due - n } else none
    | _ => none

/-- The repair state that a start keeps (R302). -/
def Slice.kept (x : Slice) : Slice :=
  { Slice.reset with condemned := if x.condemned.isSome then some 0 else none, retired := x.retired, spares := x.spares }

/-- BUS, DIV and TALON of BUSTIMING (R302). -/
def keptTiming (v : Word) : Word := maskIn 0 v (bitsMask 6 0 + bitsMask 9 8 + bitsMask 27 24)

/-- A column after step 2 of a start: its repair state stays. -/
def Column.kept (k : Column) : Column :=
  { Column.reset with slices := k.slices.map Slice.kept, busTiming := k.busTiming.map keptTiming }

/-- The port is trained. -/
def State.linkUp (s : State) (n : Nat) : Bool := (s.pkg.ports.get PortState.reset n).trained

/-- The trained ports. -/
def State.upPorts (s : State) : List Port := (List.finRange 12).filter fun n => s.linkUp n.val

/-- Step 2 of R301: every store as R302 says, and the ports trained, each of which measures its link (R307). -/
def State.start (s : State) : State :=
  let s1 : State :=
    { State.reset with
      free := s.free, nextTid := s.nextTid
      agenda := (externals s.now s.agenda).foldl (fun l e => agendaAdd e l) State.reset.agenda
      cols := s.cols.map fun c => (c.1, c.2.kept)
      pkg :=
        { Package.reset with
          features := s.pkg.features, meas := s.pkg.meas
          ports := s.pkg.ports.map fun p => (p.1, { PortState.reset with trained := p.2.trained }) } }
  let s2 := s1.each (List.finRange 4) fun s d =>
    let k := s.newStores d
    if k = 7 then s else s.modDie d fun x => { x with storesCol := k, storesSeen := [(0, k)] }
  s2.each s2.upPorts fun s n => s.after 0 rankUnit (.linkDelayMeasure n)

/-- The number by which a bridge claim names its package: the model takes the first words of its identity key. DESIGN
CHOICE, log entry 97. -/
def ownClaim : Nat := (Config.identityKey 0).toNat

/-- Step 5 begins (R301): the first refresh window of every bank begins with it, every bank precharged (R64), and the group's
time from zero (R308). -/
def State.stepFive (s : State) (num group : Nat) (links : List Link) : State :=
  let s1 := s.modPkg fun p => { p with num, group, links, phase := 5, pcieUp := true }
  if s1.now = 0 then s1
  else
    let due := s1.now + 8775
    let cols : Store Column := (List.range 32).map fun c =>
      let k := s1.cols.get Column.reset c
      (c, { k with dram := (List.range 32).map fun b =>
        let x := k.dram.get DramBank.reset b
        (b, { x with window := s1.now }) })
    ({ s1 with
      cols
      agenda := s1.agenda.foldl (fun l e => match e.act with
        | .ev (.forcedRefresh _ _) => agendaAdd { e with due } l
        | _ => agendaAdd e l) [] } : State).setTime 0 0

/-- Step 3 of R301 and R376: a strapped package sends its claim on every trained port, and waits for the links of the group;
one that is joined to none is a group by itself. A package with its strap low waits for a claim. -/
def State.stepThree (s : State) : State :=
  if s.isBridge then
    (if s.upPorts.isEmpty then (s.stepFive 0 1 []).modBridge fun b => { b with startStat := 2 }
    else
      (s.modPkg fun p =>
        { p with
          phase := 3, pcieUp := false, claims := [ownClaim]
          bridge := { p.bridge with startStat := 2 } }).sendAll none (.claim ownClaim))
  else (s.modPkg fun p => { p with phase := 3, pcieUp := false }).after (2 ^ 24) rankUnit .bridgeClaimTimeout

/-- POWER_ON (R301, R314, R376): the strap is sampled; the boot extends the measurement registers, and goes no further than
an image that does not verify. -/
def State.powerOn (s : State) (strap ok : Bool) : State :=
  let f := maskIn s.pkg.features (BitVec.ofNat 64 (bit64 strap 0 + bit64 strap 6)) (bitsMask 0 0 + bitsMask 6 6)
  let s1 := ({ s with pkg := { s.pkg with features := f } } : State).start
  if ok then (s1.modPkg fun p => { p with meas := Vector.ofFn fun i => Config.bootMeasure i.val }).stepThree
  else s1.modPkg fun p => { p with meas := Vector.replicate 8 0, phase := 1, pcieUp := false }

def execPowerOn (s : State) : Out :=
  match s.focus.event with
  | some (.powerOn strap ok) => .next (s.powerOn strap ok)
  | _ => .fault (.nothingThere "POWER_ON")

/-- Steps 2 to 5 again; a package whose boot has not ended runs none of them. -/
def State.restart (s : State) : State := if s.pkg.phase = 1 then s else s.start.stepThree

/-- A start of the whole group, which the host asks of the bridge (R301). -/
def State.resetGroup (s : State) : State :=
  let s1 := s.each s.others fun s p => s.send p .restart
  let s2 := s.restart
  s2.modPkg fun p => { p with sentPackets := s1.pkg.sentPackets ++ p.sentPackets }

/-- The bridge block answers the host: the bridge has brought up its port (R301), or step 3 has found several straps, which
leaves the host nothing else (R376). -/
def Package.block (p : Package) : Bool := bitAt 0 p.features.toNat && p.pcieUp && (p.phase == 5 || p.phase == 6)

/-- The host reaches what lies beyond the bridge block. -/
def Package.open (p : Package) : Bool := p.block && p.phase == 5

/-- RESET (R301): the bridge starts the group; on another package, the bridge has asked for the start. -/
def execReset (s : State) : Out :=
  match s.focus.event with
  | some .reset => .next (if s.isBridge then (if s.pkg.block then s.resetGroup else s) else s.restart)
  | _ => .fault (.nothingThere "RESET")

/-- BRIDGE_CLAIM (R376): a claim is forwarded once; a strapped package that hears another's ends its start, its port up for
the bridge block alone; any other has heard the claim it waits for. -/
def State.bridgeClaim (s : State) (port : Port) (n : Nat) : State :=
  if s.pkg.claims.contains n then s
  else
    let claims := s.pkg.claims ++ [n]
    let s1 := (s.modPkg fun p => { p with claims }).sendAll (some port.val) (.claim n)
    if s.pkg.phase ≠ 3 ∧ s.pkg.phase ≠ 6 then s1
    else if s.isBridge then
      s1.modPkg fun p =>
        { p with
          phase := 6, pcieUp := true
          bridge := { p.bridge with startStat := BitVec.ofNat 64 (1 + 2 * min 63 claims.length) } }
    else s1.withdraw fun a => a == .ev .bridgeClaimTimeout

def execBridgeClaim (s : State) : Out :=
  match s.focus.event with
  | some (.bridgeClaim port n) => .next (s.bridgeClaim port n)
  | _ => .fault (.nothingThere "BRIDGE_CLAIM")

/-- BRIDGE_CLAIM_TIMEOUT (R376): no claim has come; the package stays in step 3, its PCIe port idle. -/
def execBridgeClaimTimeout (s : State) : Out :=
  match s.focus.event with
  | some .bridgeClaimTimeout =>
    .next (if s.pkg.phase = 3 then s.modPkg fun p => { p with phase := 7, pcieUp := false } else s)
  | _ => .fault (.nothingThere "BRIDGE_CLAIM_TIMEOUT")

/-- What enumeration gives a package that has heard its bridge (R301). -/
def State.enumerated (s : State) (num group : Nat) (links : List Link) : State :=
  if s.pkg.phase = 3 ∧ !s.isBridge = true ∧ !s.pkg.claims.isEmpty = true then s.stepFive num group links else s

/-- The bridge enumerates the group, from the links that its ports' training has made: each package is given its number, the
size of the group and the links, in the order in which it is found, and step 5 begins (R301). -/
def State.enumerateGroup (s : State) (links : List Link) : State :=
  let l := numbered links
  let group := (routesOf l 0).length + 1
  let s1 := s.stepFive 0 group l
  s1.each s1.others fun s p => s.send p (.enumerate p group l)

/-! ### Writes of registers (R197, R198, R304, R306, R330) -/

/-- ENABLED (R306). -/
def execEnabled (s : State) : Out :=
  match s.focus.event with
  | some (.enabled v) => .next (if s.pkg.phase = 5 ∧ sysForbidden 0x202 v = false then s.writeEnabled v else s)
  | _ => .fault (.nothingThere "ENABLED")

/-- TLBINV (R76). -/
def execTlbinv (s : State) : Out :=
  match s.focus.event with
  | some (.tlbinv v) => .next (s.writeTlbinv v)
  | _ => .fault (.nothingThere "TLBINV")

/-- REFWIN_WRITE (R64). -/
def execRefwinWrite (s : State) : Out :=
  match s.focus.event with
  | some (.refwinWrite c v) => .next (s.writeRefwin c v)
  | _ => .fault (.nothingThere "REFWIN_WRITE")

/-- BANKBUDGET_WRITE (R60). -/
def execBankbudgetWrite (s : State) : Out :=
  match s.focus.event with
  | some (.bankbudgetWrite c g v) => .next (if sysForbidden 0x014 v then s else s.writeBudget c g v)
  | _ => .fault (.nothingThere "BANKBUDGET_WRITE")

/-- BUSTIMING_WRITE (R341). -/
def execBustimingWrite (s : State) : Out :=
  match s.focus.event with
  | some (.bustimingWrite c l v) => .next (if sysForbidden 0x029 v then s else s.writeBusTiming c l v)
  | _ => .fault (.nothingThere "BUSTIMING_WRITE")

/-- Records that wait for room in the fault ring, or for the bridge, go there, while they can (R323, R375). -/
def State.drainRing (s : State) : Nat → State
  | 0 => s
  | n + 1 =>
    if !s.pkg.pcieUp || (s.isBridge && s.ringFull) then s
    else match s.pkg.faultsHeld with
      | r :: rest => ((s.modPkg fun p => { p with faultsHeld := rest }).toRing 0 r).drainRing n
      | [] =>
        match s.dies.find? fun d => !d.2.waitRing.isEmpty with
        | some (d, k) =>
          (match k.waitRing with
          | r :: rest => ((s.modDie (Fin.ofNat 4 d) fun k => { k with waitRing := rest }).toRing 0 r).drainRing n
          | [] => s)
        | none => s

/-- A write of a double word of the bridge block (R304, R323). NONCE, of 32 bytes, has its own event. -/
def State.bridgeWrite (s : State) (off : Nat) (v : Word) : State :=
  match off with
  | 0x0000 => if v = 1 then s.resetGroup else s
  | 0x0008 => s.modBridge fun b => { b with hostRing := maskIn b.hostRing v (bitsMask 63 12) }
  | 0x0010 => s.modBridge fun b => { b with hostSize := maskIn 0 v (bitsMask 3 0) }
  | 0x0020 => s.modBridge fun b => { b with hostTail := v }
  | 0x0028 => s.modBridge fun b => { b with hostThr := v }
  | 0x4808 => (s.modBridge fun b => { b with faultTail := v }).drainRing 64
  | 0x4810 => s.faultact v
  | _ => s

/-- A double word of the bridge block as the host reads it (R304, R323, R339, R359, R376): a field that is written only reads
zero. -/
def State.bridgeRead (s : State) (off : Nat) : Word :=
  let b := s.pkg.bridge
  let ring (n : Nat) : Word :=
    let r := b.ring.get (#v[0, 0, 0, 0]) (n / 4)
    r[n % 4]'(Nat.mod_lt _ (by decide))
  match off with
  | 0x0008 => b.hostRing
  | 0x0010 => b.hostSize
  | 0x0018 => b.hostHead
  | 0x0020 => b.hostTail
  | 0x0028 => b.hostThr
  | 0x0030 => b.hostRefused
  | 0x0038 => b.teleLost
  | 0x0040 => b.startStat
  | 0x4800 => b.faultHead
  | 0x4808 => b.faultTail
  | n =>
    if 0x1000 ≤ n ∧ n < 0x3000 then b.report.getD ((n - 0x1000) / 8) 0
    else if 0x3000 ≤ n ∧ n < 0x3200 then b.farEcc.get 0 ((n - 0x3000) / 8)
    else if 0x4000 ≤ n ∧ n < 0x4800 then ring ((n - 0x4000) / 8)
    else 0

/-- What an offset of BAR0 names (R304): a double word of the bridge block, or a register of a package, as a core of its
column reads it. -/
inductive RegAt where
  | block (off : Nat)
  | reg (pkg : Nat) (core : CoreIx) (n : Nat)
  | nothing (pkg : Nat)
  deriving DecidableEq, Repr

/-- The first form names registers of column, die or package scope, the last two with the column, or the die and column, that
it gives them; the second, core-scope registers. DESIGN CHOICE of what other numbers name, log entry 116. -/
def regAt (off : Nat) : RegAt :=
  let pkg := off / 2 ^ 20
  let die := off / 2 ^ 18 % 4
  let col := off / 2 ^ 15 % 8
  let i := off / 8 % 4096
  let core (k : Nat) : CoreIx := Fin.ofNat 256 (64 * die + 8 * col + k)
  let k := (i - 0x800) / 16
  if 0x4000000 ≤ off then .block (off - 0x4000000)
  else if 0x800 ≤ i then
    (if k < 8 ∧ i % 16 < 8 then .reg pkg (core k) (0x010 + i % 16) else .nothing pkg)
  else if i < 0x020 ∨ (0x040 ≤ i ∧ col ≠ 0) ∨ (0x200 ≤ i ∧ die ≠ 0) then .nothing pkg
  else .reg pkg (core 0) i

/-- A double word of BAR0 in this package, as the host reads it. -/
def State.regRead (s : State) (off : Nat) : Word :=
  match regAt off with
  | .block n => s.bridgeRead n
  | .reg _ c n => s.sysRead c s.now n
  | .nothing _ => 0

/-- A host write of a double word of BAR0 reaches the package that owns it. -/
def State.regWrite (s : State) (off : Nat) (v : Word) : State :=
  match regAt off with
  | .block n => s.bridgeWrite n v
  | .reg _ c n => s.sysWrite c n v
  | .nothing _ => s

/-- REGISTER_WRITE (R198, R304): a host write of a double word of BAR0, which the bridge performs or forwards. -/
def State.registerWrite (s : State) (off : Nat) (v : Word) : State :=
  let send (p : Nat) : State :=
    if !s.pkg.open then s
    else if p = s.pkg.num then s.regWrite off v
    else if s.reaches p then s.send p (.host (.reg off v))
    else s
  match regAt off with
  | .block _ => if s.pkg.block then s.regWrite off v else s
  | .reg p _ _ => send p
  | .nothing _ => s

def execRegisterWrite (s : State) : Out :=
  match s.focus.event with
  | some (.registerWrite off v) => .next (s.registerWrite off v)
  | _ => .fault (.nothingThere "REGISTER_WRITE")

/-! ### Host accesses (R304, R337, R338, R374) -/

/-- The place in this package that a device physical address of a host access names, or why it names none; no code when
nothing is there at all. DESIGN CHOICE of no record, log entry 114. -/
def State.hostPlace (s : State) (pa n : Nat) : Except (Option (BitVec 16)) Nat :=
  match s.place pa with
  | none => .error none
  | some k =>
    match spaceOf k with
    | .tower col layer off =>
      let l : Loc := ⟨col / 8, col % 8, 0, layer, off⟩
      if s.sliceCap l.colIx l.layer s.now < l.off + n then .error (some 0x0802)
      else if layer = 4 ∧ s.rowOpen l.colIx off = false then .error (some 0x0801)
      else .ok k
    | .far 0 _ b => if b + n ≤ s.farRoom then .ok k else .error none
    | _ => .error none

def State.hostAnswer (s : State) (a : HostAnswer) : State :=
  s.modPkg fun p => { p with hostAnswers := p.hostAnswers ++ [a] }

/-- A completion without data. -/
def HostAnswer.aborted : HostAnswer := { bytes := [], ep := false, abort := true }

/-- A host access that its place cannot serve: a record with CTX 3, when it has a code. -/
def State.hostFault (s : State) (code : Option (BitVec 16)) (pa : Nat) : State :=
  match code with
  | some c => s.report 0 c (s.keyAddr (s.pkgKey pa))
  | none => s

/-- The bytes of n double words. -/
def wordBytes (l : List Word) : List Byte :=
  l.flatMap fun v => (List.range 8).map fun i => BitVec.ofNat 8 (v.toNat / 2 ^ (8 * i))

/-- A host read of this package, as it completes (R304, R338, R360): of BAR0 the registers, of BAR2 zeros, of BAR4 the data,
with EP when a granule is poisoned. -/
def State.hostReadHere (s : State) (bar : Fin 3) (off n : Nat) : HostAnswer × State :=
  match bar.val with
  | 0 =>
    let l := (List.range ((off % 8 + n + 7) / 8)).map fun i => s.regRead (8 * (off / 8 + i))
    ({ bytes := ((wordBytes l).drop (off % 8)).take n, ep := false, abort := false }, s)
  | 1 => ({ bytes := List.replicate n 0, ep := false, abort := false }, s)
  | _ =>
    match s.hostPlace off n with
    | .error c => (.aborted, s.hostFault c off)
    | .ok k =>
      let s1 := s.noteRead k n
      ({ bytes := memBytes s1.mem k n, ep := (s1.poisonIn k n).isSome, abort := false }, s1)

/-- The package that an offset of a BAR lies in. -/
def barPkg (bar : Fin 3) (off : Nat) : Nat :=
  match bar.val with
  | 0 => off / 2 ^ 20
  | 1 => off / 0x4000
  | _ => fld 50 45 off

/-- HOST_MEMORY_READ (R304): the bridge completes a read, or forwards it; one that it can do neither with completes with
Completer Abort (R374, R376). -/
def State.hostRead (s : State) (bar : Fin 3) (off n : Nat) : State :=
  let p := barPkg bar off
  let here : State :=
    let (a, s1) := s.hostReadHere bar off n
    s1.hostAnswer a
  if bar = 0 ∧ 0x4000000 ≤ off then (if s.pkg.block then here else s.hostAnswer .aborted)
  else if !s.pkg.open ∨ (bar = 2 ∧ 2 ^ 51 ≤ off) then s.hostAnswer .aborted
  else if p = s.pkg.num then here
  else if s.reaches p then s.send p (.host (.read bar off n))
  else s.hostAnswer .aborted

def execHostMemoryRead (s : State) : Out :=
  match s.focus.event with
  | some (.hostMemoryRead bar off n) => .next (s.hostRead bar off n)
  | _ => .fault (.nothingThere "HOST_MEMORY_READ")

/-- A host write to this package's memory (R338): with EP every granule it touches is poisoned. -/
def State.hostWriteHere (s : State) (pa : Nat) (bytes : List Byte) (ep : Bool) : State :=
  match s.hostPlace pa bytes.length with
  | .error c => s.hostFault c pa
  | .ok k =>
    let s1 := (s.writeBytes k bytes).dramTouch k true
    if ep then s1.poisonAt k bytes.length else s1

/-- HOST_MEMORY_WRITE (R160, R304): the bridge performs a write or forwards it; one for a package that it does not reach is
dropped (R374). -/
def State.hostWrite (s : State) (pa : Nat) (bytes : List Byte) (ep : Bool) : State :=
  let p := barPkg 2 pa
  if !s.pkg.open ∨ 2 ^ 51 ≤ pa then s
  else if p = s.pkg.num then s.hostWriteHere pa bytes ep
  else if s.reaches p then s.send p (.host (.write pa bytes ep))
  else s

def execHostMemoryWrite (s : State) : Out :=
  match s.focus.event with
  | some (.hostMemoryWrite pa bytes ep) => .next (s.hostWrite pa bytes ep)
  | _ => .fault (.nothingThere "HOST_MEMORY_WRITE")

/-- The double words of a list of bytes. -/
def wordsOf (bytes : List Byte) (n : Nat) : List Word :=
  (List.range n).map fun i =>
    BitVec.ofNat 64 (((bytes.drop (8 * i)).take 8).foldr (fun b v => b.toNat + 256 * v) 0)

/-- A host launch record reaches the dealer of its aperture, from the PCIe port or through a Sprinwell port (R103). -/
def State.hostBlock (s : State) (port : Nat) (off : Nat) (bytes : List Byte) : State :=
  s.schedule s.now (rankDealer + 134 + port) (.ev (.launchEnqueue (Fin.ofNat 4 (off / 0x1000)) (wordsOf bytes 16) (.host off) none true))

/-- HOST_ENQUEUE_WRITE (R104, R160, R360): a write of exactly 128 bytes on a 128-byte boundary enqueues a block, or is forwarded
to its package; any other is dropped, counted and recorded. -/
def State.hostEnqueue (s : State) (off : Nat) (bytes : List Byte) : State :=
  let p := barPkg 1 off
  if !s.pkg.open ∨ 0x100000 ≤ off then s
  else if bytes.length ≠ 128 ∨ off % 128 ≠ 0 then
    s.hostRefused.report 0 0x0A01 (BitVec.ofNat 64 off)
  else if p = s.pkg.num then s.hostBlock 12 off bytes
  else if s.reaches p then s.send p (.host (.enqueue off bytes))
  else s

def execHostEnqueueWrite (s : State) : Out :=
  match s.focus.event with
  | some (.hostEnqueueWrite off bytes) => .next (s.hostEnqueue off bytes)
  | _ => .fault (.nothingThere "HOST_ENQUEUE_WRITE")

/-- A host access that the bridge has forwarded is performed here; a read is answered to the bridge. -/
def State.hostHere (s : State) (src port : Nat) (x : HostReq) : State :=
  match x with
  | .read bar off n =>
    let (a, s1) := s.hostReadHere bar off n
    s1.send src (.hostDone a.bytes a.ep a.abort)
  | .write pa bytes ep => s.hostWriteHere pa bytes ep
  | .enqueue off bytes => s.hostBlock port off bytes
  | .reg off v => s.regWrite off v

/-! ### Bank credits (R60) -/

/-- BANK_PERIOD_START (R60): credits are those of the budget as written by now. -/
def execBankPeriodStart (s : State) : Out :=
  match s.focus.event with
  | some .bankPeriodStart =>
    let cores : Store Core := s.cores.map fun (k : Nat × Core) => (k.1, { k.2 with credits := [], budgetNow := k.2.budget })
    .next (({ s with cores } : State).after 64 rankLand .bankPeriodStart)
  | _ => .fault (.nothingThere "BANK_PERIOD_START")

/-! ### The attestation report (R314) -/

/-- A measurement register as four double words. -/
def measWords (v : BitVec 256) : List Word := (List.range 4).map fun i => BitVec.ofNat 64 (v.toNat / 2 ^ (64 * i))

/-- The first 336 bytes of a report. -/
def State.reportHead (s : State) (nonce : List Word) : List Word :=
  [BitVec.ofNat 64 (1 + 8192 * 2 ^ 32)] ++ nonce ++ (List.range 4).map Config.identityKey ++
    s.pkg.meas.toList.flatMap measWords ++ [BitVec.ofNat 64 (s.groupNs / 1000000000 % 2 ^ 48)]

/-- NONCE (R314): the report of the bridge, signed. -/
def execNonce (s : State) : Out :=
  match s.focus.event with
  | some (.nonce v) =>
    let n := (List.range 4).map fun i => v.getD i 0
    let head := s.reportHead n
    let sig := Config.signature head
    .next (s.modBridge fun b =>
      { b with nonce := n, report := head ++ (List.range 982).map fun i => sig.getD i 0 })
  | _ => .fault (.nothingThere "NONCE")

/-! ### Telemetry (R313, R377) -/

/-- n low bytes of a number. -/
def bytesLe (v n : Nat) : List Byte := (List.range n).map fun i => BitVec.ofNat 8 (v / 2 ^ (8 * i))

/-- The hottest sensor of layer j in the package. -/
def State.hottestLayer (s : State) (j : Fin 5) : Nat := s.cols.foldl (fun m c => max m (c.2.temps[j.val])) 0

/-- A telemetry record (R313). -/
def State.teleRecord (s : State) (power icore isram idram board seq : Nat) : List Byte :=
  let t := s.groupNs
  let hot := if bitAt 1 s.pkg.features.toNat then board else 0
  bytesLe (t / 1000000000) 6 ++ bytesLe (t % 1000000000) 4 ++ bytesLe power 4 ++ bytesLe icore 2 ++ bytesLe isram 2 ++
    bytesLe idram 2 ++ bytesLe (fld 25 24 s.pkg.rampUp.toNat + bit64 s.pkg.tele.refused 2) 1 ++ bytesLe (s.pkg.num % 64) 1 ++
    (List.finRange 5).flatMap (fun j => bytesLe (s.hottestLayer j) 1) ++ bytesLe hot 1 ++ bytesLe seq 4

def State.teleSeq (s : State) : Nat := fld 63 32 s.pkg.telectl.toNat

/-- The records of the package's ring. -/
def State.teleRing (s : State) : Nat := 2 ^ fld 19 16 s.pkg.telectl.toNat

/-- The virtual address of record n in the package's ring. -/
def State.teleVa (s : State) (n : Nat) : Nat := s.pkg.telebase.toNat + 32 * (n % s.teleRing)

/-- One more record not delivered, which the bridge counts. -/
def State.teleLost (s : State) : State :=
  if s.isBridge then s.modBridge fun b => { b with teleLost := b.teleLost + 1 } else s.send 0 (.counted true)

/-- Records to be copied, by time, those of one interval by package (R313). -/
def teleAdd (x : TeleRec) : List TeleRec → List TeleRec
  | [] => [x]
  | y :: rest => if x.time < y.time ∨ (x.time = y.time ∧ x.pkg < y.pkg) then x :: y :: rest else y :: teleAdd x rest

/-- The bridge has a record to copy (R313), in hardware mode of MODES.TELEAGG. -/
def State.teleKeep (s : State) (x : TeleRec) : State :=
  if bitAt 4 s.pkg.modes.toNat then s
  else
    let (f, s1) := s.nextFree
    let s2 := s1.modPkg fun p =>
      { p with
        tele := { p.tele with wait := teleAdd x p.tele.wait, times := p.tele.times.put x.pkg x.time, nexts := p.tele.nexts.put x.pkg (x.seq + 1) } }
    if s2.agenda.any fun e => e.act == .ev .telemetryHostCopy then s2
    else s2.schedule (s2.now + 1 + Config.freeLatency f) rankUnit (.ev .telemetryHostCopy)

/-- TELEMETRY_RECORD (R313, R377): the record of an interval is written to the package's ring, and the bridge is to copy it;
one whose place faults or is poisoned is not written. -/
def State.teleWrite (s : State) (power icore isram idram board : Nat) : State :=
  if !(bitAt 1 s.pkg.enabled.toNat) then s
  else
    let n := s.teleSeq
    let r := s.teleRecord power icore isram idram board n
    let s1 := s.modPkg fun p =>
      { p with
        telectl := maskIn p.telectl (BitVec.ofNat 64 ((n + 1) % 2 ^ 32 * 2 ^ 32)) (bitsMask 63 32)
        tele := { p.tele with refused := false } }
    match s1.translate none (s.teleVa n) true with
    | (.pa k, s2) =>
      if (s2.poisonIn k 32).isSome ∨ (match spaceOf k with
          | .far p _ _ => p != 0
          | _ => true) = true then s2.teleLost
      else
        let s3 := s2.writeBytes k r
        if s3.isBridge then s3.teleKeep { pkg := s3.pkg.num, seq := n, time := s3.groupNs, ring := s3.teleRing, bytes := [] }
        else if s3.pkg.pcieUp then s3.send 0 (.tele n s3.groupNs s3.teleRing r)
        else s3
    | (_, s2) => s2.teleLost

def execTelemetryRecord (s : State) : Out :=
  match s.focus.event with
  | some (.telemetryRecord power icore isram idram board) => .next (s.teleWrite power icore isram idram board)
  | _ => .fault (.nothingThere "TELEMETRY_RECORD")

/-- Whether the records of a record's interval that come before it are there: those of every package of lower number that the
bridge reaches, unless a later interval's record shows that one will not come. DESIGN CHOICE, log entry 117. -/
def State.teleReady (s : State) (x : TeleRec) : Bool :=
  let t := s.pkg.tele.times
  (t.any fun y => decide (x.time < y.2)) ||
    (List.range x.pkg).all fun p => !(p == s.pkg.num || s.reaches p) || decide (x.time ≤ t.get 0 p)

/-- The bytes of a record that is to be copied: of the bridge's own ring, those that stand there; none of one that is
overwritten (R377). -/
def State.teleBytes (s : State) (x : TeleRec) : Option (List Byte) × State :=
  if x.ring < (s.pkg.tele.nexts.get 0 x.pkg + 2 ^ 32 - x.seq) % 2 ^ 32 then (none, s)
  else if x.pkg ≠ s.pkg.num then (some x.bytes, s)
  else match s.translate none (s.teleVa x.seq) false with
    | (.pa k, s1) => (some (memBytes s1.mem k 32), s1.noteRead k 32)
    | (_, s1) => (none, s1)

/-- TELEMETRY_HOST_COPY (R313, R377): copying waits while the host ring is full; a record overwritten meanwhile is lost. -/
def State.teleCopy (s : State) : State :=
  let b := s.pkg.bridge
  let size := 2 ^ (8 + b.hostSize.toNat)
  match s.pkg.tele.wait with
  | [] => s
  | x :: rest =>
    if !s.pkg.pcieUp || !s.teleReady x then s
    else if (b.hostHead - b.hostTail).toNat = size then s.after 1 rankUnit .telemetryHostCopy
    else
      let s1 := s.modPkg fun p => { p with tele := { p.tele with wait := rest } }
      let s2 := if rest.isEmpty then s1 else s1.after 1 rankUnit .telemetryHostCopy
      match s2.teleBytes x with
      | (none, s3) => s3.teleLost
      | (some r, s3) =>
        let h := b.hostHead + 1
        (s3.writeBytes (2 ^ 51 + (b.hostRing.toNat + 32 * (b.hostHead.toNat % size)) % 2 ^ 51) r).modPkg fun p =>
          { p with
            bridge := { p.bridge with hostHead := h }
            msix := if b.hostThr ≠ 0 ∧ h - b.hostTail = b.hostThr then p.msix ++ [0] else p.msix }

def execTelemetryHostCopy (s : State) : Out :=
  match s.focus.event with
  | some .telemetryHostCopy => .next s.teleCopy
  | _ => .fault (.nothingThere "TELEMETRY_HOST_COPY")

end Sys2Proof.Machine
end

