-- ==== Sys2Proof/Machine/Power.lean ====
section
/-! DEFINITION. Power steadiness and heat (R309 to R312, R372, R377): the ramp governor, the tokens, the thermal manager and
the trip. -/

namespace Sys2Proof.Machine

open Sys2Proof

/-! ### The ramp governor (R309, R310, R377) -/

/-- RAMPUP.STATE. -/
def State.setRamp (s : State) (n : Nat) : State :=
  s.modPkg fun p => { p with rampUp := maskIn p.rampUp (BitVec.ofNat 64 (n * 2 ^ 24)) (bitsMask 25 24) }

/-- ALLOW of every column. -/
def State.setAllow (s : State) (n : Nat) : State :=
  s.each (List.finRange 32) fun s c =>
    s.modCol c fun k => { k with thermal := maskIn k.thermal (BitVec.ofNat 64 n) (bitsMask 11 0) }

/-- A sample of `n` mW joins the window of its millisecond of group time; with the first of another, the window before is
whole (R309). -/
def Governor.sample (g : Governor) (ms n : Nat) : Governor :=
  if ms = g.window then { g with sum := g.sum + n, count := g.count + 1 }
  else
    { g with
      prev := if g.count = 0 then none else some (g.sum * 1000 / g.count)
      sum := n, count := 1, window := ms }

/-- The limits of a sample, in µW (R310). -/
def State.rampLimits (s : State) : Nat × Nat :=
  match bitAt 0 s.pkg.enabled.toNat, s.pkg.gov.prev with
  | true, some p =>
    (min (p + fld 7 0 s.pkg.rampUp.toNat * 1000000) 1600000000, p - fld 7 0 s.pkg.rampDown.toNat * 1000000)
  | _, _ => (1600000000, 0)

/-- GOVERNOR_SAMPLE (R310, R377): a sample that is not valid counts as the last valid one. The sample is judged by the limits of
the window that it lies in. -/
def State.governor (s : State) (power : Nat) (valid : Bool) : State :=
  let g := s.pkg.gov
  let n := if valid then power else g.lastGood
  let bad := if valid then 0 else g.invalid + 1
  let (f, s0) := s.nextFree
  let s1 := s0.modPkg fun p =>
    { p with gov := { g.sample ((s.groupNs - 1) / 1000000) n with lastGood := n, invalid := bad } }
  let (hi, lo) := s1.rampLimits
  let s2 := s1.modPkg fun p =>
    { p with gov := { p.gov with share := if hi < 1000 * n then min (Config.withheldShare f) 65536 else 0 } }
  let s3 := if bad = 1000 then s2.setAllow 1125 else s2
  let s4 :=
    if hi < 1000 * n then s3.setRamp 1
    else if 1000 * n < lo then
      (s3.each (List.finRange 4) fun s d => s.wantChoice d).setRamp (if bitAt 2 s.pkg.enabled.toNat then 3 else 2)
    else s3.setRamp 0
  if 1000 ≤ bad then s4.setRamp 1 else s4

def execGovernorSample (s : State) : Out :=
  match s.focus.event with
  | some (.governorSample power valid) => .next (s.governor power valid)
  | _ => .fault (.nothingThere "GOVERNOR_SAMPLE")

/-- TOKEN_PERIOD (R311): the counts of every core start again. -/
def execTokenPeriod (s : State) : Out :=
  match s.focus.event with
  | some .tokenPeriod =>
    let cores : Store Core :=
      if s.atMultiple 1000 then s.cores.map fun (k : Nat × Core) => (k.1, { k.2 with tokVe := 0, tokMe := 0, asked := 0 })
      else s.cores
    .next (({ s with cores } : State).schedule (s.nextMultiple 1000) rankLand (.ev .tokenPeriod))
  | _ => .fault (.nothingThere "TOKEN_PERIOD")

/-! ### The thermal manager (R312, R372) -/

def State.setAvoid (s : State) (c : ColIx) (on : Bool) : State :=
  s.modCol c fun k => { k with thermal := maskIn k.thermal (BitVec.ofNat 64 (bit64 on 12)) (bitsMask 12 12) }

/-- The running tasks of a column: core, bank and task. -/
def State.colTasks (s : State) (c : ColIx) : List (CoreIx × BankIx × Task) :=
  (List.range 8).filterMap fun k =>
    let core := colCore c k
    match (s.core core).running with
    | some (b, t) => if t.system then none else some (core, b, t)
    | none => none

/-- Of two tasks, the one that started later; of two that started together, the one on the higher core. -/
def laterTask (a b : CoreIx × BankIx × Task) : Bool :=
  if a.2.2.started = b.2.2.started then decide (b.1.val < a.1.val) else decide (b.2.2.started < a.2.2.started)

/-- A stop that an earlier action requested in a column is not taken yet. -/
def State.stopAsked (s : State) (c : ColIx) : Bool :=
  match (s.col c).stopFor with
  | some t => (s.colTasks c).any fun x => x.2.2.tid == t
  | none => false

/-- THERMAL_MANAGER_ACTION (R312). -/
def State.thermalAction (s : State) (c : ColIx) : State :=
  let t := s.hottest c
  if bitAt 2 s.pkg.modes.toNat then s
  else if 95 ≤ t then
    let s1 := s.setAvoid c true
    if s.stopAsked c then s1
    else match (s.colTasks c).foldl (fun best x => match best with
        | none => some x
        | some y => if laterTask x y then some x else some y) none with
      | some (core, b, t) =>
        (s1.modCol c fun k => { k with stopFor := some t.tid }).after 0 rankStop (.taskStop core b .thermal)
      | none => s1
  else if t < 90 then
    (s.setAvoid c false).modCol c fun k => { k with thermal := maskIn k.thermal 2250 (bitsMask 11 0) }
  else s

def execThermalManagerAction (s : State) : Out :=
  match s.focus.event with
  | some (.thermalManagerAction c) =>
    .next ((if s.atMultiple 100000 then s.thermalAction c else s).schedule (s.nextMultiple 100000) rankUnit (.ev (.thermalManagerAction c)))
  | _ => .fault (.nothingThere "THERMAL_MANAGER_ACTION")

/-- THERMAL_TRIP (R372): every task of the column is stopped; one inside its region is throttled until its stop. -/
def State.thermalTrip (s : State) (c : ColIx) : State :=
  (s.setAvoid c true).each (s.colTasks c) fun s x =>
    let s1 := if (s.img x.1 x.2.1).npr.isSome then s.modCore x.1 fun k => { k with throttled := true } else s
    s1.after 0 rankStop (.taskStop x.1 x.2.1 .thermal)

def execThermalTrip (s : State) : Out :=
  match s.focus.event with
  | some (.thermalTrip c) => .next (s.thermalTrip c)
  | _ => .fault (.nothingThere "THERMAL_TRIP")

/-- THROTTLE_END (R372). -/
def execThrottleEnd (s : State) : Out :=
  match s.focus.event with
  | some (.throttleEnd c _) => .next (s.modCore c fun k => { k with throttled := false })
  | _ => .fault (.nothingThere "THROTTLE_END")

end Sys2Proof.Machine
end

