-- ==== Sys2Proof/Machine/Links.lean ====
section
/-! DEFINITION. Time (R307, R308, R377) and the Sprinwell links (R299, R300, R373 to R375). -/

namespace Sys2Proof.Machine

open Sys2Proof

/-! ### Time -/

/-- TIMESRC of ENABLED. -/
def State.timeSource (s : State) : Nat := fld 17 16 s.pkg.enabled.toNat

/-- A good source gives the time: the clock takes it; after a loss it is slewed when the error is below 1 ms, and steps
otherwise (R377). -/
def State.sourceTime (s : State) (sec : BitVec 48) (ns : BitVec 32) : State :=
  let t : Int := (s.groupNs : Int)
  let e : Int := (sec.toNat * 1000000000 + ns.toNat : Nat) - t
  if s.pkg.clock.lost ∧ e.natAbs < 1000000 then
    let s1 := s.setTime (BitVec.ofNat 48 (s.groupNs / 1000000000)) (BitVec.ofNat 32 (s.groupNs % 1000000000))
    s1.modPkg fun p => { p with clock := { p.clock with slew := e, lost := decide (e ≠ 0) } }
  else (s.setTime sec ns).modPkg fun p => { p with clock := { p.clock with lost := false } }

/-- A sync leaves on the ports listed that are trained. -/
def State.sendSync (s : State) (l : List Nat) : State :=
  let t := s.groupNs
  s.each (l.filter s.linkUp) fun s n => s.sendOn n (.sync (BitVec.ofNat 48 (t / 1000000000)) (BitVec.ofNat 32 (t % 1000000000)))

/-- PTP_SYNC_SEND (R307): every 125 µs, from the bridge, on each trained port. -/
def execPtpSyncSend (s : State) : Out :=
  match s.focus.event with
  | some .ptpSyncSend =>
    .next ((if s.isBridge then s.sendSync (List.range 12) else s).after (125 * usCycles) rankUnit .ptpSyncSend)
  | _ => .fault (.nothingThere "PTP_SYNC_SEND")

/-- A sync that has come through a port: a package other than the bridge corrects by the link's delay, and forwards it to the
packages that enumeration reached through it (R307). -/
def State.syncHere (s : State) (port : Port) (sec : BitVec 48) (ns : BitVec 32) : State :=
  let t := sec.toNat * 1000000000 + ns.toNat + (s.pkg.ports.get PortState.reset port.val).delay
  if s.isBridge then s
  else (s.setTime (BitVec.ofNat 48 (t / 1000000000)) (BitVec.ofNat 32 (t % 1000000000))).sendSync
    (childPorts s.pkg.links s.pkg.num)

/-- PTP_SYNC_ARRIVAL (R307). -/
def execPtpSyncArrival (s : State) : Out :=
  match s.focus.event with
  | some (.ptpSyncArrival port sec ns) => .next (s.syncHere port sec ns)
  | _ => .fault (.nothingThere "PTP_SYNC_ARRIVAL")

def State.modPort (s : State) (n : Port) (f : PortState → PortState) : State :=
  s.modPkg fun p => { p with ports := p.ports.put n.val (f (p.ports.get PortState.reset n.val)) }

/-- LINK_DELAY_MEASURE (R307): a port asks its neighbour, and asks again 1 ms later. -/
def execLinkDelayMeasure (s : State) : Out :=
  match s.focus.event with
  | some (.linkDelayMeasure port) =>
    .next (if s.linkUp port.val then
      (((s.modPort port fun p => { p with asked := some s.now }).sendOn port.val .delayAsk).after (1000 * usCycles) rankUnit
        (.linkDelayMeasure port))
    else s)
  | _ => .fault (.nothingThere "LINK_DELAY_MEASURE")

/-- The neighbour has answered: a link's delay is half the time since the request, less what the answer was held. -/
def State.delayHere (s : State) (port : Port) (held : Nat) : State :=
  match (s.pkg.ports.get PortState.reset port.val).asked with
  | some t => s.modPort port fun p => { p with delay := ((s.now - t) * 4 / 9 - held) / 2, asked := none }
  | none => s

/-- A ToD message is sound (R308). -/
def todOk (b : List Byte) : Bool :=
  b.length == 12 && b.getD 0 0 == 0x54 && b.getD 1 0 == 0x44 && (b.take 11).foldl (· ^^^ ·) 0 == b.getD 11 0

/-- TOD_MESSAGE (R308, R377): the seconds at the next edge; a bad message is ignored. -/
def execTodMessage (s : State) : Out :=
  match s.focus.event with
  | some (.todMessage b) =>
    .next (if s.timeSource = 2 ∧ s.isBridge = true ∧ todOk b = true then
      s.modPkg fun p =>
        { p with
          clock :=
            { p.clock with
              next := some (BitVec.ofNat 48 (((b.drop 2).take 6).foldr (fun x v => x.toNat + 256 * v) 0)) } }
    else s)
  | _ => .fault (.nothingThere "TOD_MESSAGE")

/-- PPS_EDGE (R308): the bridge's time becomes the message's seconds. -/
def execPpsEdge (s : State) : Out :=
  match s.focus.event with
  | some .ppsEdge =>
    .next (match s.pkg.clock.next with
      | some sec =>
        if s.timeSource = 2 then
          (s.sourceTime sec 0).modPkg fun p => { p with clock := { p.clock with next := none } }
        else s
      | none => s)
  | _ => .fault (.nothingThere "PPS_EDGE")

/-- PTM_STEER (R308). -/
def execPtmSteer (s : State) : Out :=
  match s.focus.event with
  | some (.ptmSteer sec ns) => .next (if s.timeSource = 1 ∧ s.isBridge = true then s.sourceTime sec ns else s)
  | _ => .fault (.nothingThere "PTM_STEER")

/-- TIME_SOURCE_LOSS (R377): the clock holds its last rate. -/
def execTimeSourceLoss (s : State) : Out :=
  match s.focus.event with
  | some .timeSourceLoss => .next (s.modPkg fun p => { p with clock := { p.clock with lost := true } })
  | _ => .fault (.nothingThere "TIME_SOURCE_LOSS")

/-! ### Packets that arrive (R299, R300, R78, R374) -/

/-- Bytes of another package have arrived for a copy, which goes on. -/
def State.dataArrives (s : State) (a : Asker) (pa : Nat) (cells : List (Byte × Bool)) : State :=
  let c := ctxIx a.ctx
  let k0 := s.pkgKey pa
  let held (k : Cur) : Cur :=
    { k with held := (cells.zipIdx).foldl (fun m b => m.put (k0 + b.2) (b.1.1.toNat + bit64 b.1.2 8)) k.held }
  match bankWithWord s.cores a.tid a.q c with
  | none => s
  | some (core, bank) =>
    let asked := match ((s.img core bank).eqAt a.q c).cur with
      | some k => (k.copy.map (·.asked)).getD 0
      | none => 0
    (s.modImg core bank fun m => m.modEq a.q c fun e => { e with cur := e.cur.map held }).schedule s.now rankUnit
      (.ev (.copyCompletion core bank a.q a.ctx (.fetch asked)))

/-- A copy's read in another package has met a fault there, which its word raises. -/
def State.dataFails (s : State) (a : Asker) (pa : Nat) (code : BitVec 16) : State :=
  match bankWithWord s.cores a.tid a.q (ctxIx a.ctx) with
  | none => s
  | some (core, bank) =>
    (s.focusOn .perform core bank (ctxIx a.ctx) a.q).copyHalt.engineFault code (some (BitVec.ofNat 64 pa))

/-- The asker of a request of another package. -/
def State.enqVia (s : State) (p : Nat) (x : EnqSource) : EnqSource :=
  match x with
  | .launch a => .launch (s.askerVia p a)
  | .successor a i => .successor (s.askerVia p a) i
  | .doneNext d => .doneNext d
  | .host off => .host off
  | .handler => .handler

def State.futVia (s : State) (p : Nat) (x : FutOp) : FutOp :=
  match x with
  | .create a => .create (a.map (s.askerVia p))
  | .join r a => .join r (a.map (s.askerVia p))
  | .resolve v a => .resolve v (a.map (s.askerVia p))
  | .poison c => .poison c
  | .peek a => .peek (s.askerVia p a)

def State.dealerVia (s : State) (p : Nat) (x : DealerMsg) : DealerMsg :=
  match x with
  | .join n r m a => .join n r m (s.askerVia p a)
  | .reach n m op => .reach n m (s.futVia p op)
  | .turn b => .turn b
  | .peek m a => .peek m (s.askerVia p a)
  | .qopen i a => .qopen i (s.askerVia p a)
  | .qclose i a => .qclose i (s.askerVia p a)
  | .qstat i a => .qstat i (s.askerVia p a)
  | .waitq i a => .waitq i (s.askerVia p a)
  | .qsplit r u a => .qsplit r u (s.askerVia p a)
  | .qret u a => .qret u (s.askerVia p a)
  | .moved r u sc => .moved r u sc
  | .arrive n t => .arrive n t

/-- A request for a coverage unit names its block by physical address, and here by key. -/
def State.covVia (s : State) (p : Nat) (x : CovMsg) : CovMsg :=
  let key (v : Word) : Word := BitVec.ofNat 64 (s.pkgKey v.toNat)
  match x with
  | .report sched tid e => .report (key sched) tid e
  | .readSched sched pending a => .readSched (key sched) pending (s.askerVia p a)
  | .countBox l a => .countBox l (s.askerVia p a)
  | .readMap k a => .readMap k (s.askerVia p a)
  | .served l => .served l
  | .finished => .finished

/-- A read of this package's memory, by a copy of another: the sector's bytes, or the fault that it meets here (R349, R351,
R354). -/
def State.readHere (s : State) (src : Nat) (a : Asker) (pa n : Nat) : State :=
  match s.place pa with
  | none => s.send src (.readBad a pa 0x0603)
  | some k =>
    let bad : Option (BitVec 16) := match spaceOf k with
      | .tower col layer off =>
        let l : Loc := ⟨col / 8, col % 8, 0, layer, off⟩
        if s.reservedBank l then some 0x0703
        else match s.capFault l n s.now with
          | some c => some c
          | none => if layer = 4 ∧ s.rowOpen l.colIx off = false then some 0x0801 else none
      | _ => none
    match bad with
    | some c => s.send src (.readBad a pa c)
    | none =>
      let s1 := s.noteRead k n
      s1.send src (.data a pa ((memBytes s1.mem k n).zipIdx.map fun b => (b.1, s1.poison.contains (granuleOf (k + b.2)))))

/-- A write of this package's memory, or by the bridge of the host's; one that its place cannot take is dropped, with a record
(R374). -/
def State.writeHere (s : State) (pa : Nat) (cells : List (Byte × Bool)) : State :=
  let n := cells.length
  let put (k : Nat) : State :=
    (s.writeCells (cells.zipIdx.map fun b => (k + b.2, b.1.1, b.1.2))).dramTouch k true
  if bitAt 51 pa then put pa
  else match s.hostPlace pa n with
    | .error c => s.hostFault c pa
    | .ok k => put k

/-- An update's answer has come back to its package (R78, R242). -/
def State.updated (s : State) (u : Update) : State :=
  let mine (x : Update) : Bool := x == { u with key := s.pkgKey u.key, via := none, old := none, bad := none, ready := false }
  let v : Update := { u with key := s.pkgKey u.key, via := none, ready := false }
  let s1 := s.modPkg fun k => { k with away := k.away.filter fun x => !(mine x) }
  if u.old.isSome || u.bad.isSome then s1.schedule s1.now rankUnit (.ev (.saHomeUpdate v)) else s1

/-- The host has become reachable, or no more (R375). -/
def State.hostLink (s : State) (up : Bool) : State :=
  if up then (s.modPkg fun p => { p with pcieUp := true }).drainRing 128
  else if s.pkg.pcieUp then
    let (a, s1) := (s.modPkg fun p => { p with pcieUp := false }).faultAddr none
    s1.report 0 0x0F02 a
  else s

/-- Routes have changed: packets that were held leave, and a package that is not the bridge may have lost it, or found it
again (R373, R375). -/
def State.reroute (s : State) (links : List Link) : State :=
  let s1 := s.reroutes links
  if s1.isBridge then s1
  else if s1.reaches 0 then (if s1.pkg.pcieUp then s1 else s1.hostLink true)
  else s1.hostLink false

/-- A word's answer has come from another package: a task keeps the futures there that it has created and not resolved, as it
keeps those here (R362). -/
def Image.farFuture (m : Image) (a : Asker) : Image :=
  let e := m.eqAt a.q (ctxIx a.ctx)
  let keep (f : Word → List Word → List Word) (k : Cur) : Image :=
    { m with task := m.task.map fun t => { t with futures := f (k.popped.headD 0) t.futures } }
  match e.words.head?, e.cur with
  | some w, some k =>
    if w.tid ≠ a.tid then m
    else match w.instr with
      | .sFnew _ _ => keep (fun n l => l ++ [n]) k
      | .sFres _ _ => keep (fun n l => l.filter fun x => x != n) k
      | _ => m
  | _, _ => m

/-- An answer from another package reaches the word that asked. -/
def State.answerHere (s : State) (a : Asker) (vals : List Word) (bad : Option (BitVec 16)) : State :=
  let s1 := if bad.isNone then s.modTask a.tid fun m => m.farFuture a else s
  s1.schedule s1.now rankAnswer (.ev (.syncAnswer a vals bad))

/-- A fault record of a list of double words. -/
def recOf (l : List Word) : FaultRec := #v[l.getD 0 0, l.getD 1 0, l.getD 2 0, l.getD 3 0]

/-- A packet for this package, from another, is performed as it comes through a port. -/
def State.packet (s : State) (port : Port) (src : Nat) (p : Packet) : State :=
  match p with
  | .answer a vals bad => s.answerHere a vals bad
  | .bar name op => s.toBu 0 (.port port) (nameDie name) name (s.barVia src op)
  | .lose name code =>
    match code with
    | some c => s.loseDone name c
    | none => s.loseName name
  | .unwait name ref => s.unwait name ref
  | .notify tid ctx name => s.schedule s.now rankAnswer (.ev (.notifyEventArrival tid ctx name))
  | .dealer die x => s.schedule s.now rankUnit (.dealer die (s.dealerVia src x))
  | .satisfy ref v poison => s.schedule s.now (rankDealer + 1) (.ev (.entrySatisfaction ref v poison))
  | .launch d blk b w sc =>
    s.schedule s.now (rankDealer + 134 + port.val) (.ev (.launchEnqueue d blk (s.enqVia src b) (some (w, sc)) false))
  | .weight d i u => s.schedule s.now rankDealer (.ev (.weightReturn d i u))
  | .borrow d i need => s.schedule s.now rankDealer (.ev (.borrowDebit d i need (some src)))
  | .grant sc need => s.schedule s.now rankDealer (.ev (.borrowGrant sc need))
  | .noGrant need code => s.refuseBorrow need code
  | .granted d i => s.granted (s.ownScope d i)
  | .read a pa n => s.readHere src a pa n
  | .data a pa cells => s.dataArrives a pa cells
  | .readBad a pa code => s.dataFails a pa code
  | .write pa cells => s.writeHere pa cells
  | .rewrite a pa body =>
    s.schedule s.now (rankUnit + 113 + port.val) (.ev (.rewriteWrite (BitVec.ofNat 64 (s.pkgKey pa)) body (s.askerVia src a)))
  | .cov col x => s.schedule s.now (rankUnit + 113 + port.val) (.cov col (s.covVia src x))
  | .update u => s.updateHere u
  | .updated u => s.updated u
  | .sync sec ns => s.schedule s.now rankUnit (.ev (.ptpSyncArrival port sec ns))
  | .delayAsk => s.sendOn port.val (.delayAnswer 0)
  | .delayAnswer held => s.delayHere port held
  | .claim n => s.schedule s.now rankUnit (.ev (.bridgeClaim port n))
  | .enumerate num group links => s.enumerated num group links
  | .restart => s.schedule s.now rankUnit (.ev .reset)
  | .routes links => s.reroute links
  | .host x => s.hostHere src port.val x
  | .hostDone bytes ep abort => s.hostAnswer { bytes, ep, abort }
  | .ecc uncorr => s.countFar src uncorr
  | .counted tele => if tele then s.teleLost else s.hostRefused
  | .fault r => s.toRing 0 (recOf r)
  | .act r action => s.actFar (recOf r) action
  | .tele seq time ring bytes => s.teleKeep { pkg := src, seq, time, ring, bytes }
  | .hostLink up => s.hostLink up

/-- A packet comes in through a port: one for another package is forwarded (R300); a package that is still to be enumerated
takes the first numbers that come as its own (R301). -/
def State.packetIn (s : State) (port : Port) (src : Nat) (dest : Option Nat) (p : Packet) : State :=
  match dest with
  | none => s.packet port src p
  | some d =>
    if s.pkg.phase ≠ 5 then
      (match p with
      | .enumerate num group links => s.enumerated num group links
      | _ => s)
    else if d = s.pkg.num then s.packet port src p
    else s.forward src d p

/-- A record of the links, with CTX 3. -/
def State.linkReport (s : State) (code : BitVec 16) : State :=
  let (a, s1) := s.faultAddr none
  s1.report 0 code a

/-- FLIT_RECEIVE (R373): a flit that fails its check is discarded, and sent again; with the eighth failure in a row the
port goes down. -/
def State.flit (s : State) (port : Port) (ok : Bool) (src : Nat) (dest : Option Nat) (p : Packet) : State :=
  let x := s.pkg.ports.get PortState.reset port.val
  if ok then (s.modPort port fun x => { x with fails := 0 }).packetIn port src dest p
  else if x.fails + 1 = 8 then
    ((s.modPort port fun x => { x with fails := 0 }).linkReport 0x0F03).after 0 rankUnit (.portDown port)
  else s.modPort port fun x => { x with fails := x.fails + 1 }

def execFlitReceive (s : State) : Out :=
  match s.focus.event with
  | some (.flitReceive port ok src dest p) => .next (s.flit port ok src dest p)
  | _ => .fault (.nothingThere "FLIT_RECEIVE")

/-! ### Ports, routes and the bridge (R373, R375) -/

/-- PORT_DOWN (R373): its link is measured no more. -/
def State.portDown (s : State) (port : Port) : State :=
  ((s.modPort port fun x => { x with trained := false, asked := none }).withdraw fun a =>
    a == .ev (.linkDelayMeasure port)).linkReport 0x0F01

def execPortDown (s : State) : Out :=
  match s.focus.event with
  | some (.portDown port) => .next (s.portDown port)
  | _ => .fault (.nothingThere "PORT_DOWN")

/-- PORT_TRAINED (R373): the port measures its link (R307); in step 3 a strapped package claims the bridge over it too, and
another's wait for a claim begins with its last port (R376). -/
def State.portTrained (s : State) (port : Port) : State :=
  let up := s.linkUp port.val
  let s1 := s.modPort port fun x => { x with trained := true, fails := 0 }
  let s2 := if up then s1 else s1.after 0 rankUnit (.linkDelayMeasure port)
  if s.pkg.phase ≠ 3 then s2
  else if s.isBridge then s2.sendOn port.val (.claim ownClaim)
  else if s.pkg.claims.isEmpty then
    (s2.withdraw fun a => a == .ev .bridgeClaimTimeout).after (2 ^ 24) rankUnit .bridgeClaimTimeout
  else s2

def execPortTrained (s : State) : Out :=
  match s.focus.event with
  | some (.portTrained port) => .next (s.portTrained port)
  | _ => .fault (.nothingThere "PORT_TRAINED")

/-- The bridge has lost its PCIe link: the group is cut off from the host (R375). -/
def State.cutFromHost (s : State) : State :=
  let s1 := s.hostLink false
  if s.isBridge then s1.each s.others fun s p => s.send p (.hostLink false) else s1

/-- ROUTE_RECOMPUTE (R301, R373): the links of the group, as training has made them or as they have changed: the bridge numbers
the packages by them, or gives them the new routes. -/
def State.linksChange (s : State) (links : List Link) : State :=
  if s.isBridge then
    (if s.pkg.phase = 3 then s.enumerateGroup links
    else if s.pkg.phase = 5 then (s.reroute links).each s.others fun s p => s.send p (.routes links)
    else s)
  else if s.pkg.phase = 5 then s.reroute links
  else s

def execRouteRecompute (s : State) : Out :=
  match s.focus.event with
  | some (.routeRecompute links) => .next (s.linksChange links)
  | _ => .fault (.nothingThere "ROUTE_RECOMPUTE")

/-- PCIE_LINK_LOSS (R375). -/
def execPcieLinkLoss (s : State) : Out :=
  match s.focus.event with
  | some .pcieLinkLoss => .next (if s.pkg.pcieUp then s.cutFromHost else s)
  | _ => .fault (.nothingThere "PCIE_LINK_LOSS")

end Sys2Proof.Machine
end

