-- ==== Sys2Proof/Machine/Start.lean ====
section
/-! DEFINITION. The steps by which a core's engines act (R85, R206, R287): a word starts and pops its entries, its
micro-steps issue, results and element writes land (R88, R89), scalar accesses reach their access points (R146, R198,
R339), and words of no instruction (R169, R328). -/

namespace Sys2Proof.Machine

open Sys2Proof

/-! ### The queue a word pushes to -/

/-- The queue that a LOOP or SYNC word pushes its answer to (R268). -/
def pushOf (i : Instr) : Option (Fin 16) :=
  match i with
  | .lpSchedr _ _ u r _ | .lpCov _ _ u r | .lpCovrd _ _ u r | .lpPos _ _ u r => pushTo u r
  | .lpGen _ u r | .lpStat _ u r | .lpPend _ u r | .lpPermits _ u r | .lpRec _ u r => pushTo u r
  | .sWait _ _ u r | .sBstat _ _ u r | .sFpeek _ _ u r | .sLaunch _ _ u r => pushTo u r
  | .sWaitq _ u r _ | .sQstat _ u r _ => pushTo u r
  | .sTime _ r => some r
  | _ => none

/-! ### Starts (R85, R91, R206) -/

/-- The entries a word pops as it starts: none when it is no instruction with the region types that it finds (R224, R328). -/
def Image.operandOf (m : Image) (i : Instr) : List (Fin 16 × Nat) := if m.barred i then [] else queueOperand m.ts i

/-- The head word of a queue starts, or starts again at its micro-PC: it pops its entries, and its engine performs it in
this cycle, after the pops of the cycle (R87). -/
def State.startWord (s : State) (core : CoreIx) (bank : BankIx) (q : Fin 13) (c : Fin 3) : State :=
  let m := s.img core bank
  match (m.eqAt q c).words with
  | [] => s
  | w :: _ =>
    let m1 := match (m.eqAt q c).cur with
      | some k => m.modEq q c fun e =>
        { e with cur := some { k with next := m.cyc, lastDone := false, opened := false, reads := [], lines := [] } }
      | none =>
        let (l, m') := m.popEntries c (m.operandOf w.instr)
        m'.modEq q c fun e => { e with cur := some { Cur.fresh m.cyc l with item := w.item } }
    (s.modImg core bank fun _ => m1.modEng q fun e => { e with last := c, act := some c }).schedule s.now
      (rankLoop + core.val) (.perform core bank q c)

/-- ENGINE_WORD_START (R85, R206, R287). -/
def execEngineWordStart (s : State) : Out :=
  match s.focus.event with
  | some (.engineWordStart core bank q c) => .next (s.startWord core bank q (ctxIx c))
  | _ => .fault (.nothingThere "ENGINE_WORD_START")

/-- MICRO_STEP (R207, R222, R241): the next micro-step of the word that occupies VE, RE or SA. -/
def State.microStep (s : State) (core : CoreIx) (bank : BankIx) (q : Fin 13) (c : Fin 3) : State :=
  let s1 := s.focusOn .perform core bank c q
  match s1.curQ.words with
  | [] => s
  | w :: _ =>
    if q = 1 then (match vecSpecOf w.instr with
      | some v => s1.vecMicro v
      | none => s)
    else if q = 3 then (match rowSpecOf w.instr with
      | some v => s1.rowMicro v
      | none => s)
    else match saWordOf w.instr with
      | some v => s1.saMicro v
      | none => s

def execMicroStep (s : State) : Out :=
  match s.focus.event with
  | some (.microStep core bank q c) => .next (s.microStep core bank q (ctxIx c))
  | _ => .fault (.nothingThere "MICRO_STEP")

/-! ### Landings (R88, R89) -/

/-- RESULT_LANDING (R88): the pending register writes that are due land, and so does a loop table (R271). -/
def State.resultsLand (s : State) (core : CoreIx) (bank : BankIx) : State :=
  let s1 := s.modImg core bank Image.landDue
  let m := s1.img core bank
  match m.lp.loadAt with
  | some n => if n ≤ m.cyc then s1.lpHold core bank else s1
  | none => s1

def execResultLanding (s : State) : Out :=
  match s.focus.event with
  | some (.resultLanding core bank) => .next (s.resultsLand core bank)
  | _ => .fault (.nothingThere "RESULT_LANDING")

/-- ELEMENT_WRITE_LANDS (R89, R209). -/
def execElementWriteLands (s : State) : Out :=
  match s.focus.event with
  | some (.elementWriteLands core bank) => .next (s.landElems core bank)
  | _ => .fault (.nothingThere "ELEMENT_WRITE_LANDS")

/-! ### Access points (R146, R198, R339) -/

def Access.made (a : Access) : AccessOf :=
  match a with
  | .load o _ _ _ _ _ _ => o
  | .store o _ _ _ => o
  | .mfsr o _ _ _ _ => o
  | .mtsr o _ _ => o

/-- The key a memory access concerns. -/
def Access.key? (a : Access) : Option Nat :=
  match a with
  | .load _ k _ _ _ _ _ => some k
  | .store _ k _ _ => some k
  | _ => none

/-- An access whose access point a wait has moved n cycles later: its landing moves with it (R146). -/
def Access.moved (a : Access) (n : Nat) : Access :=
  match a with
  | .load o k b x l d h => .load o k b x (l + n) d h
  | a => a

def Access.rank (a : Access) : Nat :=
  match a with
  | .load _ _ _ _ _ _ _ => rankRead
  | .mfsr _ _ _ _ _ => rankRead
  | .store _ _ _ _ => rankMemory
  | .mtsr _ _ _ => rankMemory

/-- The access has reached its access point (R148). -/
def State.accessDone (s : State) (o : AccessOf) : State :=
  s.modTask o.tid fun m => m.modCtx o.ctx fun c => { c with accesses := c.accesses - 1 }

/-- A fault found at an access point (R339): against the word while its task stands in a bank; of a task that has ended it
is recorded with CTX 3. -/
def State.deferFault (s : State) (o : AccessOf) (code : BitVec 16) (addr : Word) : State :=
  match s.bankOf o.tid with
  | some (core, bank) =>
    s.schedule s.now rankRefresh (.ev (.deferredFault core bank (ixCtx o.ctx) code addr o.pc o.trap))
  | none =>
    if (s.taskOf o.tid).isSome then s.taskFault o.tid code (some addr) else s.report (coreDie o.core) code addr

/-- Why a memory access has no effect at its access point: the row is not open (R349), or a load meets poison (R338). -/
def State.accessBad (s : State) (a : Access) : Option (BitVec 16 × Word) :=
  match a.key? with
  | none => none
  | some k =>
    let closed := match spaceOf k with
      | .tower col 4 off => !(s.rowOpen (Fin.ofNat 32 col) off)
      | _ => false
    if closed then some (0x0801, a.made.addr)
    else match a with
      | .load o k n _ _ _ _ => (s.poisonIn k n).map fun g => (0x0E01, o.addr + BitVec.ofInt 64 ((g : Int) - (k : Int)))
      | _ => none

/-- A pending write in its place among those of a context: in the order in which their words issued (R88). -/
def pendAdd (w : PendWrite) : List PendWrite → List PendWrite
  | [] => [w]
  | x :: rest => if w.born < x.born then w :: x :: rest else x :: pendAdd w rest

/-- A result of an access on its way to its register: it lands at a task cycle of its own task. -/
def State.landLater (s : State) (o : AccessOf) (dst land : Nat) (shadow : Bool) (v : Word) : State :=
  if dst = 0 then s
  else
    s.modTask o.tid fun m =>
      { m with
        pend := pendAdd
          { ctx := o.ctx, file := 0, idx := dst, val := v, due := m.base.getD m.cyc + land, shadow, born := o.born } m.pend }

/-- The n low bytes of a value as a load delivers them (R190). -/
def loadValue (n : Nat) (sext : Bool) (v : Nat) : Word :=
  if sext then BitVec.ofInt 64 (BitVec.ofNat (8 * n) v).toInt else BitVec.ofNat 64 v

/-- The access acts at its access point. -/
def State.accessActs (s : State) (a : Access) : State :=
  match a with
  | .load o k n sext land dst shadow =>
    (s.dramTouch k false).landLater o dst land shadow (loadValue n sext (s.read k n))
  | .store _ k n v => (s.write k n (v.toNat % 2 ^ (8 * n))).dramTouch k true
  | .mfsr o n land dst shadow =>
    let t := match s.taskImg o.tid with
      | some m => m.startedAt
      | none => s.now
    s.landLater o dst land shadow (s.sysRead o.core t n)
  | .mtsr o n v => s.sysWrite o.core n v

/-- The window that an address names (R55). -/
def windowOf (a : Word) : Nat := fld 59 56 a.toNat

/-- An earlier access of the core to the same unit through the same window is at its access point in this cycle (R147). -/
def State.accessBehind (s : State) (a : Access) : Bool :=
  match a.key? with
  | none => false
  | some k => s.agenda.any fun e => match e.act with
    | .ev (.accessPoint b) =>
      decide (e.due ≤ s.now) && b.made.core == a.made.core && decide (b.made.born < a.made.born) &&
        windowOf b.made.addr == windowOf a.made.addr && (match b.key? with
          | some j => j / 8 == k / 8
          | none => false)
    | _ => false

/-- A control access takes its bank of layer 0 in its cycle (R59). -/
def State.takeBank (s : State) (k : Nat) : State :=
  match spaceOf k with
  | .l0 c off => s.modCore (Fin.ofNat 256 c) fun x => { x with taken := x.taken ++ [(s.now, l0Bank off)] }
  | _ => s

/-- ACCESS_POINT (R146, R198): a memory access waits, cycle by cycle, while its bank is refreshed or repaired (R64, R343);
one behind an earlier access to its unit goes after it (R147). -/
def State.accessPoint (s : State) (a : Access) : State :=
  let o := a.made
  let k := a.key?.getD 0
  if a.key?.isSome && decide (s.now < s.busyUntil k) then
    (s.noteStall k).schedule (s.now + 1) (a.rank + o.core.val) (.ev (.accessPoint (a.moved 1)))
  else if s.accessBehind a then s.schedule s.now (rankMemory + o.core.val) (.ev (.accessPoint a))
  else
    let s1 := match a with
      | .load _ k n _ _ _ _ => (s.noteRead k n).takeBank k
      | _ => s
    let s2 := s1.accessDone o
    match s2.accessBad a with
    | some (code, addr) => s2.deferFault o code addr
    | none => s2.accessActs a

def execAccessPoint (s : State) : Out :=
  match s.focus.event with
  | some (.accessPoint a) => .next (s.accessPoint a)
  | _ => .fault (.nothingThere "ACCESS_POINT")

/-! ### Words of no instruction (R328, R331) -/

/-- The bits of a word of an unassigned slot, or of one that breaks its slot's form, and why. -/
def rejectOf (w x : Word32) : BitVec 16 :=
  match decodeWord w x with
  | .error e => e.code
  | .ok _ => 0x0101

def rejectTs (w : Word32) : BitVec 16 :=
  match decodeTs w with
  | .error e => e.code
  | .ok _ => 0x0101

/-- Such a word issues: with predicate 0 it is discarded like any other; else it faults as a CTRL word, or enters the
queue its ENG and OP select and faults when it starts (R82, R328). -/
def State.issueUnassigned (s : State) (w : Word32) : State :=
  let s0 := s.modCx fun c => { c with blocked := false }
  let p : Pred := Fin.ofNat 16 (fld 22 19 w.toNat)
  if !(s.p p) then s0.advance (if takesExt w then 2 else 1)
  else if fld 31 29 w.toNat = 0 then
    let x := (s.bank s.focus.core s.focus.bank).wordAt (s.cx.pc.toNat + 4)
    s0.ctrlFault (rejectOf w x) none
  else s.enqueueAs (queueOf (.unassignedWord w)) (.unassignedWord w)

/-- UNASSIGNED_WORD (R328, R331). -/
def execUnassignedWord (w : BitVec 32) (s : State) : Out :=
  match s.focus.role with
  | .unit => tsWord s fun p s => s.tsFault p (rejectTs w) (some (s.tsWordAt p))
  | .issue => .next (s.issueUnassigned w)
  | .perform => .next (s.engineFault (rejectOf w 0) none)

end Sys2Proof.Machine
end

