-- ==== Sys2Proof/Machine/Cycle.lean ====
section
/-! DEFINITION. One turn of the machine: what the entry at the head of the agenda does by itself, and the instruction it
runs, if any. A bank's cycle is a chain of phases (R81, R82, R85, R87): results land, a context issues, the engines start
words and issue micro-steps, the LP pushes, engines push, a context pushes or fills an engine queue, element writes land,
and the cycle is counted. -/

namespace Sys2Proof.Machine

open Sys2Proof

/-! ### Issue (R81, R82) -/

/-- The owner of the current wheel slot (R81). -/
def Image.slotOwner (m : Image) : Option (Fin 3) :=
  match blkSlotMap m.blk / 4 ^ (m.taskCycle % 12) % 4 with
  | 0 => some 0
  | 1 => some 1
  | 2 => some 2
  | _ => none

/-- Whether the task's contexts are held at a phase: from its word's issue until its answer (R154, R281). -/
def Image.phaseHeld (m : Image) : Bool :=
  match m.phase with
  | none => false
  | some w => match w.open? with
    | some n => decide (m.cyc < n)
    | none => true

/-- Whether a context issues in a slot it owns: it has not ended, and no fault of its CTRL word stands (R317). -/
def Image.mayIssue (m : Image) (c : Fin 3) : Bool :=
  let x := m.ctx[c.val]
  !x.ended && !(x.faults.any fun f => f.q.val == 0 && !f.taken) && !(m.phaseHeld)

/-- The word at a context's PC, with its extension. -/
def Bank.fetch (b : Bank) (c : Fin 3) : Instr :=
  let pc := b.img.ctx[c.val].pc.toNat
  fetchInstr (b.wordAt pc) (b.wordAt (pc + 4))

/-- A word that issues after the engines' starts and pushes of its cycle: a push, or a word of an engine other than
CTRL (R83, R87). -/
def lateIssue (i : Instr) : Bool :=
  match i with
  | .push _ _ _ => true
  | i => fld 31 29 (headWord i) != 0

/-- The word of a context is issued. -/
def State.issue (s : State) (core : CoreIx) (bank : BankIx) (c : Fin 3) : State × Option Instr :=
  (s.focusOn .issue core bank c 0, some ((s.bank core bank).fetch c))

/-- A fault or an event that a context takes in this slot (R320, R321, R284). -/
def Image.takes (m : Image) (c : Fin 3) : Option (CoreIx → BankIx → Event) :=
  let x := m.ctx[c.val]
  if x.ended || x.shadow.isSome || m.phaseHeld then none
  else if (x.nextFault m.cyc).isSome then some fun k b => .faultTaken k b (ixCtx c)
  else if x.faults.any (fun f => f.q.val == 0 && !f.taken) then none
  else if x.events.isEmpty then none
  else some fun k b => .eventTake k b (ixCtx c)

/-- The first half of a slot: faults and events are taken, and a CTRL word other than a push acts. -/
def State.issueEarly (s : State) (core : CoreIx) (bank : BankIx) : State × Option Instr :=
  let b := s.bank core bank
  match b.img.slotOwner with
  | none => (s, none)
  | some c =>
    match b.img.takes c with
    | some f =>
      (s.soon (rankEarly + core.val) [.ev (f core bank), .bank core bank .issueEarly], none)
    | none =>
      if b.img.mayIssue c then
        if lateIssue (b.fetch c) then (s.schedule s.now (rankLate + core.val) (.bank core bank .issueLate), none)
        else s.issue core bank c
      else (s, none)

def State.issueLate (s : State) (core : CoreIx) (bank : BankIx) : State × Option Instr :=
  let m := s.img core bank
  match m.slotOwner with
  | none => (s, none)
  | some c => if m.mayIssue c then s.issue core bank c else (s, none)

/-! ### The beginning of a cycle -/

/-- A bank's task runs its program: a system task runs firmware's, of which no cycle is modelled. -/
def Bank.runs (b : Bank) : Bool := b.status == .running && !(b.img.system)

/-- The phases of a cycle of a bank. `run`: its task runs; else words of ended tasks run on (R97). -/
def State.beginCycle (s : State) (core : CoreIx) (bank : BankIx) (run : Bool) : State :=
  let m := s.img core bank
  let n := core.val
  let lands := m.pend.any (fun w => decide (w.due ≤ m.cyc)) || (match m.lp.loadAt with
    | some k => decide (k ≤ m.cyc)
    | none => false)
  let s1 := s.schedule s.now (rankEngine + n) (.bank core bank (.engine 1))
  let s2 := s1.schedule s1.now (rankLoop + n) (.bank core bank .loop)
  let s3 := (s2.schedule s2.now (rankMemory + n) (.bank core bank .elems)).askGrant core s2.now
  let s4 := s3.schedule s3.now (rankEnd + n) (.bank core bank .endCycle)
  let s5 := if run then s4.schedule s4.now (rankEarly + n) (.bank core bank .issueEarly) else s4
  if run && lands then s5.soon (rankLand + n) [.ev (.resultLanding core bank)] else s5

/-- The task of a bank is in its first cycle, or in the first after a stop: its programs are accepted again (R81, R264). -/
def State.enterRun (s : State) (core : CoreIx) (bank : BankIx) : State :=
  (s.modBank core bank fun b =>
    { b with status := .running, img := { b.img with base := some (b.img.base.getD b.img.cyc) } }).tsReadmit core bank
      fun p => !p.faulted

/-- A cycle of a bank begins: of a throttled bank, one in four (R372). -/
def State.landPhase (s : State) (core : CoreIx) (bank : BankIx) : State :=
  let b := s.bank core bank
  let again (s : State) (n : Nat) : State := s.schedule n (rankLand + core.val) (.bank core bank .land)
  match b.status with
  | .running =>
    if (s.core core).throttled && s.now % 4 != 0 then again s ((s.now / 4 + 1) * 4)
    else if b.runs || b.img.runsOn then s.beginCycle core bank b.runs
    else s
  | .starting =>
    if b.startAt ≤ s.now then (s.enterRun core bank).beginCycle core bank true
    else if b.img.base.isNone && b.img.runsOn then s.beginCycle core bank false
    else again s b.startAt
  | .idle => if b.img.runsOn then s.beginCycle core bank false else s
  | _ => s

/-! ### Engines (R85, R206, R229, R236, R243, R249, R268) -/

/-- A word that pops an entry of FQ (R229, R237). -/
def popsFormat (i : Instr) : Bool :=
  match i with
  | .mMma _ _ _ _ | .mMmat _ _ _ _ | .mDrop _ => true
  | _ => false

/-- A tile command (R229). -/
def tileCommand (i : Instr) : Bool :=
  match i with
  | .mMma _ _ _ _ | .mMmat _ _ _ _ => true
  | _ => false

/-- When ME may start a word: a tile command once the array is free, an accumulator word once every earlier write of ME is
performed too (R233, R236). -/
def Image.matReady (m : Image) (i : Instr) : Bool :=
  match i with
  | .mSett _ _ _ | .mDrop _ => true
  | .mMma _ _ _ _ | .mMmat _ _ _ _ => decide (m.arrayFree ≤ m.cyc)
  | _ => decide (m.arrayFree ≤ m.cyc) && m.passes.all (fun p => p.lines.isEmpty) && !(m.elems.any fun e => e.q.val == 2)

/-- Updates of a queue that are not performed, or whose old values are not written (R243). -/
def State.updatesOut (s : State) (tid : Nat) (c : Fin 3) : Bool :=
  s.pendingActs.any (fun a => a.workOf tid 4 c) || s.pkg.away.any fun u => u.tid == tid && ctxIx u.ctx == c

/-- A release waits for the stores its context issued before it (R151). -/
def State.storesOut (s : State) (w : EngWord) (c : Fin 3) : Bool :=
  s.agenda.any fun e => match e.act with
    | .ev (.accessPoint (.store o _ _ _)) => o.tid == w.tid && o.ctx == c && decide (o.born < w.born)
    | _ => false

/-- What a word of an engine waits for before it starts, beside its entries. -/
def State.engineReady (s : State) (core : CoreIx) (bank : BankIx) (q : Fin 13) (c : Fin 3) (w : EngWord) : Bool :=
  let m := s.img core bank
  match w.instr with
  | .saScope _ _ | .saFlush _ => !(s.updatesOut w.tid c)
  | .lpDrain _ => m.lp.drained
  | .sSig _ _ | .sFres _ _ | .sLaunch _ _ _ _ | .sExit _ _ _ => !(s.storesOut w c)
  | .sWaitn _ _ =>
    (match (m.eqAt q c).cur with
      | some k => k.mpc != 1 || decide (m.ctx[c.val].notes < 8)
      | none => true)
  | .sUev _ t _ =>
    (match (m.eqAt q c).cur with
      | some k => k.mpc != 1 || decide (m.ctx[(Fin.ofNat 3 t.val).val].events.length < 8)
      | none => true)
  | i => if q = 2 then m.matReady i else true

/-- Whether the head word of a queue may start, or start again (R85, R317). A bank whose task does not run starts only
words of ended tasks. -/
def State.mayStart (s : State) (core : CoreIx) (bank : BankIx) (q : Fin 13) (c : Fin 3) : Bool :=
  let b := s.bank core bank
  let m := b.img
  match (m.eqAt q c).words with
  | [] => false
  | w :: _ =>
    let own := m.task.isSome && w.tid == m.tid
    let has := match (m.eqAt q c).cur with
      | some k => !k.waiting && k.answer.isNone
      | none => m.hasEntries c (m.operandOf w.instr)
    has && (!own || (b.runs && !(m.ctx[c.val].faulted q))) && s.engineReady core bank q c w

/-- The next context that an engine serves (R85). A queue's copies are served one at a time in a core, whichever bank holds
the word (R249). -/
def State.nextStart (s : State) (core : CoreIx) (bank : BankIx) (q : Fin 13) : Option (Fin 3) :=
  let e := (s.img core bank).eng[q.val]
  let other := (s.img core (otherBank bank)).eng[q.val].act.isSome
  if (s.img core bank).cyc < e.free ∨ (5 ≤ q.val ∧ q.val ≤ 9 ∧ other = true) then none
  else [e.last + 1, e.last + 2, e.last].find? fun c => s.mayStart core bank q c

/-- The start of the next word, if there is one to start. -/
def State.startActs (s : State) (core : CoreIx) (bank : BankIx) (q : Fin 13) : List Act :=
  match s.nextStart core bank q with
  | some c => [.ev (.engineWordStart core bank q (ixCtx c))]
  | none => []

/-- What an engine does in its cycle: the word that occupies it goes on or leaves it, or the next one starts. -/
def State.engineActs (s : State) (core : CoreIx) (bank : BankIx) (q : Fin 13) : State × List Act :=
  let m := s.img core bank
  let idle (s : State) : State := s.modImg core bank fun m => m.modEng q fun e => { e with act := none }
  match m.eng[q.val].act with
  | none => (s, s.startActs core bank q)
  | some c =>
    match (m.eqAt q c).words, (m.eqAt q c).cur with
    | w :: _, some k =>
      let mine := !(m.task.isSome && w.tid == m.tid) || (s.bank core bank).runs
      if !mine || k.waiting || k.opened then (s, [])
      else if m.cyc < k.next then
        (if k.lastDone && tileCommand w.instr then s.modImg core bank fun m => m.countBlocks c else s, [])
      else if k.lastDone then
        let s1 := s.modImg core bank fun m => m.finish q c
        (s1, s1.startActs core bank q)
      else if q = 1 ∨ q = 3 ∨ q = 4 then (s, [.ev (.microStep core bank q (ixCtx c))])
      else (s, [.perform core bank q c])
    | _, _ => (idle s, (idle s).startActs core bank q)

/-- An engine that has nothing to do in a cycle. -/
def Image.engineIdle (m : Image) (q : Fin 13) : Bool :=
  (m.eqAt q 0).words.isEmpty && (m.eqAt q 1).words.isEmpty && (m.eqAt q 2).words.isEmpty

/-- The engines of a bank act in queue-index order (R87). -/
def State.enginePhase (s : State) (core : CoreIx) (bank : BankIx) (q : Fin 13) : State :=
  let m := s.img core bank
  let rest := (List.finRange 13).filter fun k => decide (q.val < k.val) && !(m.engineIdle k)
  let next : List Act := match rest with
    | k :: _ => [.bank core bank (.engine k)]
    | [] => []
  if m.engineIdle q then s.soon (rankEngine + core.val) next
  else
    let (s1, l) := s.engineActs core bank q
    s1.soon (rankEngine + core.val) (l ++ next)

/-! ### Pushes and landings -/

/-- A word of LOOP or SYNC whose answer is ready, or waits for room in its result queue (R268); `run`: the bank's task
runs. -/
def Image.pushHeld (m : Image) (run : Bool) (q : Fin 13) (c : Fin 3) : Image :=
  match (m.eqAt q c).words, (m.eqAt q c).cur with
  | w :: _, some k =>
    if k.waiting || (m.holds w.tid && !run) then m
    else match k.answer with
      | some vals => m.answer q c (pushOf w.instr) vals
      | none => m
  | _, _ => m

/-- The LP acts: it pushes before the engines do (R87, R131). -/
def State.loopPhase (s : State) (core : CoreIx) (bank : BankIx) : State :=
  let lp : List Act := if (s.bank core bank).runs then
      (match (s.img core bank).lpEvent core bank with
        | some e => [.ev e]
        | none => [])
    else []
  (s.schedule s.now rankPush (.bank core bank .push)).soon (rankLoop + core.val) lp

/-- The LOOP engine and then the SYNC engine push the answers that are ready (R87, R268). -/
def State.pushPhase (s : State) (core : CoreIx) (bank : BankIx) : State :=
  s.modImg core bank fun m =>
    ([11, 12] : List (Fin 13)).foldl (fun m q => (List.finRange 3).foldl (fun m c => m.pushHeld (s.bank core bank).runs q c) m) m

/-- Element writes that act in this cycle: those with a line granted, and those that only raise flags. -/
def State.elemsAct (s : State) (core : CoreIx) (bank : BankIx) : Bool :=
  let m := s.img core bank
  (m.elems.any fun e => e.bytes.isEmpty && decide (e.due ≤ m.cyc)) ||
    (s.core core).granted.any fun r => match r.who with
      | .elem b _ => b == bank
      | _ => false

/-- The accumulator path acts in this cycle: a line is granted to it, or a count is posted (R234). -/
def State.pathActs (s : State) (core : CoreIx) (bank : BankIx) : Bool :=
  let m := s.img core bank
  (m.passes.any fun p => p.over m.cyc) ||
    (s.core core).granted.any fun r => match r.who with
      | .acc b _ _ => b == bank
      | _ => false

/-- Element writes and accumulator lines that are granted. -/
def State.elemsPhase (s : State) (core : CoreIx) (bank : BankIx) : State :=
  let e : List Act := if s.elemsAct core bank then [.ev (.elementWriteLands core bank)] else []
  let p : List Act := if s.pathActs core bank then [.ev (.passAccumulation core bank)] else []
  s.soon (rankMemory + core.val) (e ++ p)

/-! ### The end of a cycle -/

/-- The MASK of the trailer word of a bank's image (R97). -/
def Bank.trailerMask (b : Bank) : Nat := fld 11 0 (b.wordAt (blkImgLen b.img.blk - 4)).toNat

/-- No SYNC word of the task is left (R97). -/
def Image.syncDone (m : Image) : Bool :=
  (List.finRange 3).all fun c => (m.eqAt 12 c).words.all fun w => w.tid != m.tid

/-- Every context of the task has ended (R97). -/
def Image.allEnded (m : Image) : Bool := m.ctx.toList.all fun x => x.ended

/-- Every queue that the trailer names is clear of the task (R97). -/
def State.trailerClear (s : State) (core : CoreIx) (bank : BankIx) : Bool :=
  let mask := (s.bank core bank).trailerMask
  (List.finRange 13).all fun q =>
    !(decide (q.val < 12) && bitAt q.val mask) || (List.finRange 3).all fun c => !(s.pendingIn core bank c q)

/-- The boundary of the task, or the `s.exit` that its SYNC engine gives it first (R97, R366). -/
def State.boundaryActs (s : State) (core : CoreIx) (bank : BankIx) : List Act :=
  let m := s.img core bank
  if m.allEnded && m.syncDone && m.sysFault.isNone && m.abandon.isNone then
    if !m.exited then [.ev (.implicitExit core bank)]
    else if m.exitRun && s.trailerClear core bank then [.ev (.taskBoundary core bank)]
    else []
  else []

/-- MAT words that wait for an entry of FQ that no context will push (R325). -/
def Image.underflows (m : Image) (core : CoreIx) (bank : BankIx) : List Act :=
  (List.finRange 3).filterMap fun c =>
    match (m.eqAt 2 c).words, (m.eqAt 2 c).cur with
    | w :: _, none =>
      let own := m.task.isSome && w.tid == m.tid
      if popsFormat w.instr && (m.queue c 14).isEmpty && (!own || (m.allEnded && !(m.ctx[c.val].faulted 2))) then
        some (.ev (.formatUnderflow core bank (ixCtx c)))
      else none
    | _, _ => none

/-- The LP can deal a record, or move on (R324). -/
def Image.lpCanDeal (m : Image) : Bool :=
  m.lpEnds || (m.lp.st == 1 && !m.lp.refused &&
    (if !m.lp.remain.isEmpty then decide (0 < m.lp.permits) && m.iqRoom
    else m.lp.walk.isEmpty || m.lp.atBoundary ||
      (decide (0 < m.lp.permits) && (blkSched m.blk != 0 || m.iqRoom))))

/-- Queue deadlock of R324 in this cycle. -/
def State.deadlocked (s : State) (core : CoreIx) (bank : BankIx) : Bool :=
  let m := s.img core bank
  let heads := (List.finRange 13).all fun q => (List.finRange 3).all fun c =>
    match (m.eqAt q c).words with
    | [] => true
    | w :: _ =>
      w.tid != m.tid || ((m.eqAt q c).cur.isNone && !(s.mayStart core bank q c)) || m.ctx[c.val].faulted q
  let ts := let k := s.col (coreCol core)
    (k.tsRun.toList ++ k.tsWait).any fun p => p.tid == m.tid
  m.ctx.toList.all (fun x => x.ended || x.blocked) && heads &&
    !(m.passes.any fun p => p.tid == m.tid) && !ts && !(m.progs.any fun p => p.tid == m.tid) &&
    (List.finRange 3).all (fun c => !(s.updatesOut m.tid c)) &&
    !m.lp.inFlight && m.lp.st != 2 && !m.lpCanDeal

/-- Trap streams that have been open for 65,536 task cycles (R333). -/
def Image.timeouts (m : Image) (core : CoreIx) (bank : BankIx) : List Act :=
  (List.finRange 3).filterMap fun c =>
    let x := m.ctx[c.val]
    if x.shadow.isSome && m.cyc + 1 - x.trapOpen == 65536 then some (.ev (.trapStreamTimeout core bank (ixCtx c)))
    else none

/-- The dealer fills the collective wait of a core's task (R123). -/
def State.fills (s : State) (core : CoreIx) (bank : BankIx) (n : Nat) : Bool :=
  let d := coreDie core
  let v := (s.die d).fillwait.toNat
  bitAt 20 v && decide (fld 19 0 v ≤ n) && (s.bank core (otherBank bank)).status == .idle && s.hasSlot d &&
    (s.fillerFor d (s.img core bank).blk).isSome

/-- What the end of a cycle of a running task finds, in the cycle that it counts. -/
def State.runEnds (s : State) (core : CoreIx) (bank : BankIx) : State × List Act :=
  let m := s.img core bank
  let dead := if s.deadlocked core bank then m.deadCount + 1 else 0
  let coll := if s.collective m then m.collCount + 1 else 0
  let late := match m.npr with
    | some r => decide (r.opened + r.limit ≤ m.cyc)
    | none => false
  let stop : List Act := match m.stopReq with
    | some why => if s.stopWaits core bank why then [] else [.ev (.taskStop core bank why)]
    | none => []
  let acts := m.timeouts core bank ++ (if late then [.ev (.regionOverrun core bank)] else []) ++
    (if dead = 4096 then [.ev (.queueDeadlock core bank)] else []) ++ s.boundaryActs core bank ++
    (if (s.core core).throttled && m.npr.isNone then [.ev (.throttleEnd core bank)] else []) ++ stop ++
    (if s.fills core bank coll then [.ev (.fillerCollectiveWait core)] else [])
  let s1 := s.modImg core bank fun m => { m with deadCount := dead % 4096, collCount := coll }
  let s2 := match s1.arriving core bank with
    | some c => s1.arrive core bank c
    | none => s1
  (s2, acts)

/-- The cycle is counted; a phase whose answer has come ends. -/
def Image.tick (m : Image) : Image :=
  { m with
    cyc := m.cyc + 1
    phase := match m.phase with
      | some w => (match w.open? with
        | some n => if n ≤ m.cyc + 1 then none else some w
        | none => some w)
      | none => none }

/-- The end of a bank's cycle: what it finds is due at once, and the next cycle begins in the next cycle of the package. -/
def State.endPhase (s : State) (core : CoreIx) (bank : BankIx) : State :=
  let (s1, acts) := if (s.bank core bank).runs then s.runEnds core bank else (s, [])
  let acts1 := (s1.img core bank).underflows core bank ++ acts
  let s2 := (s1.modImg core bank Image.tick).schedule (s1.now + 1) (rankLand + core.val) (.bank core bank .land)
  s2.soon (rankEnd + core.val) acts1

/-! ### The transform sequencer -/

/-- The word at the TS program counter of a column (R262). -/
def Column.tsFetch (k : Column) : Instr :=
  match k.tsRun with
  | some p => fetchTs (k.tsMem.get 0 p.pc)
  | none => .unassignedWord 0

/-! ### Turns -/

/-- The task to whose core an answer, a notice or an event comes from outside it. -/
def Event.comesTo (e : Event) : Option Nat :=
  match e with
  | .syncAnswer a _ _ => some a.tid
  | .notifyEventArrival tid _ _ => some tid
  | .registrationAnswer tid _ _ => some tid
  | .claimAnswer tid _ _ => some tid
  | .pendingNotice tid => some tid
  | .commitNotice tid _ => some tid
  | .completionNotice tid => some tid
  | _ => none

/-- Whether an event is held for the next advancing cycle of a throttled bank (R372). -/
def State.heldByThrottle (s : State) (e : Event) : Bool :=
  match e.comesTo with
  | none => false
  | some tid => match s.bankOf tid with
    | some (core, bank) => (s.core core).throttled && (s.bank core bank).runs && s.now % 4 != 0
    | none => false

/-- What an agenda entry does: the state after its own part, and the instruction it runs. -/
def State.turn (s : State) (rank : Nat) (a : Act) : State × Option Instr :=
  match a with
  | .ev e =>
    if s.heldByThrottle e then (s.schedule ((s.now / 4 + 1) * 4) rank (.ev e), none)
    else ({ s with focus := { s.focus with role := .unit, event := some e } }, some e.row)
  | .ts col => ({ s with focus := { s.focus with role := .unit, col, event := none } }, some (s.col col).tsFetch)
  | .dealer die x => (s.dealerMsg die x, none)
  | .grant core => (s.grantPhase core, none)
  | .port col layer => (s.portPhase col layer, none)
  | .ecc k u => (s.eccNow k u, none)
  | .stall col => (s.countStall col, none)
  | .cov col x => (s.covMsg col x, none)
  | .perform core bank q ctx =>
    match ((s.img core bank).eqAt q ctx).words with
    | [] => (s, none)
    | w :: _ => (s.focusOn .perform core bank ctx q, some w.instr)
  | .bank core bank ph =>
    match ph with
    | .land => (s.landPhase core bank, none)
    | .issueEarly => s.issueEarly core bank
    | .engine q => (s.enginePhase core bank q, none)
    | .loop => (s.loopPhase core bank, none)
    | .push => (s.pushPhase core bank, none)
    | .issueLate => s.issueLate core bank
    | .elems => (s.elemsPhase core bank, none)
    | .endCycle => (s.endPhase core bank, none)

end Sys2Proof.Machine
end

