-- ==== Sys2Proof/Machine/Dispatch.lean ====
section
/-! DEFINITION. The dispatch: one arm for every instruction of the opcode table, each a direct call of its meaning. -/

namespace Sys2Proof.Machine

open Sys2Proof

def exec (i : Instr) (s : State) : Host.Outcome State Fault Refusal :=
  match i with
  | .trailerWord m => Sys2Proof.Machine.execTrailerWord m s
  | .nop p => Sys2Proof.Machine.execNop p s
  | .add p d a b => Sys2Proof.Machine.execAdd p d a b s
  | .sub p d a b => Sys2Proof.Machine.execSub p d a b s
  | .mul p d a b => Sys2Proof.Machine.execMul p d a b s
  | .mulh p d a b u => Sys2Proof.Machine.execMulh p d a b u s
  | .div p d a b u => Sys2Proof.Machine.execDiv p d a b u s
  | .rem p d a b u => Sys2Proof.Machine.execRem p d a b u s
  | .and p d a b => Sys2Proof.Machine.execAnd p d a b s
  | .or p d a b => Sys2Proof.Machine.execOr p d a b s
  | .xor p d a b => Sys2Proof.Machine.execXor p d a b s
  | .andn p d a b => Sys2Proof.Machine.execAndn p d a b s
  | .shl p d a b => Sys2Proof.Machine.execShl p d a b s
  | .shr p d a b => Sys2Proof.Machine.execShr p d a b s
  | .sra p d a b => Sys2Proof.Machine.execSra p d a b s
  | .min p d a b u => Sys2Proof.Machine.execMin p d a b u s
  | .max p d a b u => Sys2Proof.Machine.execMax p d a b u s
  | .sel p d a b c => Sys2Proof.Machine.execSel p d a b c s
  | .addi p d a im => Sys2Proof.Machine.execAddi p d a im s
  | .andi p d a im => Sys2Proof.Machine.execAndi p d a im s
  | .ori p d a im => Sys2Proof.Machine.execOri p d a im s
  | .xori p d a im => Sys2Proof.Machine.execXori p d a im s
  | .shli p d a n => Sys2Proof.Machine.execShli p d a n s
  | .shri p d a n => Sys2Proof.Machine.execShri p d a n s
  | .srai p d a n => Sys2Proof.Machine.execSrai p d a n s
  | .muli p d a im => Sys2Proof.Machine.execMuli p d a im s
  | .cmp p d a b c => Sys2Proof.Machine.execCmp p d a b c s
  | .cmpx p d a c x => Sys2Proof.Machine.execCmpx p d a c x s
  | .pand p d a b => Sys2Proof.Machine.execPand p d a b s
  | .por p d a b => Sys2Proof.Machine.execPor p d a b s
  | .pxor p d a b => Sys2Proof.Machine.execPxor p d a b s
  | .pandn p d a b => Sys2Proof.Machine.execPandn p d a b s
  | .pset p d b => Sys2Proof.Machine.execPset p d b s
  | .prd p d => Sys2Proof.Machine.execPrd p d s
  | .pwr p sc => Sys2Proof.Machine.execPwr p sc s
  | .li p d im => Sys2Proof.Machine.execLi p d im s
  | .lit p d x => Sys2Proof.Machine.execLit p d x s
  | .lith p d x => Sys2Proof.Machine.execLith p d x s
  | .ld p d a im => Sys2Proof.Machine.execLd p d a im s
  | .ldx p d a b e w => Sys2Proof.Machine.execLdx p d a b e w s
  | .st p sc a im => Sys2Proof.Machine.execSt p sc a im s
  | .stx p sc a b e w => Sys2Proof.Machine.execStx p sc a b e w s
  | .cvta p d a w => Sys2Proof.Machine.execCvta p d a w s
  | .isap p d a w => Sys2Proof.Machine.execIsap p d a w s
  | .br p o => Sys2Proof.Machine.execBr p o s
  | .call p o => Sys2Proof.Machine.execCall p o s
  | .jr p a => Sys2Proof.Machine.execJr p a s
  | .loopb p o => Sys2Proof.Machine.execLoopb p o s
  | .push p q sc => Sys2Proof.Machine.execPush p q sc s
  | .pop p q d => Sys2Proof.Machine.execPop p q d s
  | .peek p q d => Sys2Proof.Machine.execPeek p q d s
  | .qfence p m => Sys2Proof.Machine.execQfence p m s
  | .mfsr p d n => Sys2Proof.Machine.execMfsr p d n s
  | .mtsr p sc n => Sys2Proof.Machine.execMtsr p sc n s
  | .uret p => Sys2Proof.Machine.execUret p s
  | .sext p d a e w => Sys2Proof.Machine.execSext p d a e w s
  | .zext p d a e w => Sys2Proof.Machine.execZext p d a e w s
  | .clz p d a => Sys2Proof.Machine.execClz p d a s
  | .popc p d a => Sys2Proof.Machine.execPopc p d a s
  | .setlc p sc im => Sys2Proof.Machine.execSetlc p sc im s
  | .setec p sc im => Sys2Proof.Machine.execSetec p sc im s
  | .setrot p sc im => Sys2Proof.Machine.execSetrot p sc im s
  | .vSeta p q d => Sys2Proof.Machine.execVSeta p q d s
  | .vAdd p t r d a sc b => Sys2Proof.Machine.execVAdd p t r d a sc b s
  | .vSub p t r d a sc b => Sys2Proof.Machine.execVSub p t r d a sc b s
  | .vMul p t r d a sc b => Sys2Proof.Machine.execVMul p t r d a sc b s
  | .vDiv p t r d a sc b => Sys2Proof.Machine.execVDiv p t r d a sc b s
  | .vFma p t r d a sc b => Sys2Proof.Machine.execVFma p t r d a sc b s
  | .vFms p t r d a sc b => Sys2Proof.Machine.execVFms p t r d a sc b s
  | .vFnma p t r d a sc b => Sys2Proof.Machine.execVFnma p t r d a sc b s
  | .vMin p t r d a sc b => Sys2Proof.Machine.execVMin p t r d a sc b s
  | .vMax p t r d a sc b => Sys2Proof.Machine.execVMax p t r d a sc b s
  | .vAbs p t r d a sc => Sys2Proof.Machine.execVAbs p t r d a sc s
  | .vNeg p t r d a sc => Sys2Proof.Machine.execVNeg p t r d a sc s
  | .vSqrt p t r d a => Sys2Proof.Machine.execVSqrt p t r d a s
  | .vExp2 p t r d a => Sys2Proof.Machine.execVExp2 p t r d a s
  | .vLog2 p t r d a => Sys2Proof.Machine.execVLog2 p t r d a s
  | .vRecip p t r d a => Sys2Proof.Machine.execVRecip p t r d a s
  | .vRsqrt p t r d a => Sys2Proof.Machine.execVRsqrt p t r d a s
  | .vTanh p t r d a => Sys2Proof.Machine.execVTanh p t r d a s
  | .vAnd p t d a b => Sys2Proof.Machine.execVAnd p t d a b s
  | .vOr p t d a b => Sys2Proof.Machine.execVOr p t d a b s
  | .vXor p t d a b => Sys2Proof.Machine.execVXor p t d a b s
  | .vShl p t d a b => Sys2Proof.Machine.execVShl p t d a b s
  | .vShr p t d a b => Sys2Proof.Machine.execVShr p t d a b s
  | .vSra p t d a b => Sys2Proof.Machine.execVSra p t d a b s
  | .vMulh p t d a b => Sys2Proof.Machine.execVMulh p t d a b s
  | .vCmpeq p t d a b => Sys2Proof.Machine.execVCmpeq p t d a b s
  | .vCmpne p t d a b => Sys2Proof.Machine.execVCmpne p t d a b s
  | .vCmplt p t d a b => Sys2Proof.Machine.execVCmplt p t d a b s
  | .vCmple p t d a b => Sys2Proof.Machine.execVCmple p t d a b s
  | .vSel p t d a b => Sys2Proof.Machine.execVSel p t d a b s
  | .vCvt p t r d a sc b => Sys2Proof.Machine.execVCvt p t r d a sc b s
  | .vRsum p t r d a sc => Sys2Proof.Machine.execVRsum p t r d a sc s
  | .vRmax p t d a => Sys2Proof.Machine.execVRmax p t d a s
  | .vRmin p t d a => Sys2Proof.Machine.execVRmin p t d a s
  | .vCopy p t d a => Sys2Proof.Machine.execVCopy p t d a s
  | .vFill p q d => Sys2Proof.Machine.execVFill p q d s
  | .vIota p q r d sc => Sys2Proof.Machine.execVIota p q r d sc s
  | .vClamp p q d a => Sys2Proof.Machine.execVClamp p q d a s
  | .vAddq p q r d a sc => Sys2Proof.Machine.execVAddq p q r d a sc s
  | .vMulq p q r d a sc => Sys2Proof.Machine.execVMulq p q r d a sc s
  | .vFmaq p q r d a sc => Sys2Proof.Machine.execVFmaq p q r d a sc s
  | .vGather p t d a b => Sys2Proof.Machine.execVGather p t d a b s
  | .vScatter p t d a b => Sys2Proof.Machine.execVScatter p t d a b s
  | .vCnt p t d a => Sys2Proof.Machine.execVCnt p t d a s
  | .mSett p q d => Sys2Proof.Machine.execMSett p q d s
  | .mMma p d a b => Sys2Proof.Machine.execMMma p d a b s
  | .mMmat p d a b => Sys2Proof.Machine.execMMmat p d a b s
  | .mClr p t d => Sys2Proof.Machine.execMClr p t d s
  | .mCvt p t d a sc => Sys2Proof.Machine.execMCvt p t d a sc s
  | .mBias p d a => Sys2Proof.Machine.execMBias p d a s
  | .mTr p t d a => Sys2Proof.Machine.execMTr p t d a s
  | .mScl p q d => Sys2Proof.Machine.execMScl p q d s
  | .mCopy p t d a => Sys2Proof.Machine.execMCopy p t d a s
  | .mDrop p => Sys2Proof.Machine.execMDrop p s
  | .mAdd p d a => Sys2Proof.Machine.execMAdd p d a s
  | .mRelu p d => Sys2Proof.Machine.execMRelu p d s
  | .rowSeta p q d => Sys2Proof.Machine.execRowSeta p q d s
  | .rowMax p q d a => Sys2Proof.Machine.execRowMax p q d a s
  | .rowExpsum p q d a b => Sys2Proof.Machine.execRowExpsum p q d a b s
  | .rowScale p q d a b => Sys2Proof.Machine.execRowScale p q d a b s
  | .rowSoft p q d a => Sys2Proof.Machine.execRowSoft p q d a s
  | .rowSum p q d a => Sys2Proof.Machine.execRowSum p q d a s
  | .rowNorm p q d a => Sys2Proof.Machine.execRowNorm p q d a s
  | .rowRms p q d a b => Sys2Proof.Machine.execRowRms p q d a b s
  | .saSeta p q d => Sys2Proof.Machine.execSaSeta p q d s
  | .saAdd p q sc e w im v => Sys2Proof.Machine.execSaAdd p q sc e w im v s
  | .saMin p q sc e w im v => Sys2Proof.Machine.execSaMin p q sc e w im v s
  | .saMax p q sc e w im v => Sys2Proof.Machine.execSaMax p q sc e w im v s
  | .saAnd p q sc e w im v => Sys2Proof.Machine.execSaAnd p q sc e w im v s
  | .saOr p q sc e w im v => Sys2Proof.Machine.execSaOr p q sc e w im v s
  | .saXor p q sc e w im v => Sys2Proof.Machine.execSaXor p q sc e w im v s
  | .saSwap p q sc e w im v => Sys2Proof.Machine.execSaSwap p q sc e w im v s
  | .saCas p q sc w im v => Sys2Proof.Machine.execSaCas p q sc w im v s
  | .saCnt p q sc e w im => Sys2Proof.Machine.execSaCnt p q sc e w im s
  | .saScope p sc => Sys2Proof.Machine.execSaScope p sc s
  | .saFlush p => Sys2Proof.Machine.execSaFlush p s
  | .xLdshape p q sc => Sys2Proof.Machine.execXLdshape p q sc s
  | .xEvict p q sc => Sys2Proof.Machine.execXEvict p q sc s
  | .xLd1 p q sc => Sys2Proof.Machine.execXLd1 p q sc s
  | .xSt1 p q sc => Sys2Proof.Machine.execXSt1 p q sc s
  | .xCp1 p q => Sys2Proof.Machine.execXCp1 p q s
  | .xLd2 p q sc => Sys2Proof.Machine.execXLd2 p q sc s
  | .xSt2 p q sc => Sys2Proof.Machine.execXSt2 p q sc s
  | .xCp2 p q => Sys2Proof.Machine.execXCp2 p q s
  | .xLd3 p q sc => Sys2Proof.Machine.execXLd3 p q sc s
  | .xSt3 p q sc => Sys2Proof.Machine.execXSt3 p q sc s
  | .xCp3 p q => Sys2Proof.Machine.execXCp3 p q s
  | .xLd4 p q sc => Sys2Proof.Machine.execXLd4 p q sc s
  | .xSt4 p q sc => Sys2Proof.Machine.execXSt4 p q sc s
  | .xCp4 p q => Sys2Proof.Machine.execXCp4 p q s
  | .xDact p q => Sys2Proof.Machine.execXDact p q s
  | .xDpre p q => Sys2Proof.Machine.execXDpre p q s
  | .xDref p q => Sys2Proof.Machine.execXDref p q s
  | .xFld p q sc c k => Sys2Proof.Machine.execXFld p q sc c k s
  | .xFst p q sc => Sys2Proof.Machine.execXFst p q sc s
  | .xTrun p q => Sys2Proof.Machine.execXTrun p q s
  | .xTok p k => Sys2Proof.Machine.execXTok p k s
  | .xLpow p l u => Sys2Proof.Machine.execXLpow p l u s
  | .lpLdtab p q => Sys2Proof.Machine.execLpLdtab p q s
  | .lpDone p => Sys2Proof.Machine.execLpDone p s
  | .lpSchedw p q => Sys2Proof.Machine.execLpSchedw p q s
  | .lpSchedr p q u r sc => Sys2Proof.Machine.execLpSchedr p q u r sc s
  | .lpCov p q u r => Sys2Proof.Machine.execLpCov p q u r s
  | .lpCovrd p q u r => Sys2Proof.Machine.execLpCovrd p q u r s
  | .lpGen p u r => Sys2Proof.Machine.execLpGen p u r s
  | .lpStat p u r => Sys2Proof.Machine.execLpStat p u r s
  | .lpAddp p q => Sys2Proof.Machine.execLpAddp p q s
  | .lpPend p u r => Sys2Proof.Machine.execLpPend p u r s
  | .lpPos p q u r => Sys2Proof.Machine.execLpPos p q u r s
  | .lpDrain p => Sys2Proof.Machine.execLpDrain p s
  | .lpPermits p u r => Sys2Proof.Machine.execLpPermits p u r s
  | .lpRec p u r => Sys2Proof.Machine.execLpRec p u r s
  | .sArm p q f => Sys2Proof.Machine.execSArm p q f s
  | .sArmc p q f => Sys2Proof.Machine.execSArmc p q f s
  | .sDisarm p q => Sys2Proof.Machine.execSDisarm p q s
  | .sSig p q => Sys2Proof.Machine.execSSig p q s
  | .sWait p q u r => Sys2Proof.Machine.execSWait p q u r s
  | .sWaitn p q => Sys2Proof.Machine.execSWaitn p q s
  | .sBstat p q u r => Sys2Proof.Machine.execSBstat p q u r s
  | .sFnew p q => Sys2Proof.Machine.execSFnew p q s
  | .sFjoin p q => Sys2Proof.Machine.execSFjoin p q s
  | .sFres p q => Sys2Proof.Machine.execSFres p q s
  | .sFpeek p q u r => Sys2Proof.Machine.execSFpeek p q u r s
  | .sLaunch p q u r => Sys2Proof.Machine.execSLaunch p q u r s
  | .sExit p q k => Sys2Proof.Machine.execSExit p q k s
  | .sHalt p => Sys2Proof.Machine.execSHalt p s
  | .sPhase p q n => Sys2Proof.Machine.execSPhase p q n s
  | .sQopen p sc => Sys2Proof.Machine.execSQopen p sc s
  | .sQsplit p q => Sys2Proof.Machine.execSQsplit p q s
  | .sQret p q => Sys2Proof.Machine.execSQret p q s
  | .sWaitq p u r sc => Sys2Proof.Machine.execSWaitq p u r sc s
  | .sQstat p u r sc => Sys2Proof.Machine.execSQstat p u r sc s
  | .sQclose p sc => Sys2Proof.Machine.execSQclose p sc s
  | .sNpr p x => Sys2Proof.Machine.execSNpr p x s
  | .sNprend p => Sys2Proof.Machine.execSNprend p s
  | .sUev p c e => Sys2Proof.Machine.execSUev p c e s
  | .sTime p r => Sys2Proof.Machine.execSTime p r s
  | .sYield p => Sys2Proof.Machine.execSYield p s
  | .tsEnd => Sys2Proof.Machine.execTsEnd s
  | .tsSeti d im => Sys2Proof.Machine.execTsSeti d im s
  | .tsAddi d a im => Sys2Proof.Machine.execTsAddi d a im s
  | .tsAdd d a b => Sys2Proof.Machine.execTsAdd d a b s
  | .tsSetc c a => Sys2Proof.Machine.execTsSetc c a s
  | .tsLoop c o => Sys2Proof.Machine.execTsLoop c o s
  | .tsJmp o => Sys2Proof.Machine.execTsJmp o s
  | .tsSetb e b x => Sys2Proof.Machine.execTsSetb e b x s
  | .tsZexp a b => Sys2Proof.Machine.execTsZexp a b s
  | .tsZcmp d a b => Sys2Proof.Machine.execTsZcmp d a b s
  | .tsMvlo a b n => Sys2Proof.Machine.execTsMvlo a b n s
  | .tsMvhi a b n => Sys2Proof.Machine.execTsMvhi a b n s
  | .tsWaitt k => Sys2Proof.Machine.execTsWaitt k s
  | .tsPost a q => Sys2Proof.Machine.execTsPost a q s
  | .tsFence => Sys2Proof.Machine.execTsFence s
  | .tsBnz a o => Sys2Proof.Machine.execTsBnz a o s
  | .unassignedWord w => Sys2Proof.Machine.execUnassignedWord w s
  | .powerOn => Sys2Proof.Machine.execPowerOn s
  | .bridgeClaim => Sys2Proof.Machine.execBridgeClaim s
  | .bridgeClaimTimeout => Sys2Proof.Machine.execBridgeClaimTimeout s
  | .reset => Sys2Proof.Machine.execReset s
  | .enabled => Sys2Proof.Machine.execEnabled s
  | .nonce => Sys2Proof.Machine.execNonce s
  | .faultact => Sys2Proof.Machine.execFaultact s
  | .tlbinv => Sys2Proof.Machine.execTlbinv s
  | .refwinWrite => Sys2Proof.Machine.execRefwinWrite s
  | .bankbudgetWrite => Sys2Proof.Machine.execBankbudgetWrite s
  | .bustimingWrite => Sys2Proof.Machine.execBustimingWrite s
  | .registerWrite => Sys2Proof.Machine.execRegisterWrite s
  | .hostMemoryRead => Sys2Proof.Machine.execHostMemoryRead s
  | .hostMemoryWrite => Sys2Proof.Machine.execHostMemoryWrite s
  | .hostEnqueueWrite => Sys2Proof.Machine.execHostEnqueueWrite s
  | .launchEnqueue => Sys2Proof.Machine.execLaunchEnqueue s
  | .dealerChoice => Sys2Proof.Machine.execDealerChoice s
  | .gangReservation => Sys2Proof.Machine.execGangReservation s
  | .gangStart => Sys2Proof.Machine.execGangStart s
  | .taskBoundary => Sys2Proof.Machine.execTaskBoundary s
  | .taskStart => Sys2Proof.Machine.execTaskStart s
  | .launchCompletion => Sys2Proof.Machine.execLaunchCompletion s
  | .donenextDeferred => Sys2Proof.Machine.execDonenextDeferred s
  | .taskStop => Sys2Proof.Machine.execTaskStop s
  | .imageSaveComplete => Sys2Proof.Machine.execImageSaveComplete s
  | .taskResume => Sys2Proof.Machine.execTaskResume s
  | .waitingTaskReady => Sys2Proof.Machine.execWaitingTaskReady s
  | .fillerCollectiveWait => Sys2Proof.Machine.execFillerCollectiveWait s
  | .fillerReturn => Sys2Proof.Machine.execFillerReturn s
  | .futureCreate => Sys2Proof.Machine.execFutureCreate s
  | .futureJoin => Sys2Proof.Machine.execFutureJoin s
  | .futureResolve => Sys2Proof.Machine.execFutureResolve s
  | .futurePoison => Sys2Proof.Machine.execFuturePoison s
  | .entrySatisfaction => Sys2Proof.Machine.execEntrySatisfaction s
  | .borrowDebit => Sys2Proof.Machine.execBorrowDebit s
  | .borrowGrant => Sys2Proof.Machine.execBorrowGrant s
  | .weightReturn => Sys2Proof.Machine.execWeightReturn s
  | .waitqComplete => Sys2Proof.Machine.execWaitqComplete s
  | .implicitExit => Sys2Proof.Machine.execImplicitExit s
  | .barrierArm => Sys2Proof.Machine.execBarrierArm s
  | .barrierDisarm => Sys2Proof.Machine.execBarrierDisarm s
  | .barrierCount => Sys2Proof.Machine.execBarrierCount s
  | .barrierWait => Sys2Proof.Machine.execBarrierWait s
  | .syncAnswer => Sys2Proof.Machine.execSyncAnswer s
  | .notifyEventArrival => Sys2Proof.Machine.execNotifyEventArrival s
  | .eventTake => Sys2Proof.Machine.execEventTake s
  | .phaseBoundary => Sys2Proof.Machine.execPhaseBoundary s
  | .columnPowerDown => Sys2Proof.Machine.execColumnPowerDown s
  | .columnPowerUp => Sys2Proof.Machine.execColumnPowerUp s
  | .columnReset => Sys2Proof.Machine.execColumnReset s
  | .lpDealRecord => Sys2Proof.Machine.execLpDealRecord s
  | .coverageRegistration => Sys2Proof.Machine.execCoverageRegistration s
  | .registrationAnswer => Sys2Proof.Machine.execRegistrationAnswer s
  | .coverageClaim => Sys2Proof.Machine.execCoverageClaim s
  | .claimAnswer => Sys2Proof.Machine.execClaimAnswer s
  | .rewriteWrite => Sys2Proof.Machine.execRewriteWrite s
  | .pendingNotice => Sys2Proof.Machine.execPendingNotice s
  | .rewriteCommit => Sys2Proof.Machine.execRewriteCommit s
  | .commitNotice => Sys2Proof.Machine.execCommitNotice s
  | .dealingComplete => Sys2Proof.Machine.execDealingComplete s
  | .completionNotice => Sys2Proof.Machine.execCompletionNotice s
  | .endRecordPush => Sys2Proof.Machine.execEndRecordPush s
  | .copyCompletion => Sys2Proof.Machine.execCopyCompletion s
  | .passAccumulation => Sys2Proof.Machine.execPassAccumulation s
  | .saHomeUpdate => Sys2Proof.Machine.execSaHomeUpdate s
  | .tsProgramTurn => Sys2Proof.Machine.execTsProgramTurn s
  | .tsProgramEnd => Sys2Proof.Machine.execTsProgramEnd s
  | .bankPeriodStart => Sys2Proof.Machine.execBankPeriodStart s
  | .forcedRefresh => Sys2Proof.Machine.execForcedRefresh s
  | .forcedRefreshEnd => Sys2Proof.Machine.execForcedRefreshEnd s
  | .dramSensorReading => Sys2Proof.Machine.execDramSensorReading s
  | .layerWakeComplete => Sys2Proof.Machine.execLayerWakeComplete s
  | .layerPowerOff => Sys2Proof.Machine.execLayerPowerOff s
  | .migrationService => Sys2Proof.Machine.execMigrationService s
  | .migrationComplete => Sys2Proof.Machine.execMigrationComplete s
  | .walkFill => Sys2Proof.Machine.execWalkFill s
  | .correctedRewrite => Sys2Proof.Machine.execCorrectedRewrite s
  | .deferredFault => Sys2Proof.Machine.execDeferredFault s
  | .faultHandlerEnd => Sys2Proof.Machine.execFaultHandlerEnd s
  | .faultTaken => Sys2Proof.Machine.execFaultTaken s
  | .queueDeadlock => Sys2Proof.Machine.execQueueDeadlock s
  | .formatUnderflow => Sys2Proof.Machine.execFormatUnderflow s
  | .trapStreamTimeout => Sys2Proof.Machine.execTrapStreamTimeout s
  | .regionOverrun => Sys2Proof.Machine.execRegionOverrun s
  | .repairWindow => Sys2Proof.Machine.execRepairWindow s
  | .laneReplacement => Sys2Proof.Machine.execLaneReplacement s
  | .laneReplacementEnd => Sys2Proof.Machine.execLaneReplacementEnd s
  | .talonReplacement => Sys2Proof.Machine.execTalonReplacement s
  | .talonReplacementEnd => Sys2Proof.Machine.execTalonReplacementEnd s
  | .sliceRetired => Sys2Proof.Machine.execSliceRetired s
  | .coreWithdrawn => Sys2Proof.Machine.execCoreWithdrawn s
  | .governorSample => Sys2Proof.Machine.execGovernorSample s
  | .tokenPeriod => Sys2Proof.Machine.execTokenPeriod s
  | .thermalManagerAction => Sys2Proof.Machine.execThermalManagerAction s
  | .thermalTrip => Sys2Proof.Machine.execThermalTrip s
  | .throttleEnd => Sys2Proof.Machine.execThrottleEnd s
  | .telemetryRecord => Sys2Proof.Machine.execTelemetryRecord s
  | .telemetryHostCopy => Sys2Proof.Machine.execTelemetryHostCopy s
  | .ptpSyncSend => Sys2Proof.Machine.execPtpSyncSend s
  | .ptpSyncArrival => Sys2Proof.Machine.execPtpSyncArrival s
  | .linkDelayMeasure => Sys2Proof.Machine.execLinkDelayMeasure s
  | .todMessage => Sys2Proof.Machine.execTodMessage s
  | .ppsEdge => Sys2Proof.Machine.execPpsEdge s
  | .ptmSteer => Sys2Proof.Machine.execPtmSteer s
  | .timeSourceLoss => Sys2Proof.Machine.execTimeSourceLoss s
  | .flitReceive => Sys2Proof.Machine.execFlitReceive s
  | .portDown => Sys2Proof.Machine.execPortDown s
  | .portTrained => Sys2Proof.Machine.execPortTrained s
  | .routeRecompute => Sys2Proof.Machine.execRouteRecompute s
  | .engineWordStart => Sys2Proof.Machine.execEngineWordStart s
  | .resultLanding => Sys2Proof.Machine.execResultLanding s
  | .accessPoint => Sys2Proof.Machine.execAccessPoint s
  | .microStep => Sys2Proof.Machine.execMicroStep s
  | .elementWriteLands => Sys2Proof.Machine.execElementWriteLands s
  | .dramCommandIssue => Sys2Proof.Machine.execDramCommandIssue s
  | .tsDataPosting => Sys2Proof.Machine.execTsDataPosting s
  | .pcieLinkLoss => Sys2Proof.Machine.execPcieLinkLoss s

end Sys2Proof.Machine
end

