-- ==== Sys2Proof/Machine/Step.lean ====
section
/-! DEFINITION. One step of the machine, and the placing of an instruction where the next step fetches it. -/

namespace Sys2Proof.Machine

open Sys2Proof

/-- One step: the first entry of the agenda is performed, in its cycle. With nothing due, a cycle passes. -/
def step (s : State) : Host.Outcome State Fault Refusal :=
  match s.agenda with
  | [] => .next { s with now := s.now + 1 }
  | e :: rest =>
    match ({ s with now := max s.now e.due, agenda := rest } : State).turn e.rank e.act with
    | (s', none) => .next s'
    | (s', some i) => exec i s'

/-- The launch block of a task whose every slot is LD's and whose image is 32 KiB. -/
def fetchBlk : List Word := [0, 0x8000, 1, 0, 0, 0, 0, 0, 0, 0, 0, 0, 0, 0, 0, 0]

/-- The task that runs a placed word. -/
def fetchTask : Task :=
  { tid := 0, die := 0, slot := 0, group := 0, blk := fetchBlk, cls := 1, weight := 0, scope := none, irrev := false,
    replays := 0, started := 0, system := false, pkg := 0, futures := [] }

/-- The word placed in a core's program: at the entry of LD of the task that runs in bank 0 of core 0. -/
def State.placeWord (s : State) (h x : Word32) : State :=
  let ctx : Context := { Context.reset with ended := false, pc := 0x10 }
  let img : Image := { Image.reset with task := some fetchTask, base := some 0, ctx := #v[ctx, Context.reset, Context.reset] }
  let s1 := (s.modBank 0 0 fun b => { b with status := .running, img, overlay := [0, 0, 0, 0, h, x] }).schedule s.now
    rankEnd (.bank 0 0 .endCycle)
  { s1 with agenda := ⟨s1.now, rankLate, .bank 0 0 .issueLate⟩ :: s1.agenda }

/-- The word placed in the instruction memory of column 0's transform sequencer, whose program stands at it. -/
def State.placeTs (s : State) (h : Word32) : State :=
  let p : TsProg :=
    { tid := 0, core := 0, bank := 0, ctx := 0, wpc := 0, trap := false, view := 0, h := Vector.replicate 8 0, c := Vector.replicate 4 0, geom := none,
      pc := 0, bar := 0, entry := 0, loadLen := 0, image := 0, wrBusy := 0, postBusy := 0, begun := true,
      resumed := false, faulted := false, accepted := 0 }
  let s1 := s.modCol 0 fun k => { k with tsMem := [(0, h)], tsRun := some p }
  { s1 with agenda := ⟨s1.now, rankAnswer, .ts 0⟩ :: s1.agenda }

/-- The instruction whose bits are w, placed where the next step fetches it. -/
def State.withFetchWord (s : State) (nbits w : Nat) : State :=
  let v := w % 2 ^ nbits
  let h := BitVec.ofNat 32 v
  let x := BitVec.ofNat 32 (v / 2 ^ 32)
  match decodeWord h x with
  | .ok _ => s.placeWord h x
  | .error _ =>
    match decodeTs h with
    | .ok _ => s.placeTs h
    | .error _ => s.placeWord h x

end Sys2Proof.Machine
end

