-- ==== Sys2Proof/Safety.lean ====
section
/-! DEFINITION. What counts as a safe run: every state of it keeps memory in its canonical form, and no step of it ends
in a fault or a refusal. -/

namespace Sys2Proof.Machine

open Sys2Proof

/-- Memory is in its canonical form, and p0 and g0 read as the spec has them by construction of the readers. -/
def State.safe (s : State) : Prop := Memory.wf s.mem = true

/-- Every state that n steps from s pass through is safe. -/
def SafeRun (s : State) : Nat → Prop
  | 0 => s.safe
  | n + 1 => s.safe ∧ ∃ t, step s = .next t ∧ SafeRun t n

end Sys2Proof.Machine
end

