-- ==== Sys2Proof/Certificates/Slice0/Obligations.lean ====
section
/-! DEFINITION. The statements about the machine, for the provers, with the tables and shapes they are stated in. Each
cites the rules of the spec it rests on. -/

/-! ### Control words -/

namespace Sys2Proof.Claims

open Sys2Proof Sys2Proof.Machine

/-- A context past a word of n entries (R182), not blocked. -/
def past (c : Context) (n : Nat) : Context := { c with pc := c.pc + BitVec.ofNat 15 (4 * n), blocked := false }

/-- The state after a word of n entries of the context in focus that leaves the results l pending and does nothing
else: every other context, bank, core, register, queue and byte of memory is as it was. -/
def issued (s : State) (n : Nat) (l : List PendWrite) : State :=
  s.modCur fun m =>
    { m with ctx := m.ctx.set s.focus.ctx.val (past m.ctx[s.focus.ctx.val] n), pend := m.pend ++ l }

/-- Put of R182: gd receives v in l cycles, bound to the physical register that R90 gives, or in the trap stream to the
shadow copy of g1 to g15; nothing for g0. -/
def gWrite (s : State) (d : Fin 32) (l : Nat) (v : Word) : List PendWrite :=
  if d = 0 then []
  else
    [{ ctx := s.focus.ctx, file := 0
       idx := if d.val < 16 then d.val else 16 + (d.val - 16 + s.cx.rot.toNat) % 16
       val := v, due := s.cur.cyc + l, shadow := s.cx.shadow.isSome && decide (d.val < 16), born := s.now }]

/-- PutP of R182: pd receives b in the next cycle; nothing for p0. -/
def pWrite (s : State) (d : Fin 16) (b : Bool) : List PendWrite :=
  if d = 0 then []
  else
    [{ ctx := s.focus.ctx, file := 1, idx := d.val, val := if b then 1 else 0, due := s.cur.cyc + 1
       shadow := s.cx.shadow.isSome && decide (d.val < 8), born := s.now }]

/-- A register read as signed, or as unsigned when FN[0] is 1. -/
def reading (u : Bool) (v : Word) : Int := if u then (v.toNat : Int) else v.toInt

/-- What a word leaves in a g register: its predicate, the register, the latency and the value. -/
structure GResult where
  p : Pred
  d : Fin 32
  l : Nat
  v : Word
  deriving DecidableEq, Repr

/-- What a word leaves in a predicate: its predicate, its entries, the predicate written and the value. -/
structure PResult where
  p : Pred
  n : Nat
  d : Fin 16
  b : Bool
  deriving DecidableEq, Repr

/-- The table of R183. -/
def integerResult (i : Instr) (s : State) : Option GResult :=
  match i with
  | .add p d a b => some ⟨p, d, 1, s.g a + s.g b⟩
  | .sub p d a b => some ⟨p, d, 1, s.g a - s.g b⟩
  | .mul p d a b => some ⟨p, d, 4, BitVec.ofNat 64 ((s.g a).toNat * (s.g b).toNat)⟩
  | .mulh p d a b u => some ⟨p, d, 4, BitVec.ofInt 64 (reading u (s.g a) * reading u (s.g b) / 2 ^ 64)⟩
  | .and p d a b => some ⟨p, d, 1, s.g a &&& s.g b⟩
  | .or p d a b => some ⟨p, d, 1, s.g a ||| s.g b⟩
  | .xor p d a b => some ⟨p, d, 1, s.g a ^^^ s.g b⟩
  | .andn p d a b => some ⟨p, d, 1, s.g a &&& ~~~(s.g b)⟩
  | .shl p d a b => some ⟨p, d, 1, BitVec.ofNat 64 ((s.g a).toNat * 2 ^ ((s.g b).toNat % 64))⟩
  | .shr p d a b => some ⟨p, d, 1, BitVec.ofNat 64 ((s.g a).toNat / 2 ^ ((s.g b).toNat % 64))⟩
  | .sra p d a b => some ⟨p, d, 1, BitVec.ofInt 64 ((s.g a).toInt / 2 ^ ((s.g b).toNat % 64))⟩
  | .min p d a b u => some ⟨p, d, 1, if reading u (s.g a) ≤ reading u (s.g b) then s.g a else s.g b⟩
  | .max p d a b u => some ⟨p, d, 1, if reading u (s.g a) ≤ reading u (s.g b) then s.g b else s.g a⟩
  | .sel p d a b c => some ⟨p, d, 1, if s.p c = true then s.g a else s.g b⟩
  | _ => none

/-- The quotient of R184. -/
def quotient (u : Bool) (a b : Int) : Int :=
  if b = 0 then -1
  else if u = false ∧ a = -2 ^ 63 ∧ b = -1 then -2 ^ 63
  else a.sign * b.sign * ((a.natAbs / b.natAbs : Nat) : Int)

/-- The remainder of R184. -/
def remainder (u : Bool) (a b : Int) : Int :=
  if b = 0 then a
  else if u = false ∧ a = -2 ^ 63 ∧ b = -1 then 0
  else a - quotient u a b * b

/-- I9 as a double word (R185). -/
def immWord {n : Nat} (i : BitVec n) : Word := BitVec.ofInt 64 i.toInt

/-- The table of R185. -/
def immediateResult (i : Instr) (s : State) : Option GResult :=
  match i with
  | .addi p d a i => some ⟨p, d, 1, s.g a + immWord i⟩
  | .andi p d a i => some ⟨p, d, 1, s.g a &&& immWord i⟩
  | .ori p d a i => some ⟨p, d, 1, s.g a ||| immWord i⟩
  | .xori p d a i => some ⟨p, d, 1, s.g a ^^^ immWord i⟩
  | .shli p d a n => some ⟨p, d, 1, BitVec.ofNat 64 ((s.g a).toNat * 2 ^ n.val)⟩
  | .shri p d a n => some ⟨p, d, 1, BitVec.ofNat 64 ((s.g a).toNat / 2 ^ n.val)⟩
  | .srai p d a n => some ⟨p, d, 1, BitVec.ofInt 64 ((s.g a).toInt / 2 ^ n.val)⟩
  | .muli p d a i => some ⟨p, d, 4, s.g a * immWord i⟩
  | _ => none

/-- Sx of R182: a b-bit pattern read as signed. -/
def signed (v b : Nat) : Int := if 2 ^ (b - 1) ≤ v then (v : Int) - 2 ^ b else v

/-- The tables of R186 and R187, `prd` of R189 and `cvta` of R191, with the entries each word occupies. -/
def constantResult (i : Instr) (s : State) : Option (Nat × GResult) :=
  match i with
  | .sext p d a _ w =>
    some (1, ⟨p, d, 1, BitVec.ofInt 64 (signed ((s.g a).toNat % 2 ^ (8 * 2 ^ w.val)) (8 * 2 ^ w.val))⟩)
  | .zext p d a _ w => some (1, ⟨p, d, 1, BitVec.ofNat 64 ((s.g a).toNat % 2 ^ (8 * 2 ^ w.val))⟩)
  | .clz p d a => some (1, ⟨p, d, 1, if s.g a = 0 then 64 else BitVec.ofNat 64 (63 - (s.g a).toNat.log2)⟩)
  | .popc p d a => some (1, ⟨p, d, 1, BitVec.ofNat 64 ((List.range 64).countP fun n => (s.g a).getLsbD n)⟩)
  | .li p d i => some (1, ⟨p, d, 1, immWord i⟩)
  | .lit p d x => some (2, ⟨p, d, 1, immWord x⟩)
  | .lith p d x => some (2, ⟨p, d, 1, BitVec.ofNat 64 (x.toNat * 2 ^ 32 + (s.g d).toNat % 2 ^ 32)⟩)
  | .prd p d =>
    some (1, ⟨p, d, 1, BitVec.ofNat 64 (((List.finRange 16).map fun n => if s.p n = true then 2 ^ n.val else 0).sum)⟩)
  | .cvta p d a w =>
    some (1, ⟨p, d, 1, match locOf s.focus.core (s.g a) with
      | some l => if l.reach s.focus.core w = true then l.form w else 0
      | none => 0⟩)
  | _ => none

/-- The conditions of R188 on x and y. -/
def condition (c : Nat) (x y : Word) : Bool :=
  match c with
  | 0 => decide (x = y)
  | 1 => decide (x ≠ y)
  | 2 => decide (x.toInt < y.toInt)
  | 3 => decide (x.toInt ≤ y.toInt)
  | 4 => decide (x.toNat < y.toNat)
  | _ => decide (x.toNat ≤ y.toNat)

/-- `cmp` and `cmpx` of R188, the predicate logic of R189 and `isap` of R191. -/
def predicateResult (i : Instr) (s : State) : Option PResult :=
  match i with
  | .cmp p d a b c => some ⟨p, 1, d, condition c.val (s.g a) (s.g b)⟩
  | .cmpx p d a c x => some ⟨p, 2, d, condition c.val (s.g a) (immWord x)⟩
  | .pand p d a b => some ⟨p, 1, d, s.p a && s.p b⟩
  | .por p d a b => some ⟨p, 1, d, s.p a || s.p b⟩
  | .pxor p d a b => some ⟨p, 1, d, s.p a != s.p b⟩
  | .pandn p d a b => some ⟨p, 1, d, s.p a && !(s.p b)⟩
  | .pset p d b => some ⟨p, 1, d, b⟩
  | .isap p d a w =>
    some ⟨p, 1, d, match locOf s.focus.core (s.g a) with
      | some l => l.reach s.focus.core w
      | none => false⟩
  | _ => none

/-- A pending write of LC, EC or ROT, in the next cycle (R88, R194). -/
def counterWrite (s : State) (file : Nat) (v : Word) : List PendWrite :=
  [{ ctx := s.focus.ctx, file, idx := 0, val := v, due := s.cur.cyc + 1, shadow := false, born := s.now }]

/-- Sat of R194. -/
def saturated (x : Int) : Word := BitVec.ofInt 64 (max 0 (min x (2 ^ 32 - 1)))

/-- The predicate a CTRL word is guarded by, and the entries it occupies (R164, R182). -/
def guardOf (i : Instr) : Option (Pred × Nat) :=
  match i with
  | .nop p => some (p, 1)
  | .add p _ _ _ => some (p, 1)
  | .sub p _ _ _ => some (p, 1)
  | .mul p _ _ _ => some (p, 1)
  | .mulh p _ _ _ _ => some (p, 1)
  | .div p _ _ _ _ => some (p, 1)
  | .rem p _ _ _ _ => some (p, 1)
  | .and p _ _ _ => some (p, 1)
  | .or p _ _ _ => some (p, 1)
  | .xor p _ _ _ => some (p, 1)
  | .andn p _ _ _ => some (p, 1)
  | .shl p _ _ _ => some (p, 1)
  | .shr p _ _ _ => some (p, 1)
  | .sra p _ _ _ => some (p, 1)
  | .min p _ _ _ _ => some (p, 1)
  | .max p _ _ _ _ => some (p, 1)
  | .sel p _ _ _ _ => some (p, 1)
  | .addi p _ _ _ => some (p, 1)
  | .andi p _ _ _ => some (p, 1)
  | .ori p _ _ _ => some (p, 1)
  | .xori p _ _ _ => some (p, 1)
  | .shli p _ _ _ => some (p, 1)
  | .shri p _ _ _ => some (p, 1)
  | .srai p _ _ _ => some (p, 1)
  | .muli p _ _ _ => some (p, 1)
  | .cmp p _ _ _ _ => some (p, 1)
  | .cmpx p _ _ _ _ => some (p, 2)
  | .pand p _ _ _ => some (p, 1)
  | .por p _ _ _ => some (p, 1)
  | .pxor p _ _ _ => some (p, 1)
  | .pandn p _ _ _ => some (p, 1)
  | .pset p _ _ => some (p, 1)
  | .prd p _ => some (p, 1)
  | .pwr p _ => some (p, 1)
  | .li p _ _ => some (p, 1)
  | .lit p _ _ => some (p, 2)
  | .lith p _ _ => some (p, 2)
  | .ld p _ _ _ => some (p, 1)
  | .ldx p _ _ _ _ _ => some (p, 1)
  | .st p _ _ _ => some (p, 1)
  | .stx p _ _ _ _ _ => some (p, 1)
  | .cvta p _ _ _ => some (p, 1)
  | .isap p _ _ _ => some (p, 1)
  | .br p _ => some (p, 1)
  | .call p _ => some (p, 1)
  | .jr p _ => some (p, 1)
  | .loopb p _ => some (p, 1)
  | .push p _ _ => some (p, 1)
  | .pop p _ _ => some (p, 1)
  | .peek p _ _ => some (p, 1)
  | .qfence p _ => some (p, 1)
  | .mfsr p _ _ => some (p, 1)
  | .mtsr p _ _ => some (p, 1)
  | .uret p => some (p, 1)
  | .sext p _ _ _ _ => some (p, 1)
  | .zext p _ _ _ _ => some (p, 1)
  | .clz p _ _ => some (p, 1)
  | .popc p _ _ => some (p, 1)
  | .setlc p _ _ => some (p, 1)
  | .setec p _ _ => some (p, 1)
  | .setrot p _ _ => some (p, 1)
  | _ => none

end Sys2Proof.Claims

/-- R82, R182: a CTRL word whose predicate is 0 at issue reads nothing, writes nothing and only advances PC. -/
def Obligations.FalsePredicateOnlyAdvancesPc : Prop :=
  ∀ (i : Sys2Proof.Instr) (p : Sys2Proof.Pred) (n : Nat) (s : Sys2Proof.Machine.State),
    Sys2Proof.Claims.guardOf i = some (p, n) → s.p p = false →
      Sys2Proof.Machine.exec i s = .next (Sys2Proof.Claims.issued s n [])

/-- R183: `add`, `sub`, `mul`, `mulh`, `and`, `or`, `xor`, `andn`, `shl`, `shr`, `sra`, `min`, `max` and `sel` complete for
every operand and leave the result of R183's table pending for gD at the latency it gives, and nothing for g0; nothing
else changes but PC. -/
def Sys2Proof.Claims.IntegerWordsLeaveTheirResult : Prop :=
  ∀ (i : Sys2Proof.Instr) (s : Sys2Proof.Machine.State) (r : Sys2Proof.Claims.GResult),
    Sys2Proof.Claims.integerResult i s = some r → s.p r.p = true →
      Sys2Proof.Machine.exec i s = .next (Sys2Proof.Claims.issued s 1 (Sys2Proof.Claims.gWrite s r.d r.l r.v))

/-- R184: `div` and `rem` complete for every operand pair, and leave the quotient and the remainder of R184 pending for gD
with latency 20; no flag changes. -/
def Obligations.DivisionTruncatesTowardZero : Prop :=
  ∀ (p : Sys2Proof.Pred) (d a b : Fin 32) (u : Bool) (s : Sys2Proof.Machine.State), s.p p = true →
    Sys2Proof.Machine.exec (.div p d a b u) s = .next (Sys2Proof.Claims.issued s 1 (Sys2Proof.Claims.gWrite s d 20
      (BitVec.ofInt 64
        (Sys2Proof.Claims.quotient u (Sys2Proof.Claims.reading u (s.g a)) (Sys2Proof.Claims.reading u (s.g b)))))) ∧
    Sys2Proof.Machine.exec (.rem p d a b u) s = .next (Sys2Proof.Claims.issued s 1 (Sys2Proof.Claims.gWrite s d 20
      (BitVec.ofInt 64
        (Sys2Proof.Claims.remainder u (Sys2Proof.Claims.reading u (s.g a)) (Sys2Proof.Claims.reading u (s.g b))))))

/-- R185: the words with an immediate complete and leave the result of R185's table pending for gD. -/
def Sys2Proof.Claims.ImmediateWordsLeaveTheirResult : Prop :=
  ∀ (i : Sys2Proof.Instr) (s : Sys2Proof.Machine.State) (r : Sys2Proof.Claims.GResult),
    Sys2Proof.Claims.immediateResult i s = some r → s.p r.p = true →
      Sys2Proof.Machine.exec i s = .next (Sys2Proof.Claims.issued s 1 (Sys2Proof.Claims.gWrite s r.d r.l r.v))

/-- R186, R187, R189, R191: `sext`, `zext`, `clz`, `popc`, `li`, `lit`, `lith`, `prd` and `cvta` complete and leave their
result pending for gD, PC passing two entries for `lit` and `lith`. -/
def Sys2Proof.Claims.ExtensionsAndConstantsLeaveTheirResult : Prop :=
  ∀ (i : Sys2Proof.Instr) (s : Sys2Proof.Machine.State) (n : Nat) (r : Sys2Proof.Claims.GResult),
    Sys2Proof.Claims.constantResult i s = some (n, r) → s.p r.p = true →
      Sys2Proof.Machine.exec i s = .next (Sys2Proof.Claims.issued s n (Sys2Proof.Claims.gWrite s r.d r.l r.v))

/-- R188, R189, R191: well-formed `cmp`, `cmpx`, `pand`, `por`, `pxor`, `pandn`, `pset` and `isap` complete and leave their
result pending for pD, and nothing for p0. -/
def Sys2Proof.Claims.ComparisonsWriteTheirPredicate : Prop :=
  ∀ (i : Sys2Proof.Instr) (s : Sys2Proof.Machine.State) (r : Sys2Proof.Claims.PResult),
    i.wellFormed = true → Sys2Proof.Claims.predicateResult i s = some r → s.p r.p = true →
      Sys2Proof.Machine.exec i s = .next (Sys2Proof.Claims.issued s r.n (Sys2Proof.Claims.pWrite s r.d r.b))

/-- R189: `pwr` leaves bits 1 to 15 of gS pending for p1 to p15, in the next cycle. -/
def Sys2Proof.Claims.PwrWritesFifteenPredicates : Prop :=
  ∀ (p : Sys2Proof.Pred) (r : Fin 32) (s : Sys2Proof.Machine.State), s.p p = true →
    Sys2Proof.Machine.exec (.pwr p r) s = .next (Sys2Proof.Claims.issued s 1
      ((List.finRange 16).flatMap fun n => Sys2Proof.Claims.pWrite s n ((s.g r).getLsbD n.val)))

/-- R194, R202: `nop` changes nothing but PC; `setlc` and `setec` leave the saturated sum pending for LC and EC, and
`setrot` the sum for ROT. -/
def Sys2Proof.Claims.CounterSetupWordsComplete : Prop :=
  ∀ (p : Sys2Proof.Pred) (r : Fin 32) (i : BitVec 14) (s : Sys2Proof.Machine.State), s.p p = true →
    Sys2Proof.Machine.exec (.nop p) s = .next (Sys2Proof.Claims.issued s 1 []) ∧
    Sys2Proof.Machine.exec (.setlc p r i) s = .next (Sys2Proof.Claims.issued s 1
      (Sys2Proof.Claims.counterWrite s 2 (Sys2Proof.Claims.saturated ((s.g r).toInt + i.toInt)))) ∧
    Sys2Proof.Machine.exec (.setec p r i) s = .next (Sys2Proof.Claims.issued s 1
      (Sys2Proof.Claims.counterWrite s 3 (Sys2Proof.Claims.saturated ((s.g r).toInt + i.toInt)))) ∧
    Sys2Proof.Machine.exec (.setrot p r i) s = .next (Sys2Proof.Claims.issued s 1
      (Sys2Proof.Claims.counterWrite s 4 (BitVec.ofInt 64 ((s.g r).toInt + i.toInt))))

namespace Sys2Proof.Claims

open Sys2Proof Sys2Proof.Machine

/-- The state after a word that passes control to byte address t and leaves the results l pending. -/
def jumped (s : State) (t : Nat) (l : List PendWrite) : State :=
  s.modCur fun m =>
    { m with
      ctx := m.ctx.set s.focus.ctx.val { m.ctx[s.focus.ctx.val] with pc := BitVec.ofNat 15 t, blocked := false }
      pend := m.pend ++ l }

/-- The state in which the context in focus stays blocked on its word. -/
def blocked (s : State) : State :=
  s.modCur fun m =>
    { m with ctx := m.ctx.set s.focus.ctx.val { m.ctx[s.focus.ctx.val] with blocked := true } }

/-- The target of a D-form branch (R167). -/
def branchTo (s : State) (o : BitVec 19) : Int := (s.cx.pc.toNat : Int) + 4 * o.toInt

/-- A target that R192 and R329 accept. -/
abbrev goodTarget (s : State) (t : Int) : Prop := 0 ≤ t ∧ t % 4 = 0 ∧ t < (s.imgLen : Int) - 4

/-- A rotation and a stage shift of b into p8 (R90), each in the next cycle. -/
def rotated (s : State) (b : Bool) : List PendWrite :=
  counterWrite s 4 (BitVec.ofNat 64 ((s.cx.rot.toNat + 15) % 16)) ++
    (List.range 8).map fun k =>
      { ctx := s.focus.ctx, file := 1, idx := 8 + k
        val := if (if k = 0 then b else s.p (Fin.ofNat 16 (7 + k))) = true then 1 else 0
        due := s.cur.cyc + 1, shadow := false, born := s.now }

/-- The queue register q of the context in focus holds l, all else as it was. -/
def withQueue (s : State) (q : Fin 16) (l : List Word) : State := s.modCur fun m => m.setQueue s.focus.ctx q l

/-- The entries of a queue register as the context in focus sees it. -/
def queueAt (s : State) (q : Fin 16) : List Word := s.cur.queue s.focus.ctx q

/-- Depths of R86. -/
def depth (q : Fin 16) : Nat := if q.val ≤ 11 then 8 else if q.val = 14 then 16 else 32

/-- L of the ALU classes of R88 for an access to a layer. -/
def latencyOf (layer : Nat) : Nat :=
  match layer with
  | 0 => 6
  | 1 => 26
  | 2 => 38
  | 3 => 52
  | _ => 118

/-- The cycles that R56 and R341 add to an access of the core in focus. -/
def wayOf (s : State) (l : Loc) : Nat :=
  (if l.die ≠ (coreDie s.focus.core).val then 24 else if l.colIx ≠ coreCol s.focus.core then 4 else 0) + s.retime l

/-- The place that a scalar access of n bytes names, when R190 and R329 accept it. -/
def accepted (s : State) (a : Word) (n : Nat) (l : Loc) : Prop :=
  a.toNat % n = 0 ∧ isGeneric a = true ∧ locOf s.focus.core a = some l ∧ s.reservedBank l = false ∧
    s.capFault l n s.cur.startedAt = none

/-- The word in focus as the maker of an access. -/
def madeBy (s : State) (a : Word) : AccessOf :=
  { tid := s.cur.tid, core := s.focus.core, ctx := s.focus.ctx, pc := s.cx.pc, addr := a, trap := s.cx.shadow.isSome
    born := s.now }

/-- What the issue of an access leaves: PC past its word, one more access under way, the access due at its unit n cycles
later, and nothing else of the context, of its pending results, of memory and of the columns, dies and package changed. -/
def sentOut (s t : State) (n rank : Nat) (x : Access) : Prop :=
  t.cx = { past s.cx 1 with accesses := s.cx.accesses + 1 } ∧
  t.agenda = agendaAdd ⟨s.now + n, rank + s.focus.core.val, .ev (.accessPoint x)⟩ s.agenda ∧
  t.cur.pend = s.cur.pend ∧ t.cur.q = s.cur.q ∧ t.cur.eq = s.cur.eq ∧ t.mem = s.mem ∧ t.cols = s.cols ∧
  t.dies = s.dies ∧ t.pkg = s.pkg ∧ t.poison = s.poison ∧ t.latent = s.latent ∧ t.now = s.now

/-- The address and the width of a scalar access, and the register it loads or stores (R190). -/
structure Scalar where
  p : Pred
  a : Word
  n : Nat
  reg : Fin 32
  sext : Bool
  deriving DecidableEq, Repr

def loadOf (i : Instr) (s : State) : Option Scalar :=
  match i with
  | .ld p d a i => some ⟨p, s.g a + immWord i * 8, 8, d, false⟩
  | .ldx p d a b e w => some ⟨p, s.g a + s.g b, 2 ^ w.val, d, e⟩
  | _ => none

def storeOf (i : Instr) (s : State) : Option Scalar :=
  match i with
  | .st p r a i => some ⟨p, s.g a + immWord i * 8, 8, r, false⟩
  | .stx p r a b _ w => some ⟨p, s.g a + s.g b, 2 ^ w.val, r, false⟩
  | _ => none

/-- The code that a CTRL word whose predicate is 1 raises at issue, for its form alone or for the state it issues in
(R195, R201, R329, R330). -/
def issueFault (i : Instr) (s : State) : Option (BitVec 16) :=
  match i with
  | .trailerWord _ => some 0x0104
  | .br p o => if s.p p = true ∧ ¬ goodTarget s (branchTo s o) then some 0x0308 else none
  | .call p o => if s.p p = true ∧ ¬ goodTarget s (branchTo s o) then some 0x0308 else none
  | .jr p a => if s.p p = true ∧ ¬ (goodTarget s (s.g a).toNat ∧ (s.g a).toNat < 2 ^ 15) then some 0x0308 else none
  | .push p q _ => if s.p p = true ∧ q = 15 then some 0x0403 else none
  | .uret p => if s.p p = true ∧ s.cx.shadow = none then some 0x0202 else none
  | .mtsr p r n =>
    if s.p p = true ∧ sysOnly n.val = true ∧ s.cur.system = false then some 0x0201
    else if s.p p = true ∧ sysForbidden n.val (s.g r) = true then some 0x0103
    else none
  | .ld p _ a i => if s.p p = true ∧ (s.g a + immWord i * 8).toNat % 8 ≠ 0 then some 0x0301 else none
  | .st p _ a i => if s.p p = true ∧ (s.g a + immWord i * 8).toNat % 8 ≠ 0 then some 0x0301 else none
  | .ldx p _ a b _ w => if s.p p = true ∧ (s.g a + s.g b).toNat % 2 ^ w.val ≠ 0 then some 0x0301 else none
  | .stx p _ a b _ w => if s.p p = true ∧ (s.g a + s.g b).toNat % 2 ^ w.val ≠ 0 then some 0x0301 else none
  | _ => none

/-- The code a TRAPCODE gives for a fault of queue q (R319). -/
def trapCodeOf (f : QFault) : Word := BitVec.ofNat 64 (f.code.toNat + f.q.val * 2 ^ 24)

/-- A context that has entered its trap stream (R319, R320). -/
def trapped (c : Context) (cyc entry : Nat) (code addr : Word) (mpc : Nat) (pc : BitVec 15) : Context :=
  { c with
    blocked := false, shadow := some { g := c.g.extract 0 16, p := c.p }, trapCode := code, trapPc := pc.setWidth 64
    trapMpc := BitVec.ofNat 64 (mpc % 2 ^ 32), trapAddr := addr, trapOpen := cyc, pc := BitVec.ofNat 15 entry }

end Sys2Proof.Claims

/-- R167, R192: a branch, a call or a register jump whose target is a multiple of 4 below IMGLEN − 4 takes it; `call` leaves
its own address + 4 pending for g15. -/
def Obligations.BranchesTakeTheirTarget : Prop :=
  ∀ (p : Sys2Proof.Pred) (o : BitVec 19) (a : Fin 32) (s : Sys2Proof.Machine.State), s.p p = true →
    (Sys2Proof.Claims.goodTarget s (Sys2Proof.Claims.branchTo s o) →
      Sys2Proof.Machine.exec (.br p o) s =
        .next (Sys2Proof.Claims.jumped s (Sys2Proof.Claims.branchTo s o).toNat []) ∧
      Sys2Proof.Machine.exec (.call p o) s =
        .next (Sys2Proof.Claims.jumped s (Sys2Proof.Claims.branchTo s o).toNat
          (Sys2Proof.Claims.gWrite s 15 1 (BitVec.ofNat 64 (s.cx.pc.toNat + 4))))) ∧
    (Sys2Proof.Claims.goodTarget s (s.g a).toNat → (s.g a).toNat < 2 ^ 15 →
      Sys2Proof.Machine.exec (.jr p a) s = .next (Sys2Proof.Claims.jumped s (s.g a).toNat []))

/-- R90, R193: `loopb` with LC or EC above 0 counts it down, rotates, shifts 1 or 0 into p8 and branches; with both 0 it
passes on. -/
def Obligations.LoopbRotatesAndCounts : Prop :=
  ∀ (p : Sys2Proof.Pred) (o : BitVec 19) (s : Sys2Proof.Machine.State), s.p p = true →
    let target := Sys2Proof.Claims.branchTo s o
    (Sys2Proof.Claims.goodTarget s target → s.cx.lc ≠ 0 →
      Sys2Proof.Machine.exec (.loopb p o) s = .next (Sys2Proof.Claims.jumped s target.toNat
        (Sys2Proof.Claims.counterWrite s 2 (BitVec.ofNat 64 (s.cx.lc.toNat - 1)) ++ Sys2Proof.Claims.rotated s true))) ∧
    (Sys2Proof.Claims.goodTarget s target → s.cx.lc = 0 → s.cx.ec ≠ 0 →
      Sys2Proof.Machine.exec (.loopb p o) s = .next (Sys2Proof.Claims.jumped s target.toNat
        (Sys2Proof.Claims.counterWrite s 3 (BitVec.ofNat 64 (s.cx.ec.toNat - 1)) ++ Sys2Proof.Claims.rotated s false))) ∧
    (s.cx.lc = 0 → s.cx.ec = 0 → Sys2Proof.Machine.exec (.loopb p o) s = .next (Sys2Proof.Claims.issued s 1 []))

/-- R83, R86, R195: `push` appends to a queue register that has room and blocks on a full one; `pop` removes the head and
delivers it with latency 2, `peek` delivers it and removes nothing, and both block on an empty queue register. -/
def Sys2Proof.Claims.QueueWordsMoveEntries : Prop :=
  ∀ (p : Sys2Proof.Pred) (q : Fin 16) (r : Fin 32) (s : Sys2Proof.Machine.State), s.p p = true →
    (q ≠ 15 → (Sys2Proof.Claims.queueAt s q).length < Sys2Proof.Claims.depth q →
      Sys2Proof.Machine.exec (.push p q r) s = .next (Sys2Proof.Claims.issued
        (Sys2Proof.Claims.withQueue s q (Sys2Proof.Claims.queueAt s q ++ [s.g r])) 1 [])) ∧
    (q ≠ 15 → Sys2Proof.Claims.depth q ≤ (Sys2Proof.Claims.queueAt s q).length →
      Sys2Proof.Machine.exec (.push p q r) s = .next (Sys2Proof.Claims.blocked s)) ∧
    (∀ (v : Sys2Proof.Word) (l : List Sys2Proof.Word), Sys2Proof.Claims.queueAt s q = v :: l →
      Sys2Proof.Machine.exec (.pop p q r) s = .next (Sys2Proof.Claims.issued (Sys2Proof.Claims.withQueue s q l) 1
        (Sys2Proof.Claims.gWrite s r 2 v)) ∧
      Sys2Proof.Machine.exec (.peek p q r) s = .next (Sys2Proof.Claims.issued
        (Sys2Proof.Claims.withQueue s q (v :: l)) 1 (Sys2Proof.Claims.gWrite s r 2 v))) ∧
    (Sys2Proof.Claims.queueAt s q = [] →
      Sys2Proof.Machine.exec (.pop p q r) s = .next (Sys2Proof.Claims.blocked s) ∧
      Sys2Proof.Machine.exec (.peek p q r) s = .next (Sys2Proof.Claims.blocked s))

/-- R150, R196: `qfence` passes on when no queue that its mask names holds work of the context, and blocks otherwise. -/
def Sys2Proof.Claims.QfenceWaitsForItsMask : Prop :=
  ∀ (p : Sys2Proof.Pred) (m : BitVec 12) (s : Sys2Proof.Machine.State), s.p p = true →
    ((∀ q : Fin 13, q.val < 12 → m.getLsbD q.val = true →
        s.pendingIn s.focus.core s.focus.bank s.focus.ctx q = false) →
      Sys2Proof.Machine.exec (.qfence p m) s = .next (Sys2Proof.Claims.issued s 1 [])) ∧
    ((∃ q : Fin 13, q.val < 12 ∧ m.getLsbD q.val = true ∧
        s.pendingIn s.focus.core s.focus.bank s.focus.ctx q = true) →
      Sys2Proof.Machine.exec (.qfence p m) s = .next (Sys2Proof.Claims.blocked s))

/-- R56, R146, R190: a load that R190 accepts sets out to the place its address names, to be read D = L − 3 cycles later and
to land at L; nothing is read or written at issue. -/
def Sys2Proof.Claims.LoadsSetOutForTheirPlace : Prop :=
  ∀ (i : Sys2Proof.Instr) (s : Sys2Proof.Machine.State) (x : Sys2Proof.Claims.Scalar) (l : Sys2Proof.Machine.Loc),
    Sys2Proof.Claims.loadOf i s = some x → s.p x.p = true → Sys2Proof.Claims.accepted s x.a x.n l →
      ∃ t, Sys2Proof.Machine.exec i s = .next t ∧
        Sys2Proof.Claims.sentOut s t (Sys2Proof.Claims.latencyOf l.layer - 3 + Sys2Proof.Claims.wayOf s l)
          Sys2Proof.Machine.rankRead
          (.load (Sys2Proof.Claims.madeBy s x.a) l.key x.n x.sext
            (s.cur.taskCycle + Sys2Proof.Claims.latencyOf l.layer + Sys2Proof.Claims.wayOf s l)
            (if x.reg.val < 16 then x.reg.val else 16 + (x.reg.val - 16 + s.cx.rot.toNat) % 16)
            (s.cx.shadow.isSome && decide (x.reg.val < 16)))

/-- R56, R146, R190: a store that R190 accepts sets out with the value of gS as read at issue, to be performed at its access
point; no byte of memory changes at issue. -/
def Sys2Proof.Claims.StoresSetOutForTheirPlace : Prop :=
  ∀ (i : Sys2Proof.Instr) (s : Sys2Proof.Machine.State) (x : Sys2Proof.Claims.Scalar) (l : Sys2Proof.Machine.Loc),
    Sys2Proof.Claims.storeOf i s = some x → s.p x.p = true → Sys2Proof.Claims.accepted s x.a x.n l →
      ∃ t, Sys2Proof.Machine.exec i s = .next t ∧
        Sys2Proof.Claims.sentOut s t (Sys2Proof.Claims.latencyOf l.layer - 3 + Sys2Proof.Claims.wayOf s l)
          Sys2Proof.Machine.rankMemory (.store (Sys2Proof.Claims.madeBy s x.a) l.key x.n (s.g x.reg))

/-- R146, R190: at its access point a store whose row is open writes the low bytes of its value at its place, and every
byte outside them reads as before; a load that meets no error leaves its bytes pending for its register, sign- or
zero-extended, in its task's image, at its place in the order of issue (R88), and no byte of memory changes; both when
no earlier access of the core to the unit is at its access point (R147). The model's choices in it: log entry 26. -/
def Obligations.AccessPointReadsAndWrites : Prop :=
  ∀ (o : Sys2Proof.Machine.AccessOf) (k n : Nat) (v : Sys2Proof.Word) (x h : Bool) (land dst : Nat)
    (s : Sys2Proof.Machine.State),
    Sys2Proof.Machine.Memory.wf s.mem = true → s.busyUntil k ≤ s.now → s.latent = [] →
    (s.focus.event = some (.accessPoint (.store o k n v)) → s.accessBehind (.store o k n v) = false →
      (s.accessDone o).accessBad (.store o k n v) = none →
      ∃ t, Sys2Proof.Machine.exec .accessPoint s = .next t ∧ t.read k n = v.toNat % 2 ^ (8 * n) ∧
        ∀ a, a < k ∨ k + n ≤ a → Sys2Proof.Machine.memGet t.mem a = Sys2Proof.Machine.memGet s.mem a) ∧
    (s.focus.event = some (.accessPoint (.load o k n x land dst h)) → s.accessBehind (.load o k n x land dst h) = false →
      (s.accessDone o).accessBad (.load o k n x land dst h) = none → n ≤ 8 → 0 < n →
      ∃ t, Sys2Proof.Machine.exec .accessPoint s = .next t ∧ t.mem = s.mem ∧
        ∀ (c : Sys2Proof.Machine.CoreIx) (b : Sys2Proof.Machine.BankIx), dst ≠ 0 → s.bankOf o.tid = some (c, b) →
          let w : Sys2Proof.Machine.PendWrite :=
            { ctx := o.ctx, file := 0, idx := dst
              val := if x then BitVec.ofInt 64 (Sys2Proof.Claims.signed (s.read k n) (8 * n))
                else BitVec.ofNat 64 (s.read k n)
              due := (s.img c b).base.getD (s.img c b).cyc + land, shadow := h, born := o.born }
          ∃ older later, (s.img c b).pend = older ++ later ∧ (t.img c b).pend = older ++ w :: later ∧
            (∀ y ∈ older, y.born ≤ o.born) ∧ (∀ y, later.head? = some y → o.born < y.born))

/-- R88: every pending register write that is due lands, of two to one register the later-issued one; no other register
changes and what is not due stays pending. -/
def Sys2Proof.Claims.DueResultsLand : Prop :=
  ∀ (m : Sys2Proof.Machine.Image) (c : Fin 3) (i : Fin 32),
    (m.landDue.ctx[c.val]).g[i.val] =
      (match (m.pend.filter fun w => decide (w.due ≤ m.cyc) && decide (w.ctx = c) && decide (w.file = 0) &&
          !w.shadow && decide (w.idx % 32 = i.val)).getLast? with
        | some w => w.val
        | none => (m.ctx[c.val]).g[i.val]) ∧
    m.landDue.pend = m.pend.filter (fun w => decide (m.cyc < w.due)) ∧
    m.landDue.q = m.q ∧ m.landDue.eq = m.eq

/-- R88: RESULT_LANDING lands the results that are due in a bank whose loop table is not being loaded, and changes no byte of
memory, no other bank and no other core. -/
def Sys2Proof.Claims.ResultLandingCompletes : Prop :=
  ∀ (c : Sys2Proof.Machine.CoreIx) (b : Sys2Proof.Machine.BankIx) (s : Sys2Proof.Machine.State),
    s.focus.event = some (.resultLanding c b) → (s.img c b).lp.loadAt = none →
      Sys2Proof.Machine.exec .resultLanding s = .next (s.modImg c b Sys2Proof.Machine.Image.landDue)

/-- R198, R199, R200: `mfsr` of a context-scoped register leaves its value pending with latency 1, and `mtsr` of LC, EC and
ROT leaves the value pending for it. -/
def Sys2Proof.Claims.ContextRegistersReadAndWrite : Prop :=
  ∀ (p : Sys2Proof.Pred) (r : Fin 32) (n : Fin 16384) (s : Sys2Proof.Machine.State), s.p p = true →
    (n.val < 0x010 → Sys2Proof.Machine.exec (.mfsr p r n) s =
      .next (Sys2Proof.Claims.issued s 1 (Sys2Proof.Claims.gWrite s r 1 (s.ctxRead n.val)))) ∧
    (1 ≤ n.val → n.val ≤ 3 → Sys2Proof.Machine.exec (.mtsr p r n) s =
      .next (Sys2Proof.Claims.issued s 1 (Sys2Proof.Claims.counterWrite s (n.val + 1) (s.g r))))

/-- R198: `mfsr` and `mtsr` of a register of a wider scope set out to it, to read or write it A cycles after issue: 2, 4, 14
or 20 for a core, a column, a die or the package; `mtsr` when its task may write the register and the register takes the
value. -/
def Sys2Proof.Claims.SystemRegisterAccessesSetOut : Prop :=
  ∀ (p : Sys2Proof.Pred) (r : Fin 32) (n : Fin 16384) (s : Sys2Proof.Machine.State), s.p p = true → 0x010 ≤ n.val →
    let far := if n.val < 0x020 then 2 else if n.val < 0x040 then 4 else if n.val < 0x200 then 14 else 20
    (∃ t, Sys2Proof.Machine.exec (.mfsr p r n) s = .next t ∧
      Sys2Proof.Claims.sentOut s t far Sys2Proof.Machine.rankRead (.mfsr (Sys2Proof.Claims.madeBy s 0) n.val
        (s.cur.taskCycle + 2 * far) (if r.val < 16 then r.val else 16 + (r.val - 16 + s.cx.rot.toNat) % 16)
        (s.cx.shadow.isSome && decide (r.val < 16)))) ∧
    ((Sys2Proof.Machine.sysOnly n.val = true → s.cur.system = true) →
      Sys2Proof.Machine.sysForbidden n.val (s.g r) = false →
      ∃ t, Sys2Proof.Machine.exec (.mtsr p r n) s = .next t ∧
        Sys2Proof.Claims.sentOut s t far Sys2Proof.Machine.rankMemory
          (.mtsr (Sys2Proof.Claims.madeBy s 0) n.val (s.g r)))

/-- R316, R317, R329, R330: a CTRL word that faults at issue has no effect: PC stays on it, its fault stands against its
context with its code, queue 0, and the address of the word, and no register, queue, pending result or byte of memory
changes. A write of a register that only the system writes is such a fault, 0x0201, and `uret` outside a trap stream is
0x0202. The model's choices in it: log entry 13. -/
def Obligations.ControlFaultsHaveNoEffect : Prop :=
  ∀ (i : Sys2Proof.Instr) (s : Sys2Proof.Machine.State) (code : BitVec 16),
    Sys2Proof.Claims.issueFault i s = some code →
      ∃ t f, Sys2Proof.Machine.exec i s = .next t ∧ t.cx = { s.cx with blocked := t.cx.blocked, faults := s.cx.faults ++ [f] } ∧
        f.code = code ∧ f.q = 0 ∧ f.mpc = 0 ∧ f.pc = s.cx.pc ∧ f.raised = s.cur.cyc ∧ f.taken = false ∧
        t.cur.pend = s.cur.pend ∧ t.cur.q = s.cur.q ∧ t.cur.eq = s.cur.eq ∧ t.mem = s.mem ∧ t.cols = s.cols

/-- R319, R320: FAULT_TAKEN puts a context that is not in its trap stream and whose next fault is f at the trap entry, its
g0 to g15 and its predicates copied, its block cleared, and TRAPCODE, TRAPPC, TRAPMPC and TRAPADDR set from the fault. -/
def Sys2Proof.Claims.TakingAFaultEntersTheTrapStream : Prop :=
  ∀ (c : Sys2Proof.Machine.CoreIx) (b : Sys2Proof.Machine.BankIx) (x : Sys2Proof.Ctx) (s : Sys2Proof.Machine.State)
    (f : Sys2Proof.Machine.QFault),
    s.focus.event = some (.faultTaken c b x) →
    let y := (s.img c b).ctx[(Sys2Proof.Machine.ctxIx x).val]
    y.shadow = none → y.nextFault (s.img c b).cyc = some f →
      ∃ t, Sys2Proof.Machine.exec .faultTaken s = .next t ∧ t.mem = s.mem ∧
        (t.img c b).ctx[(Sys2Proof.Machine.ctxIx x).val] =
          { Sys2Proof.Claims.trapped y (s.img c b).cyc (s.bank c b).trapEntry (Sys2Proof.Claims.trapCodeOf f) f.addr f.mpc
              (if f.q = 0 then f.pc else y.pc) with
            faults := y.faults.map fun z => if z = f then { z with taken := true } else z }

/-- R284, R319, R320: EVENT_TAKE puts a context that holds an event and no fault at the trap entry in the same way, with the
event's code and address, and the event is held no longer. -/
def Sys2Proof.Claims.TakingAnEventEntersTheTrapStream : Prop :=
  ∀ (c : Sys2Proof.Machine.CoreIx) (b : Sys2Proof.Machine.BankIx) (x : Sys2Proof.Ctx) (s : Sys2Proof.Machine.State)
    (e : Sys2Proof.Machine.Held) (l : List Sys2Proof.Machine.Held),
    s.focus.event = some (.eventTake c b x) →
    let y := (s.img c b).ctx[(Sys2Proof.Machine.ctxIx x).val]
    y.shadow = none → y.nextFault (s.img c b).cyc = none → y.events = e :: l →
      ∃ t n, Sys2Proof.Machine.exec .eventTake s = .next t ∧ t.mem = s.mem ∧
        (t.img c b).ctx[(Sys2Proof.Machine.ctxIx x).val] =
          { Sys2Proof.Claims.trapped y (s.img c b).cyc (s.bank c b).trapEntry e.code e.addr 0 y.pc with
            events := l, notes := n }

/-- R201, R321: `uret` in a trap stream that an event opened returns the context to its own registers, PC from TRAPPC, and
the trap stream's pending writes of shadow registers are discarded; after a fault with ACTION retry the fault is ended as
well. -/
def Obligations.UretReturnsToTheOwnRegisters : Prop :=
  ∀ (p : Sys2Proof.Pred) (s : Sys2Proof.Machine.State) (h : Sys2Proof.Machine.Shadow), s.p p = true →
    s.cx.shadow = some h →
    (s.cx.faults.find? (fun f => f.taken) = none →
      ∃ t, Sys2Proof.Machine.exec (.uret p) s = .next t ∧
        t.cx = { s.cx with shadow := none, pc := s.cx.trapPc.setWidth 15, blocked := false } ∧
        t.cur.pend = (s.cur.pend.filter fun w => !(decide (w.ctx = s.focus.ctx) && w.shadow)) ∧ t.mem = s.mem) ∧
    (∀ f, s.cx.faults.find? (fun f => f.taken) = some f → s.cx.trapCode.toNat / 2 ^ 16 % 4 = 0 → s.cur.progs = [] →
      ∃ t, Sys2Proof.Machine.exec (.uret p) s = .next t ∧
        t.cx = { s.cx with
          shadow := none, pc := s.cx.trapPc.setWidth 15, blocked := false
          faults := s.cx.faults.filter fun y => y != f } ∧
        t.mem = s.mem)

/-! ### Engine words -/

namespace Sys2Proof.Claims

open Sys2Proof Sys2Proof.Machine

/-- The predicate of an engine word, the queue that R84 steers it to, and the entries it occupies there. -/
def engineEntry (i : Instr) : Option (Pred × Fin 13 × Nat) :=
  match i with
  | .vSeta p .. | .vAdd p .. | .vSub p .. | .vMul p .. | .vDiv p .. | .vFma p .. | .vFms p .. | .vFnma p ..
  | .vMin p .. | .vMax p .. | .vAbs p .. | .vNeg p .. | .vSqrt p .. | .vExp2 p .. | .vLog2 p .. | .vRecip p ..
  | .vRsqrt p .. | .vTanh p .. | .vAnd p .. | .vOr p .. | .vXor p .. | .vShl p .. | .vShr p .. | .vSra p ..
  | .vMulh p .. | .vCmpeq p .. | .vCmpne p .. | .vCmplt p .. | .vCmple p .. | .vSel p .. | .vCvt p ..
  | .vRsum p .. | .vRmax p .. | .vRmin p .. | .vCopy p .. | .vFill p .. | .vIota p .. | .vClamp p .. | .vAddq p ..
  | .vMulq p .. | .vFmaq p .. | .vGather p .. | .vScatter p .. | .vCnt p .. => some (p, 1, 1)
  | .mSett p .. | .mMma p .. | .mMmat p .. | .mClr p .. | .mCvt p .. | .mBias p .. | .mTr p .. | .mScl p ..
  | .mCopy p .. | .mDrop p | .mAdd p .. | .mRelu p .. => some (p, 2, 1)
  | .rowSeta p .. | .rowMax p .. | .rowExpsum p .. | .rowScale p .. | .rowSoft p .. | .rowSum p .. | .rowNorm p ..
  | .rowRms p .. => some (p, 3, 1)
  | .saSeta p .. | .saAdd p .. | .saMin p .. | .saMax p .. | .saAnd p .. | .saOr p .. | .saXor p .. | .saSwap p ..
  | .saCas p .. | .saCnt p .. | .saScope p .. | .saFlush p => some (p, 4, 1)
  | .xLdshape p .. | .xEvict p .. | .xLd1 p .. | .xSt1 p .. | .xCp1 p .. => some (p, 5, 1)
  | .xLd2 p .. | .xSt2 p .. | .xCp2 p .. => some (p, 6, 1)
  | .xLd3 p .. | .xSt3 p .. | .xCp3 p .. => some (p, 7, 1)
  | .xLd4 p .. | .xSt4 p .. | .xCp4 p .. | .xDact p .. | .xDpre p .. | .xDref p .. => some (p, 8, 1)
  | .xFld p .. | .xFst p .. => some (p, 9, 1)
  | .xTrun p .. | .xTok p .. | .xLpow p .. => some (p, 10, 1)
  | .lpLdtab p .. | .lpDone p | .lpSchedw p .. | .lpSchedr p .. | .lpCov p .. | .lpCovrd p .. | .lpGen p ..
  | .lpStat p .. | .lpAddp p .. | .lpPend p .. | .lpPos p .. | .lpDrain p | .lpPermits p .. | .lpRec p .. =>
    some (p, 11, 1)
  | .sArm p .. | .sArmc p .. | .sDisarm p .. | .sSig p .. | .sWait p .. | .sWaitn p .. | .sBstat p .. | .sFnew p ..
  | .sFjoin p .. | .sFres p .. | .sFpeek p .. | .sLaunch p .. | .sExit p .. | .sHalt p | .sPhase p .. | .sQopen p ..
  | .sQsplit p .. | .sQret p .. | .sWaitq p .. | .sQstat p .. | .sQclose p .. | .sNprend p | .sUev p .. | .sTime p ..
  | .sYield p => some (p, 12, 1)
  | .sNpr p _ => some (p, 12, 2)
  | _ => none

/-- Entries in use of a queue of 16 (R84): the started word has freed its own (R83). -/
def inUse (e : EngQueue) : Nat := ((if e.cur.isSome = true then e.words.drop 1 else e.words).map fun w => w.len).sum

/-- What the words that act at their issue do there (R97, R154, R283). -/
def actsAtIssue (i : Instr) (c : Fin 3) (m : Image) : Image :=
  let ended : Image := { m with ctx := m.ctx.set c.val { m.ctx[c.val] with ended := true } }
  match i with
  | .sExit _ _ _ => { ended with exited := true }
  | .sHalt _ => ended
  | .sPhase _ _ n => { m with phase := some { named := n, name := 0, arrived := false, open? := none } }
  | .sNpr _ x => { m with npr := some { opened := m.cyc, limit := x.toNat, ctx := c } }
  | .sNprend _ => { m with npr := none }
  | _ => m

/-- The state after the issue of an engine word of n entries to queue q: the word stands last in its context's queue,
with its context's task and PC, the unit of weight that it holds, and whether it waits for one; PC has passed it. -/
def queued (s : State) (q : Fin 13) (n : Nat) (i : Instr) (item : Option ScopeRef := none) (owed : Bool := false) : State :=
  s.modCur fun m => actsAtIssue i s.focus.ctx
    { m with
      eq := m.eq.set (eqIx q s.focus.ctx).val
        { m.eqAt q s.focus.ctx with
          words := (m.eqAt q s.focus.ctx).words ++
            [{ tid := m.tid, instr := i, pc := s.cx.pc, len := n, trap := s.cx.shadow.isSome, born := s.now
               view := m.startedAt, kept := none, item, owed }] }
      ctx := m.ctx.set s.focus.ctx.val (past m.ctx[s.focus.ctx.val] n) }

/-- The words that may be detached items (R120): copies, signals and future resolutions. -/
def mayDetach (i : Instr) : Bool :=
  match i with
  | .xLd1 .. | .xSt1 .. | .xCp1 .. | .xLd2 .. | .xSt2 .. | .xCp2 .. | .xLd3 .. | .xSt3 .. | .xCp3 .. | .xLd4 .. | .xSt4 ..
  | .xCp4 .. | .xFld .. | .xFst .. | .sSig .. | .sFres .. => true
  | _ => false

/-- The task in focus has given a unit of its weight away. -/
def oneUnitLess (s : State) : State :=
  s.modCur fun m => { m with task := m.task.map fun t => { t with weight := t.weight - 1 } }

/-- An image whose engine q is done with the word of context c: the word has left its queue, and the engine is free from
the next task cycle on. -/
def leave (m : Image) (q : Fin 13) (c : Fin 3) : Image :=
  { m with
    eq := m.eq.set (eqIx q c).val
      { words := (m.eqAt q c).words.drop 1, cur := (((m.eqAt q c).words.drop 1).head?).bind fun w => w.kept }
    eng := m.eng.set q.val { m.eng[q.val] with free := m.cyc + 1, act := none } }

/-- What the words that complete in their start cycle write of their image (R210, R219, R227, R237, R239, R243). -/
def startWrite (i : Instr) (v : Word) (m : Image) : Option Image :=
  match i with
  | .vSeta _ _ d => some { m with va := m.va.set d.val v }
  | .mSett _ _ d => some { m with td := m.td.set d.val v }
  | .rowSeta _ _ d => some { m with ra := m.ra.set d.val v }
  | .saSeta _ _ d => some { m with sa := m.sa.set d.val v }
  | .mDrop _ => some m
  | .saScope _ _ => some m
  | .saFlush _ => some m
  | _ => none

end Sys2Proof.Claims

/-- R82, R83, R84, R120, R121: every engine word issues. With predicate 1 and room for its entries it stands last in the
queue of its engine, and PC passes it; without room its context blocks on it; with predicate 0 it is discarded, and only
PC advances. A word that may be a detached item takes a unit of the weight of its task, in a scope, with it; when the
task has one unit or none the word waits for a unit, and a Borrow is made for it. `s.exit`, `s.halt`, `s.phase`, `s.npr`
and `s.nprend` act at their issue as R97, R154 and R283 say. The model's choices in it: log entry 87. -/
def Obligations.EngineWordsIssueToTheirQueues : Prop :=
  ∀ (i : Sys2Proof.Instr) (p : Sys2Proof.Pred) (q : Fin 13) (n : Nat) (s : Sys2Proof.Machine.State),
    Sys2Proof.Claims.engineEntry i = some (p, q, n) → s.focus.role = .issue →
      (s.p p = true → Sys2Proof.Claims.inUse (s.cur.eqAt q s.focus.ctx) + n ≤ 16 →
        ((Sys2Proof.Claims.mayDetach i = false ∨ ∀ t, s.cur.task = some t → t.scope = none) →
          Sys2Proof.Machine.exec i s = .next (Sys2Proof.Claims.queued s q n i)) ∧
        (∀ t r, Sys2Proof.Claims.mayDetach i = true → s.cur.task = some t → t.scope = some r →
          (2 ≤ t.weight → Sys2Proof.Machine.exec i s =
            .next (Sys2Proof.Claims.oneUnitLess (Sys2Proof.Claims.queued s q n i (some r)))) ∧
          (t.weight < 2 → ∃ u, Sys2Proof.Machine.exec i s = .next u ∧
            u.cur = (Sys2Proof.Claims.queued s q n i none true).cur ∧ u.mem = s.mem ∧ u.cols = s.cols))) ∧
      (s.p p = true → 16 < Sys2Proof.Claims.inUse (s.cur.eqAt q s.focus.ctx) + n →
        Sys2Proof.Machine.exec i s = .next (Sys2Proof.Claims.blocked s)) ∧
      (s.p p = false → Sys2Proof.Machine.exec i s = .next (Sys2Proof.Claims.issued s n []))

/-- R210, R219, R227, R237, R239, R243: the words that load a region register or a tile register complete in the cycle
they start, the entry popped written to the register named; `m.drop`, `sa.scope` and `sa.flush` complete with no other
effect. Each leaves its queue and frees its engine for the next cycle. The model's choices in it: log entries 27, 33. -/
def Obligations.RegisterLoadsCompleteAtTheirStart : Prop :=
  ∀ (i : Sys2Proof.Instr) (s : Sys2Proof.Machine.State) (m : Sys2Proof.Machine.Image),
    s.focus.role = .perform → Sys2Proof.Claims.startWrite i (s.popped 0) s.cur = some m →
      Sys2Proof.Machine.exec i s =
        .next (s.modCur fun _ => Sys2Proof.Claims.leave m s.focus.q s.focus.ctx)

namespace Sys2Proof.Claims

open Sys2Proof Sys2Proof.Machine

/-! ### Vector words -/

/-- The regions of a VEC word as its start finds them. -/
def regionsOf (s : State) (v : VecSpec) : VecRegions :=
  v.regions (s.vecWords v).1 (s.vecWords v).2.1 (s.vecWords v).2.2

/-- No byte is poisoned and no error is latent. -/
def noErrors (s : State) : Prop := s.poison = [] ∧ s.latent = []

/-- The elements of micro-step 0. -/
def firstElems (v : VecSpec) (r : VecRegions) : List Nat := List.range (min (v.count r) (v.lanes r))

/-- Whether a word takes elements by an index region (R218). -/
def indexed (v : VecSpec) (r : VecRegions) : Bool :=
  v.form r.d.ty r.aty == .gather || v.form r.d.ty r.aty == .scatter

/-- The index that element k of the index region holds. -/
def indexAt (s : State) (r : VecRegions) (k : Nat) : Int := ElemType.int r.bty (s.elem s.focus.core r.rb k)

/-- The data element that index k names: of A for a gather, of D for a scatter. -/
def dataAt (s : State) (v : VecSpec) (r : VecRegions) (k : Nat) : ElemRef :=
  if v.form r.d.ty r.aty = .gather then ⟨r.ra, (indexAt s r k).toNat⟩ else ⟨r.d, (indexAt s r k).toNat⟩

/-- An index is one of the data region, and its element lies in layer 0 (R218). -/
def indexGood (s : State) (v : VecSpec) (r : VecRegions) (k : Nat) : Prop :=
  0 ≤ indexAt s r k ∧
    indexAt s r k < (if v.form r.d.ty r.aty = .gather then (r.ra.count : Int) else (r.d.count : Int)) ∧
    (dataAt s v r k).r.inside (dataAt s v r k).k = true

/-- The lines of layer 0, by their numbers in memory, that a micro-step reads before it writes: those of its sources, of a
gather those of its indices. -/
def askedLines (core : CoreIx) (v : VecSpec) (r : VecRegions) (ks : List Nat) : List Nat :=
  (elemLines (ks.flatMap (v.readsAt r) ++ (if v.form r.d.ty r.aty = .scatter then ks.map fun k => ⟨r.ra, k⟩ else []))).map
    fun n => keyL0 core.val (256 * n) / 256

/-- The lines by the cycles of the read span (R207): a gather's indices all in one (R218). -/
def askedSteps (v : VecSpec) (r : VecRegions) (lines : List Nat) : List (List Nat) :=
  if v.form r.d.ty r.aty = .gather then [lines] else readSteps lines

/-- The word in focus after a micro-step of it has read its last line: the next one may ask for its lines in the next cycle. -/
def stepRead (k : Cur) (v : VecSpec) (r : VecRegions) (cyc : Nat) : Cur :=
  { k with
    mpc := k.mpc + 1, next := cyc + 1, opened := false, reads := [], lines := []
    lastDone := decide (v.count r ≤ (k.mpc + 1) * v.lanes r) }

/-- The elements of micro-step j. -/
def stepElems (v : VecSpec) (r : VecRegions) (j : Nat) : List Nat :=
  ((List.range (v.count r)).drop (j * v.lanes r)).take (v.lanes r)

/-- The fault that a start of R327 finds, in the order TYPE, COUNT, BASE. -/
def regionFault (v : VecSpec) (r : VecRegions) : Option (BitVec 16) :=
  match v.types r.d.ty r.aty r.bty with
  | some c => some c
  | none =>
    if v.counts r = false then some 0x0303
    else if r.d.aligned = true ∧ (∀ a ∈ r.a, a.aligned = true) ∧ (∀ b ∈ r.b, b.aligned = true) then none
    else some 0x0301

/-- What an integer operation gives under M0 (R212): it wraps, or it is bounded, with SAT when the bound changed it. -/
def narrowed (t : ElemType) (sat : Bool) (x : Int) : Nat × Flags :=
  let w := (x % 2 ^ t.bits).toNat
  let lo : Int := if t.signed then -2 ^ (t.bits - 1) else 0
  let hi : Int := if t.signed then 2 ^ (t.bits - 1) - 1 else 2 ^ t.bits - 1
  let b := ((min (max x lo) hi) % 2 ^ t.bits).toNat
  if sat then (b, if b = w then 0 else flagSAT) else (w, 0)

/-- The value of a code of an integer type (R28). -/
def valueOf (t : ElemType) (c : Nat) : Int :=
  if t.signed then signed (c % 2 ^ t.bits) t.bits else ((c % 2 ^ t.bits : Nat) : Int)

/-- A mask of R215. -/
def maskOf (t : ElemType) (b : Bool) : Nat × Flags := (if b then 2 ^ t.bits - 1 else 0, 0)

/-- The integer and bit rows of R211, R212, R214 and R215: the code of element k, of operands a and b, the old d, and the
entries popped, and the flags it raises. -/
def integerElement (i : Instr) (t : ElemType) (l : List Word) (k a b d : Nat) : Option (Nat × Flags) :=
  let x := valueOf t a
  let y := valueOf t b
  let z := valueOf t d
  let w := t.bits
  let q (n : Nat) : Nat := (l.getD n 0).toNat % 2 ^ w
  match i with
  | .vAdd _ _ _ _ _ m _ => some (narrowed t m (x + y))
  | .vSub _ _ _ _ _ m _ => some (narrowed t m (x - y))
  | .vMul _ _ _ _ _ m _ => some (narrowed t m (x * y))
  | .vDiv _ _ _ _ _ m _ =>
    some (if y = 0 then (2 ^ w - 1, 0) else narrowed t m (x.sign * y.sign * ((x.natAbs / y.natAbs : Nat) : Int)))
  | .vFma _ _ _ _ _ m _ => some (narrowed t m (x * y + z))
  | .vFms _ _ _ _ _ m _ => some (narrowed t m (x * y - z))
  | .vFnma _ _ _ _ _ m _ => some (narrowed t m (z - x * y))
  | .vMin _ _ _ _ _ _ _ => some (narrowed t false (if x ≤ y then x else y))
  | .vMax _ _ _ _ _ _ _ => some (narrowed t false (if x ≤ y then y else x))
  | .vAbs _ _ _ _ _ m => some (narrowed t m (if x < 0 then -x else x))
  | .vNeg _ _ _ _ _ m => some (narrowed t m (-x))
  | .vAnd _ _ _ _ _ => some (a &&& b, 0)
  | .vOr _ _ _ _ _ => some (a ||| b, 0)
  | .vXor _ _ _ _ _ => some (a ^^^ b, 0)
  | .vShl _ _ _ _ _ => some (a * 2 ^ (b % w) % 2 ^ w, 0)
  | .vShr _ _ _ _ _ => some (a / 2 ^ (b % w), 0)
  | .vSra _ _ _ _ _ => some ((signed (a % 2 ^ w) w / 2 ^ (b % w) % 2 ^ w).toNat, 0)
  | .vMulh _ _ _ _ _ => some ((x * y / 2 ^ w % 2 ^ w).toNat, 0)
  | .vCmpeq _ _ _ _ _ => some (maskOf t (decide (x = y)))
  | .vCmpne _ _ _ _ _ => some (maskOf t (decide (x ≠ y)))
  | .vCmplt _ _ _ _ _ => some (maskOf t (decide (x < y)))
  | .vCmple _ _ _ _ _ => some (maskOf t (decide (x ≤ y)))
  | .vSel _ _ _ _ _ => some (if d = 0 then b else a, 0)
  | .vCopy _ _ _ _ => some (a, 0)
  | .vCnt _ _ _ _ => some (((List.range w).countP fun n => a.testBit n), 0)
  | .vGather _ _ _ _ _ => some (a, 0)
  | .vScatter _ _ _ _ _ => some (a, 0)
  | .vFill _ _ _ => some (q 0, 0)
  | .vIota _ _ _ _ m => some (narrowed t m ((l.getD 0 0).toInt + k))
  | .vClamp _ _ _ _ =>
    let u := if x ≤ valueOf t (q 0) then valueOf t (q 0) else x
    some (narrowed t false (if u ≤ valueOf t (q 1) then u else valueOf t (q 1)))
  | .vAddq _ _ _ _ _ m => some (narrowed t m (x + valueOf t (q 0)))
  | .vMulq _ _ _ _ _ m => some (narrowed t m (x * valueOf t (q 0)))
  | .vFmaq _ _ _ _ _ m => some (narrowed t m (x * valueOf t (q 0) + z))
  | _ => none

/-- The operation type of a word that names one. -/
def typeOf (i : Instr) : Option ElemType :=
  match i with
  | .vAdd _ t .. | .vSub _ t .. | .vMul _ t .. | .vDiv _ t .. | .vFma _ t .. | .vFms _ t .. | .vFnma _ t ..
  | .vMin _ t .. | .vMax _ t .. | .vAbs _ t .. | .vNeg _ t .. | .vAnd _ t .. | .vOr _ t .. | .vXor _ t ..
  | .vShl _ t .. | .vShr _ t .. | .vSra _ t .. | .vMulh _ t .. | .vCmpeq _ t .. | .vCmpne _ t .. | .vCmplt _ t ..
  | .vCmple _ t .. | .vSel _ t .. | .vCopy _ t .. | .vCnt _ t .. | .vGather _ t .. | .vScatter _ t .. => some t
  | _ => none

/-- The exact result of a float row of R211 or R214 on finite operands, its rounding mode and its saturating flag. -/
def exactElement (i : Instr) (x y z : Rat) : Option (Rat × Rounding × Bool) :=
  match i with
  | .vAdd _ _ r _ _ m _ => some (x + y, r, m)
  | .vSub _ _ r _ _ m _ => some (x - y, r, m)
  | .vMul _ _ r _ _ m _ => some (x * y, r, m)
  | .vDiv _ _ r _ _ m _ => if y = 0 then none else some (x / y, r, m)
  | .vFma _ _ r _ _ m _ => some (x * y + z, r, m)
  | .vFms _ _ r _ _ m _ => some (x * y - z, r, m)
  | .vFnma _ _ r _ _ m _ => some (z - x * y, r, m)
  | _ => none

end Sys2Proof.Claims

/-- R203 to R209, R218, R327: every VEC word but `v.seta` whose regions R327 accepts starts, and in that cycle its first
micro-step asks for the lines that it reads, by the cycles of its read span; one that reads nothing has its writes under way
at once, to land VLAT cycles later. Until then no byte of memory changes. -/
def Sys2Proof.Claims.VectorWordsIssueTheirFirstMicroStep : Prop :=
  ∀ (i : Sys2Proof.Instr) (v : Sys2Proof.Machine.VecSpec) (s : Sys2Proof.Machine.State) (w : Sys2Proof.Machine.EngWord)
    (l : List Sys2Proof.Machine.EngWord),
    Sys2Proof.Machine.vecSpecOf i = some v → s.focus.role = .perform → s.focus.q = 1 → s.curQ.words = w :: l →
    w.instr = i → s.prog.mpc = 0 → s.prog.opened = false → s.prog.heldAt ≤ s.now → Sys2Proof.Claims.noErrors s →
    s.veToken s.focus.core = true → s.cur.inFlight < 32 →
    let r := Sys2Proof.Claims.regionsOf s v
    let ks := Sys2Proof.Claims.firstElems v r
    let asked := Sys2Proof.Claims.askedLines s.focus.core v r ks
    let o := s.vecOut s.focus.core v r s.prog.popped 0 ks
    Sys2Proof.Claims.regionFault v r = none → 0 < v.count r →
    (∀ k ∈ ks, ∀ e ∈ v.readsAt r k ++ v.writesAt r 0 k, e.r.inside e.k = true) →
      ∃ t u, Sys2Proof.Machine.exec i s = .next t ∧ Sys2Proof.Machine.step t = .next u ∧ t.mem = s.mem ∧
        u.mem = s.mem ∧ u.cur.pend = s.cur.pend ∧ u.cur.ctx = s.cur.ctx ∧ u.cur.q = s.cur.q ∧ u.cols = s.cols ∧
        (asked ≠ [] → u.cur.elems = s.cur.elems ∧ u.prog.opened = true ∧ u.prog.mpc = 0 ∧
          u.prog.reads = Sys2Proof.Claims.askedSteps v r asked) ∧
        (asked = [] → ∃ slot, u.cur.elems = s.cur.elems ++
            [{ tid := s.cur.tid, q := 1, ctx := s.focus.ctx, word := s.prog.started, due := s.cur.cyc + v.lat
               bytes := o.bytes, flags := o.flags, slot, step := true }] ∧
          u.prog.opened = false ∧ u.prog.mpc = 1 ∧ u.prog.next = s.cur.cyc + 1 ∧
          (u.prog.lastDone = true ↔ v.count r ≤ v.lanes r))

/-- R204, R206: a VEC word without elements completes in its start cycle and writes nothing. -/
def Sys2Proof.Claims.VectorWordsWithoutElementsComplete : Prop :=
  ∀ (i : Sys2Proof.Instr) (v : Sys2Proof.Machine.VecSpec) (s : Sys2Proof.Machine.State),
    Sys2Proof.Machine.vecSpecOf i = some v → s.focus.role = .perform →
    let r := Sys2Proof.Claims.regionsOf s v
    Sys2Proof.Claims.regionFault v r = none → v.count r = 0 →
      Sys2Proof.Machine.exec i s =
        .next (s.modCur fun m => Sys2Proof.Claims.leave m s.focus.q s.focus.ctx)

/-- R316, R327: a VEC word whose regions break R203 or R204 faults at its start with the code R327 gives, before it writes
anything: the fault stands against its context at its micro-PC, and no element write is under way. -/
def Sys2Proof.Claims.VectorWordsFaultAtTheirStart : Prop :=
  ∀ (i : Sys2Proof.Instr) (v : Sys2Proof.Machine.VecSpec) (s : Sys2Proof.Machine.State) (w : Sys2Proof.Machine.EngWord)
    (l : List Sys2Proof.Machine.EngWord) (c : BitVec 16),
    Sys2Proof.Machine.vecSpecOf i = some v → s.focus.role = .perform → s.curQ.words = w :: l → w.tid = s.cur.tid →
    Sys2Proof.Claims.regionFault v (Sys2Proof.Claims.regionsOf s v) = some c →
      ∃ t f, Sys2Proof.Machine.exec i s = .next t ∧ t.cx.faults = s.cx.faults ++ [f] ∧ f.code = c ∧ f.q = s.focus.q ∧
        f.mpc = s.prog.mpc ∧ f.pc = w.pc ∧ f.taken = false ∧ t.mem = s.mem ∧ t.cur.elems = s.cur.elems ∧
        t.cx.g = s.cx.g ∧ t.cur.pend = s.cur.pend

/-- R91, R207, R218: MICRO_STEP of a started VEC word. Its next lanes of elements ask for the lines that they read; with
the last line granted the micro-step is read, and what it writes, formed of the lines as each was read, is under way, to land
VLAT cycles later; the micro-PC counts on, and the last one ends the word. A gather asks for its data once its indices are
read. No byte of memory changes, in a micro-step of RE neither. -/
def Sys2Proof.Claims.MicroStepsIssueTheirElements : Prop :=
  ∀ (core : Sys2Proof.Machine.CoreIx) (bank : Sys2Proof.Machine.BankIx) (x : Sys2Proof.Ctx)
    (s : Sys2Proof.Machine.State) (w : Sys2Proof.Machine.EngWord) (l : List Sys2Proof.Machine.EngWord)
    (cu : Sys2Proof.Machine.Cur),
    let c := Sys2Proof.Machine.ctxIx x
    let m := s.img core bank
    (∀ v, s.focus.event = some (.microStep core bank 1 x) → (m.eqAt 1 c).words = w :: l → (m.eqAt 1 c).cur = some cu →
      Sys2Proof.Machine.vecSpecOf w.instr = some v → Sys2Proof.Claims.noErrors s → cu.heldAt ≤ s.now →
      let f := s.focusOn .perform core bank c 1
      let part (i : Nat) : Sys2Proof.Word := BitVec.ofNat 64 (cu.part.getD i 0)
      let r := v.regions (part 0) (part 1) (part 2)
      let ks := Sys2Proof.Claims.stepElems v r cu.mpc
      let asked := Sys2Proof.Claims.askedLines core v r ks
      let lines := f.capture cu.lines f.stepLines
      let seen := f.withLines lines
      let o := seen.vecOut core v r cu.popped cu.mpc ks
      let gather := v.form r.d.ty r.aty = .gather
      (cu.opened = false → s.veToken core = true → m.inFlight < 32 → asked ≠ [] →
        (∀ k ∈ ks, ∀ e ∈ v.readsAt r k ++ v.writesAt r cu.mpc k, e.r.inside e.k = true) →
        ∃ t, Sys2Proof.Machine.exec .microStep s = .next t ∧ t.mem = s.mem ∧ t.cols = s.cols ∧
          (t.img core bank).ctx = m.ctx ∧ (t.img core bank).pend = m.pend ∧ (t.img core bank).elems = m.elems ∧
          ((t.img core bank).eqAt 1 c).cur = some { cu with
            opened := true, lines := [], next := m.cyc, part := cu.part.take 3 ++ [0]
            reads := Sys2Proof.Claims.askedSteps v r asked }) ∧
      (∀ last, cu.opened = true → cu.reads = [last] → (∀ n ∈ last, n ∈ f.stepLines) →
        (gather → cu.part.getD 3 0 = 1) → (v.form r.d.ty r.aty = .scatter → ∀ k ∈ ks, Sys2Proof.Claims.indexGood seen v r k) →
        ∃ t slot, Sys2Proof.Machine.exec .microStep s = .next t ∧ t.mem = s.mem ∧ t.cols = s.cols ∧
          (t.img core bank).ctx = m.ctx ∧ (t.img core bank).pend = m.pend ∧
          (t.img core bank).elems = m.elems ++
            [{ tid := m.tid, q := 1, ctx := c, word := cu.started, due := m.cyc + v.lat
               bytes := o.bytes, flags := o.flags, slot, step := true }] ∧
          ((t.img core bank).eqAt 1 c).cur = some (Sys2Proof.Claims.stepRead cu v r m.cyc)) ∧
      (∀ last, cu.opened = true → cu.reads = [last] → (∀ n ∈ last, n ∈ f.stepLines) →
        gather → cu.part.getD 3 0 ≠ 1 → (∀ k ∈ ks, Sys2Proof.Claims.indexGood seen v r k) →
        ∃ t, Sys2Proof.Machine.exec .microStep s = .next t ∧ t.mem = s.mem ∧ t.cols = s.cols ∧
          (t.img core bank).elems = m.elems ∧
          ((t.img core bank).eqAt 1 c).cur = some { cu with
            lines, part := cu.part.take 3 ++ [1], next := m.cyc + 1
            reads := Sys2Proof.Machine.readSteps ((Sys2Proof.Machine.elemLines
              (ks.map (Sys2Proof.Claims.dataAt seen v r))).map fun n =>
                Sys2Proof.Machine.keyL0 core.val (256 * n) / 256) })) ∧
    (s.focus.event = some (.microStep core bank 3 x) → s.latent = [] →
      ∃ t, Sys2Proof.Machine.exec .microStep s = .next t ∧ t.mem = s.mem)

/-- R207, R218: what a micro-step writes of a word that goes element by element, or by an index region, is the element
function of each of its elements, at the element's place. -/
def Sys2Proof.Claims.MicroStepsWriteElementByElement : Prop :=
  ∀ (s : Sys2Proof.Machine.State) (core : Sys2Proof.Machine.CoreIx) (v : Sys2Proof.Machine.VecSpec)
    (r : Sys2Proof.Machine.VecRegions) (l : List Sys2Proof.Word) (j : Nat) (ks : List Nat),
    let at' (x : Sys2Proof.Machine.Region) (k : Nat) := s.elem core x k
    let ix (k : Nat) := (Sys2Proof.Machine.ElemType.int r.bty (at' r.rb k)).toNat
    let f (k a b d : Nat) := v.elem r.d.ty r.aty l k a b d
    (v.form r.d.ty r.aty = .map →
      (s.vecOut core v r l j ks).bytes = ks.flatMap (fun k =>
        r.d.writes k (f k (at' r.ra k) (at' r.rb k) (if v.readD = true then at' r.d k else 0)).1)) ∧
    (v.form r.d.ty r.aty = .gather →
      (s.vecOut core v r l j ks).bytes = ks.flatMap (fun k => r.d.writes k (f k (at' r.ra (ix k)) 0 0).1)) ∧
    (v.form r.d.ty r.aty = .scatter →
      (s.vecOut core v r l j ks).bytes = ks.flatMap (fun k => r.d.writes (ix k) (f k (at' r.ra k) 0 0).1))

/-- R211, R212, R214, R215, R216, R218: the element functions of the VEC words on the integer types, on every operand.
The model's choices in it: log entry 21. -/
def Obligations.IntegerElementsFollowTheTable : Prop :=
  ∀ (i : Sys2Proof.Instr) (v : Sys2Proof.Machine.VecSpec) (t : Sys2Proof.ElemType) (l : List Sys2Proof.Word)
    (k a b d : Nat) (x : Nat × Sys2Proof.Flags),
    Sys2Proof.Machine.vecSpecOf i = some v → t.isInt = true → (∀ u, Sys2Proof.Claims.typeOf i = some u → u = t) →
    a < 2 ^ t.bits → b < 2 ^ t.bits → d < 2 ^ t.bits → Sys2Proof.Claims.integerElement i t l k a b d = some x →
      v.elem t t l k a b d = x

/-- R37, R38, R40, R211: on finite operands the float additions, products, quotients and fused forms round their exact
result once, in the mode of the word; a result of zero is exact and raises no flag. -/
def Sys2Proof.Claims.FloatElementsRoundTheExactResultOnce : Prop :=
  ∀ (i : Sys2Proof.Instr) (v : Sys2Proof.Machine.VecSpec) (t : Sys2Proof.ElemType) (F : Sys2Proof.Fmt) (k a b d : Nat)
    (na nb nd : Bool) (x y z e : Rat) (r : Sys2Proof.Rounding) (m : Bool),
    Sys2Proof.Machine.vecSpecOf i = some v → Sys2Proof.Claims.typeOf i = some t → t.fmt = some F →
    F.decode a = .fin na x → F.decode b = .fin nb y → F.decode d = .fin nd z →
    Sys2Proof.Claims.exactElement i x y z = some (e, r, m) →
      (e ≠ 0 → v.elem t t [] k a b d = Sys2Proof.Machine.finishOp F m (F.round r e)) ∧
      (e = 0 → ∃ n, v.elem t t [] k a b d = (F.encode (.fin n 0), 0))

/-- R36, R37: the four rounding modes. RD gives a value no larger and RU no smaller than the exact one, RZ one no larger in
magnitude, and RNE one no further away than half the spacing there. -/
def Sys2Proof.Claims.RoundingModesBoundTheirResult : Prop :=
  ∀ (p emin : Int) (x : Rat), x ≠ 0 →
    let q := Sys2Proof.pow2 (max (Sys2Proof.floorLog2 (Sys2Proof.ratAbs x)) emin - p + 1)
    Sys2Proof.roundAt p emin .rd x ≤ x ∧ x ≤ Sys2Proof.roundAt p emin .ru x ∧
    Sys2Proof.ratAbs (Sys2Proof.roundAt p emin .rz x) ≤ Sys2Proof.ratAbs x ∧
    2 * Sys2Proof.ratAbs (Sys2Proof.roundAt p emin .rne x - x) ≤ q

/-- R39, R60, R89, R209: ELEMENT_WRITE_LANDS performs the element write that is due, when its bank has granted every
line of it: its bytes are written under their masks, its flags set in VSTATUS of its context, and nothing else of
memory, of the contexts or of the bank changes. One of which no line is granted stays as it is. The model's choices in
it: log entry 90. -/
def Obligations.ElementWritesLand : Prop :=
  ∀ (core : Sys2Proof.Machine.CoreIx) (bank : Sys2Proof.Machine.BankIx) (s : Sys2Proof.Machine.State)
    (e : Sys2Proof.Machine.ElemWrite) (before behind : List Sys2Proof.Machine.ElemWrite) (key : Nat → Nat),
    let m := s.img core bank
    let granted := s.elemLinesGranted core bank before.length
    s.focus.event = some (.elementWriteLands core bank) → Sys2Proof.Machine.Memory.wf s.mem = true →
    m.elems = before ++ e :: behind → e.due ≤ m.cyc → (∀ x ∈ before ++ behind, m.cyc < x.due) → e.bytes ≠ [] →
    (e.bytes.map (·.off)).Nodup → (∀ n, key n = Sys2Proof.Machine.keyL0 core.val n) →
      ((∀ b ∈ e.bytes, b.off / 256 ∈ granted) → (∀ f ∈ e.flags, f.1 ∈ granted) →
        ∃ t, Sys2Proof.Machine.exec .elementWriteLands s = .next t ∧
          (∀ b ∈ e.bytes, Sys2Proof.Machine.memGet t.mem (key b.off) =
            BitVec.ofNat 8 (((Sys2Proof.Machine.memGet s.mem (key b.off)).toNat &&& (255 - b.mask)) |||
              (b.val &&& b.mask))) ∧
          (∀ a, (∀ b ∈ e.bytes, a ≠ key b.off) → Sys2Proof.Machine.memGet t.mem a = Sys2Proof.Machine.memGet s.mem a) ∧
          (t.img core bank).ctx = m.ctx.set e.ctx.val
            { m.ctx[e.ctx.val] with
              vstatus := m.ctx[e.ctx.val].vstatus ||| (e.flags.foldl (fun (f : Sys2Proof.Flags) x => f ||| x.2) 0).setWidth 64 } ∧
          (t.img core bank).elems = before ++ behind ∧
          (t.img core bank).pend = m.pend ∧ t.cols = s.cols ∧ t.dies = s.dies) ∧
      (granted = [] → ∃ t, Sys2Proof.Machine.exec .elementWriteLands s = .next t ∧ t.mem = s.mem ∧
        (t.img core bank).elems = m.elems ∧ (t.img core bank).ctx = m.ctx)

namespace Sys2Proof.Claims

open Sys2Proof Sys2Proof.Machine

/-! ### Row words, tiles and updates -/

/-- The first phase of a ROW word (R221, R222): its reduction, else its exponentials, else its scaling. -/
def firstPhase (w : RowSpec) : Nat := if w.red ≠ .none then 0 else if w.expsum = true then 1 else 2

/-- The FP32 values of a row that a reduction of one chunk reads (R219). -/
def rowValues (seen : State) (core : CoreIx) (x : RowRun) (row : Nat) : List Nat :=
  (List.range x.ra.count).map fun k => rowRead x.ra.ty (seen.rowElem core (x.aAt row k))

/-- The tile commands: their descriptors, and whether B is K-major (R230). -/
def tileWord (i : Instr) : Option (Fin 8 × Fin 8 × Fin 8 × Bool) :=
  match i with
  | .mMma _ d a b => some (d, a, b, false)
  | .mMmat _ d a b => some (d, a, b, true)
  | _ => none

/-- A tile command as its start finds it: the format word popped and the three tile words (R225, R228). -/
def tileRun (s : State) (w : Fin 8 × Fin 8 × Fin 8 × Bool) : TileCmd :=
  s.tileCmd (formatOf (s.popped 0)) w.1 w.2.1 w.2.2.1 w.2.2.2

/-- What a tile command reads of layer 0. -/
def tileReads (x : TileCmd) : List (Nat × Nat) := x.aSpans ++ x.bSpans ++ x.scaleSpans

/-- The accumulator words of R237, with their tiles D and A. -/
def accWord (i : Instr) (s : State) : Option (AccSpec × Fin 8 × Fin 8) :=
  match i with
  | .mClr _ t d => some (specMClr t, d, d)
  | .mCvt _ t d a m => some (specMCvt t m, d, a)
  | .mBias _ d a => some (specMBias, d, a)
  | .mTr _ t d a => some (specMTr t, d, a)
  | .mScl _ _ d => some (specMScl ((s.popped 0).toNat % 2 ^ 32), d, d)
  | .mCopy _ t d a => some (specMCopy t, d, a)
  | .mAdd _ d a => some (specMAdd, d, a)
  | .mRelu _ d => some (specMRelu, d, d)
  | _ => none

/-- The offset of element (i, j) of a tile of a type of whole bytes (R226). -/
def cellAt (t : Tile2) (ty : ElemType) (i j : Nat) : Nat := t.base + i * t.pitch + j * ty.bytes

/-- The code of element (i, j) of a tile. -/
def cellCode (s : State) (t : Tile2) (ty : ElemType) (i j : Nat) : Nat :=
  s.read (keyL0 s.focus.core.val (cellAt t ty i j)) ty.bytes

/-- What an accumulator word writes at element (i, j) of D (R237). -/
def accResult (s : State) (x : AccSpec) (d a : Tile2) (i j : Nat) : Nat :=
  x.elem (if x.readD = true then cellCode s d x.dty i j else 0)
    (match x.aty with
      | some t => cellCode s a t (x.from' i j).1 (x.from' i j).2
      | none => 0)

/-- The reads of an accumulator word. -/
def accReads (x : AccSpec) (d a : Tile2) : List (Nat × Nat) :=
  let cells := (List.range d.rows).flatMap fun i => (List.range d.cols).map fun j => (i, j)
  (if x.readD = true then cells.map fun e => (cellAt d x.dty e.1 e.2, x.dty.bytes) else []) ++
    (match x.aty with
      | some t => cells.map fun e => (cellAt a t (x.from' e.1 e.2).1 (x.from' e.1 e.2).2, t.bytes)
      | none => [])

/-- The cells of a pass on a line: output and offset (R226). -/
def passCells (p : Pass) (line : Nat) : List (Nat × Nat × Nat) :=
  ((List.range p.m).flatMap fun i => (List.range p.n).map fun j => (i, j, p.acc + 128 * i + 4 * j)).filter
    fun e => e.2.2 / 256 == line

/-- An update word of SACC as its start finds it, and the place of its element k when R327, R329 and R354 accept it. -/
def saRegionsOf (s : State) (x : SaWord) : SaRegions :=
  let reg (i : Nat) : Nat := (s.cur.sa[i % 8]'(Nat.mod_lt _ (by decide))).toNat
  saRegions x (reg x.i) (reg (x.v.getD 0)) (reg x.r)

/-- The target address of an element whose index is found in a state (R238). -/
def saTarget (seen : State) (core : CoreIx) (base : Word) (g : SaRegions) (k : Nat) : Word :=
  base + BitVec.ofInt 64 (valueOf g.i.ty (seen.elem core g.i k)) * BitVec.ofNat 64 g.ty.bytes

/-- A target in a generic window that the update may have: of the layer its base names, aligned, in no reserved bank, within
the capacity, and in an open row of the DRAM layer. -/
def saAccepted (s : State) (base a : Word) (n : Nat) (l : Loc) : Prop :=
  isGeneric base = true ∧ locOf s.focus.core a = some l ∧
    (∃ b, locOf s.focus.core base = some b ∧ b.layer = l.layer) ∧
    a.toNat % n = 0 ∧ s.reservedBank l = false ∧ s.capFault l n s.view = none ∧
    (l.layer = 4 → s.rowOpen l.colIx l.off = true)

/-- The lines that taking element k of an update word reads (R238): of its indices, its values, and the values that
`sa.cas` expects. -/
def saLines (core : CoreIx) (x : SaWord) (g : SaRegions) (k : Nat) : List Nat :=
  (elemLines ((g.i :: (g.v.toList ++ (if x.op = .cas then g.r.toList else []))).map fun r => ⟨r, k⟩)).map fun n =>
    keyL0 core.val (256 * n) / 256

/-- An update of another party asks its home for a line, or for the line its old value is written to. -/
def updateAsks (s t : State) (u : Update) (key : Nat) (cls : Fin 5) (ord : Nat) : Prop :=
  let r : LineReq := { line := key / 256, wr := true, cls, since := s.now, ord, who := .unit (.saHomeUpdate { u with ready := true }) }
  t.mem = s.mem ∧ t.poison = s.poison ∧
    (∀ c, lineHome (key / 256) = .l0 c → (t.core c).reqs = (s.core c).reqs ++ [r]) ∧
    (∀ c l, lineHome (key / 256) = .slice c l → (t.slice c l).reqs = (s.slice c l).reqs ++ [r])

/-- The new value of R240 on the integer types, of the old value o, the update's value m and its expected value e. -/
def homeResult (slot : Nat) (t : ElemType) (o m e : Nat) : Option Nat :=
  match slot with
  | 1 => some ((o + m) % 2 ^ t.bits)
  | 2 => some (if valueOf t o ≤ valueOf t m then o else m)
  | 3 => some (if valueOf t o ≤ valueOf t m then m else o)
  | 4 => some (o &&& m)
  | 5 => some (o ||| m)
  | 6 => some (o ^^^ m)
  | 7 => some m
  | 8 => some (if o = e then m else o)
  | 9 => if t = .n32 then some ((o + m) % 2 ^ 32) else none
  | _ => none

end Sys2Proof.Claims

/-- R219 to R222, R327: a fresh ROW word with rows, which R327 accepts, starts and asks in its start cycle for the lines
of the first chunk of its first phase; a chunk that reads nothing is performed at once, and nothing it writes is
requested before 7 cycles later. Once the lines are granted the chunk is read as they stood: that of `row.max` and
`row.sum`, with rows of one chunk, has the vector element of its row under way for 7 cycles later, with the tree's
result and its flags. The model's choices in it: log entries 23, 24. -/
def Obligations.RowWordsReadTheirFirstChunk : Prop :=
  (∀ (i : Sys2Proof.Instr) (w : Sys2Proof.Machine.RowSpec) (s : Sys2Proof.Machine.State) (e : Sys2Proof.Machine.EngWord)
    (l : List Sys2Proof.Machine.EngWord),
    Sys2Proof.Machine.rowSpecOf i = some w → s.focus.role = .perform → s.focus.q = 3 → s.curQ.words = e :: l →
    e.instr = i → s.prog.mpc = 0 → s.prog.part = [] → s.prog.opened = false → s.prog.heldAt ≤ s.now →
    Sys2Proof.Claims.noErrors s →
    let x := s.rowRun w
    let ph := Sys2Proof.Claims.firstPhase w
    let asked := ((x.reads 0 ph 0).map fun y =>
      Sys2Proof.Machine.keyL0 s.focus.core.val y.off.toNat / 256).eraseDups
    x.startFault = none → 0 < x.ctl.rows → (∀ y ∈ x.reads 0 ph 0 ++ x.writes 0 ph 0, y.inside = true) →
      ∃ t u new, Sys2Proof.Machine.exec i s = .next t ∧ Sys2Proof.Machine.step t = .next u ∧ u.mem = s.mem ∧
        u.cur.ctx = s.cur.ctx ∧ u.cur.pend = s.cur.pend ∧ u.cur.q = s.cur.q ∧ u.cols = s.cols ∧
        u.cur.elems = s.cur.elems ++ new ∧ (∀ y ∈ new, s.cur.cyc + 7 ≤ y.due) ∧
        (asked ≠ [] → new = [] ∧ u.prog.opened = true ∧ u.prog.reads = [asked]) ∧
        u.prog.part.take 2 = [(s.cur.ra[w.d.val]).toNat, (s.cur.ra[w.a.val]).toNat]) ∧
  (∀ (core : Sys2Proof.Machine.CoreIx) (bank : Sys2Proof.Machine.BankIx) (x : Sys2Proof.Ctx)
    (s : Sys2Proof.Machine.State) (w : Sys2Proof.Machine.EngWord) (l : List Sys2Proof.Machine.EngWord)
    (cu : Sys2Proof.Machine.Cur) (v : Sys2Proof.Machine.RowSpec) (row : Nat) (last : List Nat),
    let c := Sys2Proof.Machine.ctxIx x
    let m := s.img core bank
    let f := s.focusOn .perform core bank c 3
    let z := cu.rowRun v
    s.focus.event = some (.microStep core bank 3 x) → (m.eqAt 3 c).words = w :: l → (m.eqAt 3 c).cur = some cu →
    Sys2Proof.Machine.rowSpecOf w.instr = some v → Sys2Proof.Claims.noErrors s → cu.heldAt ≤ s.now → cu.halt = none →
    cu.opened = true → cu.reads = [last] → (∀ n ∈ last, n ∈ f.stepLines) → cu.rowDue z m.cyc = [(row, 0, 0)] →
    v.dVec = true → 0 < z.ra.count → z.ra.count ≤ 256 →
    (∀ y ∈ z.reads row 0 0 ++ z.writes row 0 0, y.inside = true) →
      ∃ t y n, Sys2Proof.Machine.exec .microStep s = .next t ∧ t.mem = s.mem ∧ t.cols = s.cols ∧
        (t.img core bank).ctx = m.ctx ∧ (t.img core bank).pend = m.pend ∧ (t.img core bank).elems = m.elems ++ [y] ∧
        y.due = m.cyc + 7 ∧ y.q = 3 ∧ y.ctx = c ∧ y.word = cu.started ∧ y.step = false ∧
        let r := Sys2Proof.Machine.treeOf
          (if v.red = .max then Sys2Proof.Machine.rowMaxOf else Sys2Proof.Machine.rowAdd) 9
          ((Sys2Proof.Claims.rowValues (f.withLines (f.capture cu.lines f.stepLines)) core z row).map some)
        r.1 = some n ∧ y.bytes = (z.dVecAt row).writes (Sys2Proof.Machine.canon .f32 n).1 ∧
        y.flags.foldl (fun (b : Sys2Proof.Flags) e => b ||| e.2) 0 = r.2 ||| (Sys2Proof.Machine.canon .f32 n).2)

/-- R229 to R234, R326: a tile command that R326 accepts, with outputs to write, a K above 0, no poison and a token, starts:
it asks for its operand lines, line i of each bank in cycle i of its read span. With the last of them granted it forms its
pass values from the lines as they were read; the array is taken for max(P, read span) cycles from the cycle of its first
lines, for which it stays at the head of its queue. No byte of memory changes. -/
def Sys2Proof.Claims.TileCommandsFormTheirPass : Prop :=
  ∀ (i : Sys2Proof.Instr) (w : Fin 8 × Fin 8 × Fin 8 × Bool) (s : Sys2Proof.Machine.State),
    Sys2Proof.Claims.tileWord i = some w → s.focus.role = .perform → Sys2Proof.Claims.noErrors s →
    let x := Sys2Proof.Claims.tileRun s w
    let asked := (Sys2Proof.Machine.spanLines (Sys2Proof.Claims.tileReads x)).map fun n =>
      Sys2Proof.Machine.keyL0 s.focus.core.val (256 * n) / 256
    (s.prog.opened = false → s.meToken s.focus.core = true → x.startFault = none → x.accSpans ≠ [] → x.k ≠ 0 →
      ∃ t, Sys2Proof.Machine.exec i s = .next t ∧ t.mem = s.mem ∧ t.cur.passes = s.cur.passes ∧
        t.prog.opened = true ∧ t.prog.reads = Sys2Proof.Machine.readSteps asked ∧ t.prog.part = [0] ∧
        (t.cur.eqAt s.focus.q s.focus.ctx).words = s.curQ.words ∧ t.cur.elems = s.cur.elems ∧
        t.cur.ctx = s.cur.ctx ∧ t.cols = s.cols) ∧
    (∀ last, s.prog.opened = true → s.prog.reads = [last] → (∀ n ∈ last, n ∈ s.stepLines) →
      let d := max (max 1 ((32 * ((x.k + 31) / 32) * x.f.w ^ 2 + 1023) / 1024))
        (Sys2Proof.Machine.readSpan (Sys2Proof.Machine.spanLines (Sys2Proof.Claims.tileReads x)))
      let free := (if s.prog.part.getD 0 0 = 2 then s.prog.fromAt else s.cur.cyc) + d
      ∃ t p, Sys2Proof.Machine.exec i s = .next t ∧ t.mem = s.mem ∧ t.cur.passes = s.cur.passes ++ [p] ∧
        p.vals = (s.withLines (s.capture s.prog.lines s.stepLines)).passVals s.focus.core x ∧ p.formed = free + 1 ∧
        p.acc = x.acc ∧ p.m = x.m ∧ p.n = x.n ∧ p.clear = x.f.clear ∧ p.sat = x.f.sat ∧ t.cur.arrayFree = free ∧
        t.prog.lastDone = true ∧ t.prog.next = free ∧ (t.cur.eqAt s.focus.q s.focus.ctx).words = s.curQ.words ∧
        t.cur.elems = s.cur.elems ∧ t.cur.ctx = s.cur.ctx ∧ t.cols = s.cols)

/-- R229, R230: a tile command without outputs completes in its start cycle and reads and writes nothing; with K 0 and CLEAR
it forms zeros. -/
def Sys2Proof.Claims.TileCommandsWithoutWorkComplete : Prop :=
  ∀ (i : Sys2Proof.Instr) (w : Fin 8 × Fin 8 × Fin 8 × Bool) (s : Sys2Proof.Machine.State),
    Sys2Proof.Claims.tileWord i = some w → s.focus.role = .perform → s.prog.opened = false →
    let x := Sys2Proof.Claims.tileRun s w
    x.startFault = none → x.f.baren = false →
      (x.accSpans = [] → Sys2Proof.Machine.exec i s =
        .next (s.modCur fun m => Sys2Proof.Claims.leave m s.focus.q s.focus.ctx)) ∧
      (x.accSpans ≠ [] → x.k = 0 → ∃ t p, Sys2Proof.Machine.exec i s = .next t ∧ t.mem = s.mem ∧
        t.cur.passes = s.cur.passes ++ [p] ∧ p.vals = List.replicate (x.m * x.n) (some 0) ∧
        p.formed = s.cur.cyc + 1)

/-- R46, R47: where no contribution of a pass's blocks falls below the kept bits, the pass value is their exact sum rounded
once to FP32; a special block gives no value (R48), and blocks that contribute nothing give +0. -/
def Sys2Proof.Claims.PassValuesRoundTheExactSum : Prop :=
  ∀ (w : Nat) (sat : Bool) (a b : List Sys2Proof.Machine.Block),
    let cs := List.zipWith (Sys2Proof.Machine.blockDot w) a b
    (((∃ x ∈ a, x.special = true) ∨ (∃ x ∈ b, x.special = true)) → Sys2Proof.Machine.passValue w sat a b = none) ∧
    ((∀ x ∈ a, x.special = false) → (∀ x ∈ b, x.special = false) →
      ((∀ c ∈ cs, c = 0) → Sys2Proof.Machine.passValue w sat a b = some 0) ∧
      (∀ (m : Rat) (g : Int), m ∈ cs → m ≠ 0 →
        (∀ c ∈ cs, c ≠ 0 → Sys2Proof.floorLog2 (Sys2Proof.ratAbs c) ≤ Sys2Proof.floorLog2 (Sys2Proof.ratAbs m)) →
        g = Sys2Proof.floorLog2 (Sys2Proof.ratAbs m) - 57 →
        (∀ c ∈ cs, ∃ n : Int, c = (n : Rat) * Sys2Proof.pow2 g) →
          Sys2Proof.Machine.passValue w sat a b =
            some (Sys2Proof.Machine.passFinish sat (Sys2Proof.fp32.roundZ .rne cs.sum false).1)))

/-- R60, R234: a line of the one pass of a bank is read when its bank grants it, its new elements formed from the old ones,
to be written from 4 cycles later; then they are written, when the bank grants the write, four bytes each, and every other
byte of memory stays as it was. A line that is not granted waits. With BAREN the pass stays until its count is posted, 2
cycles after its last write. -/
def Sys2Proof.Claims.PassesAccumulateLineByLine : Prop :=
  ∀ (core : Sys2Proof.Machine.CoreIx) (bank : Sys2Proof.Machine.BankIx) (s : Sys2Proof.Machine.State)
    (p : Sys2Proof.Machine.Pass) (l : Sys2Proof.Machine.AccLine),
    let cyc := (s.img core bank).cyc
    let served := (s.core core).granted.any fun r => r.who == .acc bank 0 0
    s.focus.event = some (.passAccumulation core bank) → Sys2Proof.Claims.noErrors s →
    Sys2Proof.Machine.Memory.wf s.mem = true → (s.img core bank).passes = [p] → p.lines = [l] → p.bad = none →
    p.post = none →
      (served = false → ∃ t, Sys2Proof.Machine.exec .passAccumulation s = .next t ∧ t.mem = s.mem ∧
        (t.img core bank).passes = [p]) ∧
      (served = true → l.out = none → ∃ t, Sys2Proof.Machine.exec .passAccumulation s = .next t ∧ t.mem = s.mem ∧
        (t.img core bank).passes = [{ p with
          lines := [{ line := l.line, due := cyc + 4
                      out := some ((Sys2Proof.Claims.passCells p l.line).map fun e =>
                        (e.2.2, Sys2Proof.Machine.accValue p.clear p.sat
                          (s.read (Sys2Proof.Machine.keyL0 core.val e.2.2) 4)
                          (p.vals.getD (e.1 * p.n + e.2.1) none))) }] }]) ∧
      (∀ ws, served = true → l.out = some ws → ws.Pairwise (fun a b => a.1 + 4 ≤ b.1) →
        ∃ t, Sys2Proof.Machine.exec .passAccumulation s = .next t ∧
          (p.bar = none → (t.img core bank).passes = []) ∧
          (p.bar.isSome = true → (t.img core bank).passes =
            [{ p with lines := [], wrote := cyc, post := some (cyc + 2) }]) ∧
          (∀ e ∈ ws, t.read (Sys2Proof.Machine.keyL0 core.val e.1) 4 = e.2 % 2 ^ 32) ∧
          ∀ a, (∀ e ∈ ws, a < Sys2Proof.Machine.keyL0 core.val e.1 ∨
              Sys2Proof.Machine.keyL0 core.val e.1 + 4 ≤ a) →
            Sys2Proof.Machine.memGet t.mem a = Sys2Proof.Machine.memGet s.mem a)

/-- R234, R236, R237, R326: an accumulator word that R326 accepts starts and asks for the lines of its tiles, by the
cycles of its read span. With the last of them granted, or where it reads nothing, it has every element of D under way,
in row order, formed from the lines as they were read, for 6 cycles later, and its engine is free from the next cycle
on. The model's choices in it: log entries 2, 29. -/
def Obligations.AccumulatorWordsWriteTheirTile : Prop :=
  ∀ (i : Sys2Proof.Instr) (x : Sys2Proof.Machine.AccSpec) (d a : Fin 8) (s : Sys2Proof.Machine.State),
    Sys2Proof.Claims.accWord i s = some (x, d, a) → s.focus.role = .perform → Sys2Proof.Claims.noErrors s →
    s.prog.heldAt ≤ s.now →
    let td := Sys2Proof.Machine.tileOf (s.cur.td[d.val])
    let ta := Sys2Proof.Machine.tileOf (s.cur.td[a.val])
    let asked := (Sys2Proof.Machine.spanLines (Sys2Proof.Claims.accReads x td ta)).map fun n =>
      Sys2Proof.Machine.keyL0 s.focus.core.val (256 * n) / 256
    let written (seen t : Sys2Proof.Machine.State) : Prop :=
      t.mem = s.mem ∧ t.cur.ctx = s.cur.ctx ∧ t.cols = s.cols ∧ t.prog.lastDone = true ∧ t.prog.next = s.cur.cyc + 1 ∧
        t.cur.elems = s.cur.elems ++
          [{ tid := s.cur.tid, q := s.focus.q, ctx := s.focus.ctx, word := s.prog.started, due := s.cur.cyc + 6
             bytes := (List.range td.rows).flatMap fun i => (List.range td.cols).flatMap fun j =>
               (List.range x.dty.bytes).map fun n =>
                 { off := Sys2Proof.Claims.cellAt td x.dty i j + n
                   val := Sys2Proof.Claims.accResult seen x td ta i j / 2 ^ (8 * n) % 256, mask := 255 }
             flags := [], slot := { first := td.base, stride := 0, count := 0, ty := x.dty }, step := false }]
    (s.prog.opened = false → x.startFault td ta = none → 0 < td.rows → 0 < td.cols →
      (asked ≠ [] → ∃ t, Sys2Proof.Machine.exec i s = .next t ∧ t.mem = s.mem ∧ t.cur.ctx = s.cur.ctx ∧
        t.cols = s.cols ∧ t.cur.elems = s.cur.elems ∧ t.prog.opened = true ∧
        t.prog.reads = Sys2Proof.Machine.readSteps asked) ∧
      (asked = [] → ∃ t, Sys2Proof.Machine.exec i s = .next t ∧ written s t)) ∧
    (∀ last, s.prog.opened = true → s.prog.reads = [last] → (∀ n ∈ last, n ∈ s.stepLines) →
      ∃ t, Sys2Proof.Machine.exec i s = .next t ∧
        written (s.withLines (s.capture s.prog.lines s.stepLines)) t)

/-- R238, R240, R241: an update word of SACC that R327 accepts starts and asks in that cycle for the lines of its element 0.
With its lines granted an element is taken, when its target is one that R329 and R354 accept: a merging word holds the
element's value in its meld window, under its target and its home, merged with what the window holds for that target; any
other word sends its update to the home at once, with the operation, the value and, for `sa.cas`, the expected value. No byte
of memory changes yet. -/
def Sys2Proof.Claims.UpdateWordsTakeTheirFirstElement : Prop :=
  (∀ (i : Sys2Proof.Instr) (x : Sys2Proof.Machine.SaWord) (s : Sys2Proof.Machine.State) (e : Sys2Proof.Machine.EngWord)
    (r : List Sys2Proof.Machine.EngWord),
    Sys2Proof.Machine.saWordOf i = some x → s.focus.role = .perform → s.focus.q = 4 → s.curQ.words = e :: r →
    e.instr = i → s.wordLive = true → s.prog.mpc = 0 → s.prog.window = [] →
    let g := Sys2Proof.Claims.saRegionsOf s x
    g.startFault x.op = none → 0 < g.i.count →
    (∀ y ∈ g.i :: (g.v.toList ++ g.r.toList), y.inside 0 = true) →
      ∃ t u, Sys2Proof.Machine.exec i s = .next t ∧ Sys2Proof.Machine.step t = .next u ∧ u.mem = s.mem ∧
        u.cols = s.cols ∧ u.cur.ctx = s.cur.ctx ∧ u.cur.pend = s.cur.pend ∧ u.cur.elems = s.cur.elems ∧
        u.prog.opened = true ∧ u.prog.mpc = 0 ∧ u.prog.window = [] ∧
        u.prog.reads = [Sys2Proof.Claims.saLines s.focus.core x g 0]) ∧
  (∀ (core : Sys2Proof.Machine.CoreIx) (bank : Sys2Proof.Machine.BankIx) (y : Sys2Proof.Ctx)
    (s : Sys2Proof.Machine.State) (w : Sys2Proof.Machine.EngWord) (r : List Sys2Proof.Machine.EngWord)
    (cu : Sys2Proof.Machine.Cur) (x : Sys2Proof.Machine.SaWord) (l : Sys2Proof.Machine.Loc) (last : List Nat),
    let c := Sys2Proof.Machine.ctxIx y
    let m := s.img core bank
    let f := s.focusOn .perform core bank c 4
    let g := Sys2Proof.Machine.saRegions x (cu.part.getD 0 0) (cu.part.getD 1 0) (cu.part.getD 2 0)
    let seen := f.withLines (f.capture cu.lines f.stepLines)
    let base := cu.popped.getD 0 0
    let a := Sys2Proof.Claims.saTarget seen core base g cu.mpc
    let v := x.op.enter g.ty (match g.v with
      | some y => seen.elem core y cu.mpc
      | none => 1)
    s.focus.event = some (.microStep core bank 4 y) → (m.eqAt 4 c).words = w :: r → (m.eqAt 4 c).cur = some cu →
    Sys2Proof.Machine.saWordOf w.instr = some x → Sys2Proof.Claims.noErrors s → m.holds w.tid = true →
    g.startFault x.op = none →
    cu.opened = true → cu.reads = [last] → (∀ n ∈ last, n ∈ f.stepLines) → cu.mpc < g.i.count →
    Sys2Proof.Claims.saAccepted f base a g.ty.bytes l →
      ∃ t, Sys2Proof.Machine.exec .microStep s = .next t ∧ t.mem = s.mem ∧ t.cols = s.cols ∧
        (t.img core bank).ctx = m.ctx ∧ (t.img core bank).pend = m.pend ∧ (t.img core bank).elems = m.elems ∧
        (x.op.merges x.ret = true → cu.window.all (fun e => e.1 != a) = true → cu.window.length < 64 →
          ∃ k, ((t.img core bank).eqAt 4 c).cur = some k ∧ k.mpc = cu.mpc + 1 ∧ k.opened = false ∧
            k.window = cu.window ++ [(a, l.key, v)]) ∧
        (x.op.merges x.ret = true → cu.window.any (fun e => e.1 == a) = true →
          ∃ k, ((t.img core bank).eqAt 4 c).cur = some k ∧ k.mpc = cu.mpc + 1 ∧ k.opened = false ∧
            k.window = cu.window.map fun e => if e.1 = a then (e.1, e.2.1, x.op.merge g.ty e.2.2 v) else e) ∧
        (x.op.merges x.ret = false → ∃ due u, s.now ≤ due ∧
          (⟨due, Sys2Proof.Machine.rankUnit, .ev (.saHomeUpdate u)⟩ : Sys2Proof.Machine.Entry) ∈ t.agenda ∧
          u.key = l.key ∧ u.addr = a ∧ u.op = x.op.slot ∧ u.ty = g.ty ∧ u.val = v ∧ u.old = none ∧ u.bad = none ∧
          u.ready = false ∧ u.ret = (g.r.map fun y => (y.offset cu.mpc).toNat) ∧
          (x.op = .cas → ∀ y ∈ g.r, u.expect = seen.elem core y cu.mpc)))

/-- R78, R60, R161, R240, R242: an update that reaches its home asks for its line, class SACC. Once its bank or port accepts
it, in an open row of a slice that is there, it reads the element, writes the new value of R240 and, for a word that returns,
sets out with the old one; no other byte of memory changes. Its answer asks for the line of its place in layer 0, class
ENGWR, and with it granted writes the old value there. -/
def Sys2Proof.Claims.UpdatesReadModifyAndWriteAtTheirHome : Prop :=
  ∀ (u : Sys2Proof.Machine.Update) (s : Sys2Proof.Machine.State),
    s.focus.event = some (.saHomeUpdate u) → Sys2Proof.Claims.noErrors s → Sys2Proof.Machine.Memory.wf s.mem = true →
    u.bad = none → u.via = none →
    (u.old = none → u.ready = false → ∃ t, Sys2Proof.Machine.exec .saHomeUpdate s = .next t ∧
      Sys2Proof.Claims.updateAsks s t u u.key 4 (456 + u.core.val)) ∧
    (∀ (v : Nat) (l : Sys2Proof.Machine.Loc), u.old = none → u.ready = true → u.ty.isInt = true →
      Sys2Proof.Machine.keyLoc u.key = some l → (l.layer = 4 → s.rowOpen l.colIx l.off = true) →
      (l.layer ≠ 0 → (s.slice l.colIx (Fin.ofNat 4 (l.layer - 1))).retired = false) → u.val < 2 ^ u.ty.bits →
      Sys2Proof.Claims.homeResult u.op u.ty (s.read u.key u.ty.bytes) u.val u.expect = some v →
      ∃ t, Sys2Proof.Machine.exec .saHomeUpdate s = .next t ∧ t.read u.key u.ty.bytes = v ∧
        (∀ a, a < u.key ∨ u.key + u.ty.bytes ≤ a →
          Sys2Proof.Machine.memGet t.mem a = Sys2Proof.Machine.memGet s.mem a) ∧
        (u.ret.isSome = true → (⟨s.now + u.back, Sys2Proof.Machine.rankUnit,
          .ev (.saHomeUpdate { u with old := some (s.read u.key u.ty.bytes), ready := false })⟩ :
            Sys2Proof.Machine.Entry) ∈ t.agenda) ∧
        (u.ret = none → t.agenda = s.agenda)) ∧
    (∀ o v, u.old = some v → u.ret = some o →
      (u.ready = false → ∃ t, Sys2Proof.Machine.exec .saHomeUpdate s = .next t ∧
        Sys2Proof.Claims.updateAsks s t u (Sys2Proof.Machine.keyL0 u.core.val o) 1 4) ∧
      (u.ready = true → ∃ t, Sys2Proof.Machine.exec .saHomeUpdate s = .next t ∧ t.agenda = s.agenda ∧
        t.read (Sys2Proof.Machine.keyL0 u.core.val o) u.ty.bytes = v % 2 ^ (8 * u.ty.bytes) ∧
        ∀ a, a < Sys2Proof.Machine.keyL0 u.core.val o ∨ Sys2Proof.Machine.keyL0 u.core.val o + u.ty.bytes ≤ a →
          Sys2Proof.Machine.memGet t.mem a = Sys2Proof.Machine.memGet s.mem a))

namespace Sys2Proof.Claims

open Sys2Proof Sys2Proof.Machine

/-! ### XFER words and the tower -/

/-- The image after a word of XFER is performed: it has left its queue, and its queue's engine may start the next in the
following cycle (R249). -/
def performed (m : Image) (q : Fin 13) (c : Fin 3) : Image :=
  { m with
    eq := m.eq.set (eqIx q c).val
      { words := (m.eqAt q c).words.drop 1, cur := (((m.eqAt q c).words.drop 1).head?).bind fun w => w.kept }
    eng := m.eng.set q.val
      { m.eng[q.val] with act := if m.eng[q.val].act = some c then none else m.eng[q.val].act, free := m.cyc + 1 } }

/-- A generic address of layer `lo` to `hi` of the core's own die, a multiple of `al`, that n bytes may be accessed at. -/
def ownPlace (s : State) (a : Word) (lo hi al n : Nat) (l : Loc) : Prop :=
  isGeneric a = true ∧ locOf s.focus.core a = some l ∧ l.die = (coreDie s.focus.core).val ∧ lo ≤ l.layer ∧ l.layer ≤ hi ∧
    l.layer ≤ 4 ∧ a.toNat % al = 0 ∧ s.reservedBank l = false ∧ s.capFault l n s.view = none

/-- The shape slots that a copy reads at its start. -/
def copySlots (i : Instr) (s : State) : Option (BitVec 512 × BitVec 512) :=
  match i with
  | .xLd1 _ _ t | .xSt1 _ _ t | .xLd2 _ _ t | .xSt2 _ _ t | .xLd3 _ _ t | .xSt3 _ _ t | .xLd4 _ _ t | .xSt4 _ _ t
  | .xFst _ _ t => some (s.cur.ts[t.val], 0)
  | .xFld _ _ t _ k => some (s.cur.ts[t.val], s.cur.ts[k.val])
  | .xCp1 _ _ | .xCp2 _ _ | .xCp3 _ _ | .xCp4 _ _ => some (0, 0)
  | _ => none

/-- The entry of the copy in focus on the agenda. -/
def copyEntry (s : State) (due rank : Nat) (p : CopyPart) : Entry :=
  ⟨due, rank, .ev (.copyCompletion s.focus.core s.focus.bank s.focus.q (ixCtx s.focus.ctx) p)⟩

/-- A copy asks for a line of class COPY, and its part goes on with it. -/
def copyAsks (s t : State) (core : CoreIx) (q : Fin 13) (line : Nat) (wr : Bool) (e : Event) : Prop :=
  (∀ c, lineHome line = .l0 c → ∃ r ∈ (t.core c).reqs, r.line = line ∧ r.wr = wr ∧ r.cls = 3 ∧ r.since = s.now ∧ r.who = .unit e) ∧
    (∀ c l, lineHome line = .slice c l → ∃ r ∈ (t.slice c l).reqs, r.line = line ∧ r.wr = wr ∧ r.who = .unit e ∧
      r.ord = if q = 9 then 128 + core.val / 64 else 4 * (core.val / 8) + (q.val - 5))

/-- The command of a DRAM word (R257). -/
def dramKind (i : Instr) : Option (Fin 3) :=
  match i with
  | .xDact _ _ => some 0
  | .xDpre _ _ => some 1
  | .xDref _ _ => some 2
  | _ => none

/-- The state of a bank after a command of R63, issued in cycle n. -/
def commanded (x : DramCmd) (n : Nat) (b : DramBank) : DramBank :=
  if x.kind = 0 then { b with row := some x.row, actAt := n }
  else if x.kind = 1 then (if b.row.isSome = true then { b with row := none, readyAt := n + 40 } else b)
  else { b with readyAt := n + 160, window := n + 160 }

/-- Only bank b of column c of the DRAM layer differs, and no byte of memory. -/
def onlyBank (s t : State) (c : ColIx) (b : Fin 32) : Prop :=
  (∀ c' b', ¬ (c' = c ∧ b' = b) → t.dram c' b' = s.dram c' b') ∧ t.mem = s.mem ∧ t.poison = s.poison ∧
    t.latent = s.latent

/-- A key lies in layer `layer` of die d. -/
def inLayer (d : DieIx) (layer k : Nat) : Prop := ∃ col off, spaceOf k = .tower col layer off ∧ col / 8 = d.val

/-- The bytes of a block of b elements of e bytes. -/
def blockBytes (e b : Nat) (elem : Nat → Nat) : List Byte :=
  (List.range b).flatMap fun k => (List.range e).map fun i => BitVec.ofNat 8 (elem k / 2 ^ (8 * i))

end Sys2Proof.Claims

/-- R251: `x.evict` with address 0 clears its slot in its start cycle; with an accepted address it clears the slot and sends
its 64 bytes to that place; `x.ldshape` reads 64 bytes, and they stand in the slot when the answer has come. -/
def Sys2Proof.Claims.ShapeSlotWordsComplete : Prop :=
  ∀ (p : Sys2Proof.Pred) (q : Fin 16) (n : Fin 32) (s : Sys2Proof.Machine.State) (l : Sys2Proof.Machine.Loc),
    s.focus.role = .perform →
    let f := s.focus
    let far := Sys2Proof.Claims.latencyOf l.layer + Sys2Proof.Claims.wayOf s l
    (s.popped 0 = 0 → Sys2Proof.Machine.exec (.xEvict p q n) s =
      .next (s.modCur fun m => Sys2Proof.Claims.performed { m with ts := m.ts.set n.val 0 } f.q f.ctx)) ∧
    (Sys2Proof.Claims.ownPlace s (s.popped 0) 0 1 64 64 l → s.popped 0 ≠ 0 → s.latent = [] →
      (∃ t, Sys2Proof.Machine.exec (.xEvict p q n) s = .next t ∧ t.mem = s.mem ∧ t.cur.ts = s.cur.ts.set n.val 0 ∧
        Sys2Proof.Claims.copyEntry s (s.now + (far - 3)) Sys2Proof.Machine.rankUnit
          (.land s.prog.started ((List.range 64).map fun i =>
            (l.key + i, BitVec.ofNat 8 ((s.cur.ts[n.val]).toNat / 2 ^ (8 * i)), false))) ∈ t.agenda) ∧
      (∃ t, Sys2Proof.Machine.exec (.xLdshape p q n) s = .next t ∧ t.mem = s.mem ∧ t.cur.ts = s.cur.ts ∧
        Sys2Proof.Claims.copyEntry s (s.now + far) Sys2Proof.Machine.rankUnit
          (.slot n (BitVec.ofNat 512 (s.read l.key 64))) ∈ t.agenda))

/-- R71, R72, R120, R249, R252 to R255: a copy that passes the checks of its start is accepted: it keeps the slots that it
reads then, and asks for a turn of its engine, unless it still waits for a unit of weight. No byte of memory changes. -/
def Sys2Proof.Claims.CopiesAreAccepted : Prop :=
  ∀ (i : Sys2Proof.Instr) (s : Sys2Proof.Machine.State) (a b : BitVec 512) (x : Sys2Proof.Machine.CopyCmd)
    (w : Sys2Proof.Machine.EngWord) (l : List Sys2Proof.Machine.EngWord),
    Sys2Proof.Claims.copySlots i s = some (a, b) → s.focus.role = .perform → s.wordLive = true →
    s.curQ.words = w :: l → s.run.bound = false →
    let run := { s.run with slot := a, scale := b, served := s.prog.mpc, asked := 0 }
    (s.setProg { s.prog with copy := some run }).copyCmd i = some (.ok x) → s.cutOff x = false →
      ∃ t, Sys2Proof.Machine.exec i s = .next t ∧ t.mem = s.mem ∧ t.prog.waiting = true ∧ t.prog.mpc = s.prog.mpc ∧
        t.prog.copy = some { run with bound := true, bar := x.bar } ∧
        t.cur.ctx = s.cur.ctx ∧ t.cur.pend = s.cur.pend ∧ t.cur.q = s.cur.q ∧
        (w.owed = false ∨ s.prog.item.isSome = true ∨ Sys2Proof.Machine.nameKind x.bar ≠ 1 →
          Sys2Proof.Claims.copyEntry s s.now Sys2Proof.Machine.rankUnit .turn ∈ t.agenda) ∧
        (w.owed = true → s.prog.item = none → Sys2Proof.Machine.nameKind x.bar = 1 → t.agenda = s.agenda)

/-- R70 to R72, R249, R253, R256: a copy whose turn of its engine has come is served the sectors of its next k lines, and asks
for their source lines; the engine serves one core in a cycle, and the others' turns come later. A turn that has no sector
left is followed by the count, one cycle after cycle S. -/
def Sys2Proof.Claims.CopiesTakeTheirTurns : Prop :=
  ∀ (core : Sys2Proof.Machine.CoreIx) (bank : Sys2Proof.Machine.BankIx) (q : Fin 13) (c : Sys2Proof.Ctx)
    (part : Sys2Proof.Machine.CopyPart) (s : Sys2Proof.Machine.State) (w : Sys2Proof.Machine.EngWord)
    (l : List Sys2Proof.Machine.EngWord) (x : Sys2Proof.Machine.CopyCmd),
    s.focus.event = some (.copyCompletion core bank q c part) →
    let f := s.focusOn .perform core bank (Sys2Proof.Machine.ctxIx c) q
    let ev (p : Sys2Proof.Machine.CopyPart) : Sys2Proof.Machine.Event := .copyCompletion core bank q c p
    let n := (x.turnSectors f.run.served).length
    5 ≤ q.val → q.val ≤ 9 →
    f.curQ.words = w :: l → (f.beforeRecovery f.view).copyCmd w.instr = some (.ok x) → f.cutOff x = false →
    (part = .turn → f.engineTurn = false → Sys2Proof.Machine.exec .copyCompletion s =
      .next (f.schedule (s.now + 1) Sys2Proof.Machine.rankUnit (.ev (ev .turn)))) ∧
    (part = .turn → f.engineTurn = true → ∃ t, Sys2Proof.Machine.exec .copyCompletion s = .next t ∧ t.mem = s.mem ∧
      (q ≠ 9 → (t.col (Sys2Proof.Machine.coreCol core)).ceNext[q.val - 5]? = some (Fin.ofNat 8 (core.val + 1))) ∧
      (q = 9 → (t.die (Sys2Proof.Machine.coreDie core)).fsNext = Fin.ofNat 64 (core.val + 1)) ∧
      (n = 0 → Sys2Proof.Claims.copyEntry f (s.now + if x.fs = true then 1 else x.first + 1)
        (Sys2Proof.Machine.rankCount - 1) .post ∈ t.agenda) ∧
      (0 < n → t.run.served = f.run.served + n ∧ Sys2Proof.Claims.copyEntry f
        (s.now + if x.fs = true then 1 + Sys2Proof.Config.freeLatency s.free else x.lead) Sys2Proof.Machine.rankUnit
        (.fetch n) ∈ t.agenda)) ∧
    (∀ n, part = .fetch n →
      let asks := ((((x.sectors.drop f.prog.mpc).take n).flatMap fun sec => f.sectorLines x sec).eraseDups).filter
        fun y => (f.prog.lines.find y).isNone
      asks ≠ [] → ∃ t, Sys2Proof.Machine.exec .copyCompletion s = .next t ∧ t.mem = s.mem ∧ t.prog.reads = [asks] ∧
        t.run.asked = n ∧ ∀ y ∈ asks, Sys2Proof.Claims.copyAsks s t core q y false (ev (.line y))) ∧
    (∀ y more, part = .line y → Sys2Proof.Machine.dramLine y = false → f.prog.reads = [y :: more] → more ≠ [] →
      ∃ t, Sys2Proof.Machine.exec .copyCompletion s = .next t ∧ t.mem = s.mem ∧ t.prog.reads = [more] ∧
        t.prog.lines = f.capture f.prog.lines [y] ∧ t.agenda = s.agenda) ∧
    (∀ y (cells : Nat → List (Nat × Sys2Proof.Byte × Bool)), part = .line y → Sys2Proof.Machine.dramLine y = false →
      f.prog.reads = [[y]] → x.fs = false → f.prog.heldAt ≤ s.now →
      let g := f.setProg { f.prog with lines := f.capture f.prog.lines [y], reads := [[]] }
      let secs := (x.sectors.drop f.prog.mpc).take f.run.asked
      (∀ sec ∈ secs, g.sectorCells x sec = (.ok (cells sec), g)) → secs.flatMap cells ≠ [] →
      ∃ t, Sys2Proof.Machine.exec .copyCompletion s = .next t ∧ t.mem = s.mem ∧ t.prog.mpc = f.prog.mpc + secs.length ∧
        t.prog.sent = f.prog.sent + secs.countP x.counts ∧
        Sys2Proof.Claims.copyEntry f (s.now + (x.first - x.lead)) Sys2Proof.Machine.rankUnit
          (.land f.prog.started (secs.flatMap cells)) ∈ t.agenda)

/-- R254: the pieces of a byte copy: every byte of the N from A is moved once, to the place as far from D, and nothing else
is. -/
def Sys2Proof.Claims.ByteCopiesMoveEveryByteOnce : Prop :=
  ∀ (s : Sys2Proof.Machine.State) (q : Fin 13) (l : List Sys2Proof.Word) (x : Sys2Proof.Machine.CopyCmd),
    s.bytesCmd q l = .ok x →
      ∃ a d, Sys2Proof.Machine.locOf s.focus.core (l.getD 1 0) = some a ∧
        Sys2Proof.Machine.locOf s.focus.core (l.getD 2 0) = some d ∧
        (∀ u ∈ x.units, ∃ k v w n, u.dst = .key (d.key + n) v ∧ u.src = .at (.key k w) ∧ k = a.key + n ∧ 0 < u.len ∧
          n + u.len ≤ (l.getD 3 0).toNat) ∧
        (∀ i, i < (l.getD 3 0).toNat →
          (x.units.countP fun u => decide (u.dst.num ≤ d.key + i ∧ d.key + i < u.dst.num + u.len)) = 1)

/-- R68: the elements of a tile in the order of their places: element n has coordinates below the extents, dimension 0
counting fastest. -/
def Sys2Proof.Claims.TileCoordinatesCountDimensionZeroFirst : Prop :=
  ∀ (ext : List Nat) (n : Nat), n < ext.foldr (· * ·) 1 →
    (Sys2Proof.Machine.coordsOf ext n).length = ext.length ∧
    (∀ i, i < ext.length → (Sys2Proof.Machine.coordsOf ext n).getD i 0 < ext.getD i 0) ∧
    ((List.range ext.length).map fun i =>
      (Sys2Proof.Machine.coordsOf ext n).getD i 0 * ((ext.take i).foldr (· * ·) 1)).sum = n

/-- R69, R71, R249, R250: what a copy has read asks for its destination lines; a line granted is written at its places,
in this package, and no other byte changes; the last of a copy is followed by its count 2 cycles later. A loaded shape
descriptor stands in its slot; and with its count a copy tells the barrier that its command names its sectors, and
leaves its queue. The model's choices in it: log entry 34. -/
def Obligations.CopyPartsLandAndCount : Prop :=
  ∀ (core : Sys2Proof.Machine.CoreIx) (bank : Sys2Proof.Machine.BankIx) (q : Fin 13) (c : Sys2Proof.Ctx)
    (part : Sys2Proof.Machine.CopyPart) (s : Sys2Proof.Machine.State),
    s.focus.event = some (.copyCompletion core bank q c part) → Sys2Proof.Machine.Memory.wf s.mem = true →
    let f := s.focusOn .perform core bank (Sys2Proof.Machine.ctxIx c) q
    (∀ word cells, part = .land word cells →
      ∃ t, Sys2Proof.Machine.exec .copyCompletion s = .next t ∧ t.mem = s.mem ∧
        ∀ y ∈ cells, Sys2Proof.Claims.copyAsks s t core q (y.1 / 256) true (.copyCompletion core bank q c
          (.put word (cells.filter fun z => z.1 / 256 == y.1 / 256)))) ∧
    (∀ word cells, part = .put word cells → (cells.map (·.1)).Nodup → (∀ y ∈ cells, s.awayPkg y.1 = none) →
      ∃ t, Sys2Proof.Machine.exec .copyCompletion s = .next t ∧
        (∀ y ∈ cells, Sys2Proof.Machine.memGet t.mem y.1 = y.2.1) ∧
        (∀ a, (∀ y ∈ cells, a ≠ y.1) → Sys2Proof.Machine.memGet t.mem a = Sys2Proof.Machine.memGet s.mem a) ∧
        (∀ w l x, f.curQ.words = w :: l → (f.beforeRecovery f.view).copyCmd w.instr = some (.ok x) →
          f.prog.started = word → f.run.writes = 1 → x.sectors.length ≤ f.prog.mpc → f.run.bound = true →
          f.prog.heldAt ≤ s.now →
          Sys2Proof.Claims.copyEntry f (s.now + 2) (Sys2Proof.Machine.rankCount - 1) .post ∈ t.agenda)) ∧
    (∀ n d w l, part = .slot n d → f.curQ.words = w :: l → Sys2Proof.Machine.exec .copyCompletion s =
      .next (f.modCur fun m =>
        Sys2Proof.Claims.performed { m with ts := m.ts.set n.val d } q (Sys2Proof.Machine.ctxIx c))) ∧
    (∀ w l x, part = .post → f.curQ.words = w :: l → (f.beforeRecovery f.view).copyCmd w.instr = some (.ok x) →
      f.cutOff x = false →
      ∃ t, Sys2Proof.Machine.exec .copyCompletion s = .next t ∧ t.mem = s.mem ∧
        ((t.img core bank).eqAt q (Sys2Proof.Machine.ctxIx c)).words = l ∧
        (Sys2Proof.Machine.nameKind x.bar = 1 → Sys2Proof.Machine.namePkg x.bar = s.pkg.num →
          ∃ r k, (⟨s.now + Sys2Proof.Machine.countExtra core (Sys2Proof.Machine.nameColIx x.bar), r,
            .ev (.barrierCount x.bar f.prog.sent k)⟩ : Sys2Proof.Machine.Entry) ∈ t.agenda))

/-- R63, R257, R329, R349: `x.dact`, `x.dpre` and `x.dref` set out to the CE4 of their slice when their address is accepted,
and CE4 issues the command in the first cycle its limits allow: the bank opens its row, closes it or starts a new window,
and no other bank and no byte of memory changes. A bank with an open row takes no activate and no refresh. -/
def Sys2Proof.Claims.DramCommandsReachTheirBank : Prop :=
  (∀ (i : Sys2Proof.Instr) (k : Fin 3) (s : Sys2Proof.Machine.State) (l : Sys2Proof.Machine.Loc),
    Sys2Proof.Claims.dramKind i = some k → s.focus.role = .perform →
    Sys2Proof.Claims.ownPlace s (s.popped 0) 4 4 1 1 l →
    l.off % (if k = 0 then 2 ^ 11 else 2 ^ 26) = 0 →
      ∃ t x, Sys2Proof.Machine.exec i s = .next t ∧ t.mem = s.mem ∧ t.prog.waiting = true ∧ x.kind = k ∧
        x.col = l.colIx ∧ x.bank.val = l.off / 2 ^ 26 % 32 ∧ (k = 0 → x.row = l.off / 2 ^ 11 % 2 ^ 15) ∧
        (⟨s.now + (if l.colIx = Sys2Proof.Machine.coreCol s.focus.core then 0 else 4), Sys2Proof.Machine.rankMemory,
          .ev (.dramCommandIssue x)⟩ : Sys2Proof.Machine.Entry) ∈ t.agenda) ∧
  (∀ (x : Sys2Proof.Machine.DramCmd) (s : Sys2Proof.Machine.State),
    s.focus.event = some (.dramCommandIssue x) →
    (s.now < s.commandAt x → Sys2Proof.Machine.exec .dramCommandIssue s =
      .next (s.schedule (s.commandAt x) Sys2Proof.Machine.rankMemory (.ev (.dramCommandIssue x)))) ∧
    (s.commandAt x ≤ s.now → (x.kind = 1 ∨ (s.dram x.col x.bank).row = none) →
      ∃ t, Sys2Proof.Machine.exec .dramCommandIssue s = .next t ∧
        t.dram x.col x.bank = Sys2Proof.Claims.commanded x s.now (s.dram x.col x.bank) ∧
        Sys2Proof.Claims.onlyBank s t x.col x.bank) ∧
    (s.commandAt x ≤ s.now → x.kind ≠ 1 → (s.dram x.col x.bank).row ≠ none →
      ∃ t, Sys2Proof.Machine.exec .dramCommandIssue s = .next t ∧ t.mem = s.mem ∧ ∀ c b, t.dram c b = s.dram c b))

/-- R62, R64, R350: a forced refresh holds its bank for 160 cycles, or 240 with a row open, and is counted in RFSTALL; at its end
the bank's window starts anew, the row as before. A sensor reading of the DRAM layer above 85 sets HOT and the window of
4,387 cycles, one of 85 or less clears HOT and sets 8,775. The banks of the stores, which the device refreshes itself, are not
forced (R62). -/
def Sys2Proof.Claims.ForcedRefreshesHoldTheirBank : Prop :=
  ∀ (c : Sys2Proof.Machine.ColIx) (b : Fin 32) (s : Sys2Proof.Machine.State),
    (s.focus.event = some (.forcedRefresh c b) → (s.die (Sys2Proof.Machine.colDie c)).storesCol = c.val % 8 →
      30 ≤ b.val → Sys2Proof.Machine.exec .forcedRefresh s = .next s) ∧
    (s.focus.event = some (.forcedRefresh c b) → s.ownRefresh c b = false → s.dramHeld c b ≤ s.now →
      (s.dram c b).prechargeAt ≤ s.now →
      ∃ t, Sys2Proof.Machine.exec .forcedRefresh s = .next t ∧
        (let e := s.now + if (s.dram c b).row = none then 160 else 240
         t.dram c b = { s.dram c b with busy := e } ∧
         (⟨e, Sys2Proof.Machine.rankRead, .ev (.forcedRefreshEnd c b)⟩ : Sys2Proof.Machine.Entry) ∈ t.agenda) ∧
        ((s.col c).rfstall.toNat / 2 ^ 32 % 2 ^ 16 < 2 ^ 16 - 1 →
          (t.col c).rfstall = (s.col c).rfstall + BitVec.ofNat 64 (2 ^ 32)) ∧
        Sys2Proof.Claims.onlyBank s t c b) ∧
    (s.focus.event = some (.forcedRefreshEnd c b) →
      ∃ t, Sys2Proof.Machine.exec .forcedRefreshEnd s = .next t ∧ (t.dram c b).row = (s.dram c b).row ∧
        (t.dram c b).window = s.now ∧
        (⟨s.now + s.window c, Sys2Proof.Machine.rankRefresh, .ev (.forcedRefresh c b)⟩ : Sys2Proof.Machine.Entry) ∈
          t.agenda ∧ Sys2Proof.Claims.onlyBank s t c b) ∧
    (∀ layer n, s.focus.event = some (.dramSensorReading c layer n) →
      ∃ t, Sys2Proof.Machine.exec .dramSensorReading s = .next t ∧ t.mem = s.mem ∧
        (t.col c).temps = (s.col c).temps.set layer.val n ∧
        (layer = 4 → (85 < n ↔ (s.col c).refwin.toNat.testBit 14 = false) →
          (t.col c).refwin = BitVec.ofNat 64 (if 85 < n then 4387 + 2 ^ 14 else 8775)))

/-- R66, R258: a layer that wakes is powered and reads zero, every byte outside it as before; a layer whose conditions do not
hold stays powered. `x.lpow` is accepted 14 cycles after its start, and performed then: an up hint starts the wake of
layer 2, and of layer 3 for a hint on it, 4,500 cycles long; a down hint stands, and firmware tries to switch layer 3 off. -/
def Sys2Proof.Claims.LayersPowerUpReadingZero : Prop :=
  (∀ (d : Sys2Proof.Machine.DieIx) (layer : Fin 5) (s : Sys2Proof.Machine.State),
    s.focus.event = some (.layerWakeComplete d layer) → (layer = 2 ∨ layer = 3) →
    Sys2Proof.Machine.Memory.wf s.mem = true →
      ∃ t, Sys2Proof.Machine.exec .layerWakeComplete s = .next t ∧
        (t.die d).on[(Sys2Proof.Machine.layerIx layer.val).val] = true ∧
        (∀ k, Sys2Proof.Claims.inLayer d layer.val k → Sys2Proof.Machine.memGet t.mem k = 0) ∧
        (∀ k, ¬ Sys2Proof.Claims.inLayer d layer.val k →
          Sys2Proof.Machine.memGet t.mem k = Sys2Proof.Machine.memGet s.mem k)) ∧
  (∀ (d : Sys2Proof.Machine.DieIx) (layer : Fin 5) (s : Sys2Proof.Machine.State),
    s.focus.event = some (.layerPowerOff d layer) → (layer = 2 ∨ layer = 3) →
    (s.dieEmpty d = false ∨ s.fitsBelow d layer.val = false → Sys2Proof.Machine.exec .layerPowerOff s = .next s) ∧
    (s.dieEmpty d = true → s.fitsBelow d layer.val = true → s.allocs d = [] →
      (s.die d).on[(Sys2Proof.Machine.layerIx layer.val).val] = true → (layer = 2 → (s.die d).on[1] = false) →
      ∃ t, Sys2Proof.Machine.exec .layerPowerOff s = .next t ∧ t.mem = s.mem ∧
        (t.die d).on[(Sys2Proof.Machine.layerIx layer.val).val] = false)) ∧
  (∀ (p : Sys2Proof.Pred) (l : Fin 32) (u : Bool) (s : Sys2Proof.Machine.State), s.focus.role = .perform →
    (s.prog.part = [] → ∃ t, Sys2Proof.Machine.exec (.xLpow p l u) s = .next t ∧ t.mem = s.mem ∧
      t.prog.waiting = true ∧
      (⟨s.now + 14, Sys2Proof.Machine.rankUnit, .perform s.focus.core s.focus.bank s.focus.q s.focus.ctx⟩ :
        Sys2Proof.Machine.Entry) ∈ t.agenda) ∧
    (s.prog.part ≠ [] → u = true → ∃ t, Sys2Proof.Machine.exec (.xLpow p l u) s = .next t ∧ t.mem = s.mem ∧
      (t.cur.eqAt s.focus.q s.focus.ctx).words = s.curQ.words.drop 1 ∧
      (let d := s.die (Sys2Proof.Machine.coreDie s.focus.core)
       let e := t.die (Sys2Proof.Machine.coreDie s.focus.core)
       (d.on[0] = false → d.waking[0] = none → e.waking[0] = some (s.now + 4500)) ∧
       (l = 3 → d.on[1] = false → d.waking[1] = none → e.waking[1] = some (s.now + 4500)))) ∧
    (s.prog.part ≠ [] → u = false → ∃ t, Sys2Proof.Machine.exec (.xLpow p l u) s = .next t ∧ t.mem = s.mem ∧
      (t.cur.eqAt s.focus.q s.focus.ctx).words = s.curQ.words.drop 1 ∧
      (t.die (Sys2Proof.Machine.coreDie s.focus.core)).down[1] = true ∧
      (l ≠ 3 → (t.die (Sys2Proof.Machine.coreDie s.focus.core)).down[0] = true) ∧
      (⟨s.now, Sys2Proof.Machine.rankDealer + 170, .ev (.layerPowerOff (Sys2Proof.Machine.coreDie s.focus.core) 3)⟩ :
        Sys2Proof.Machine.Entry) ∈ t.agenda))

/-- R336, R342, R343, R345: the repairs of a slice. A rewrite takes the corrected granule from the latent errors; a new
window starts its counts at 0; a spare lane takes over and its bus group is held 64 cycles, then released; a talon
replacement holds its bank for as long as R343 says, then releases it and counts a talon bank in use; and at the recovery
point a condemned slice is retired. None changes a byte of memory outside the allocation table. -/
def Sys2Proof.Claims.RepairsFollowTheirTimetable : Prop :=
  ∀ (c : Sys2Proof.Machine.ColIx) (l : Fin 4) (s : Sys2Proof.Machine.State),
    (∀ g, s.focus.event = some (.correctedRewrite g) → Sys2Proof.Machine.exec .correctedRewrite s =
      .next { s with latent := s.latent.filter fun e => !(e.1 == g && !e.2.uncorr) }) ∧
    (s.focus.event = some .repairWindow → ∃ t, Sys2Proof.Machine.exec .repairWindow s = .next t ∧ t.mem = s.mem ∧
      (t.slice c l).laneErr = [] ∧ (t.slice c l).bankErr = [] ∧ (t.slice c l).spares = (s.slice c l).spares ∧
      (⟨s.now + 2 ^ 24, Sys2Proof.Machine.rankUnit, .ev .repairWindow⟩ : Sys2Proof.Machine.Entry) ∈ t.agenda) ∧
    (∀ bus g, s.focus.event = some (.laneReplacement c l bus g) → (s.slice c l).condemned = none →
      (s.slice c l).spares.get 0 bus < 8 →
      s.bankInUse c l (fun b => Sys2Proof.Machine.busGroup (l.val + 1) b == bus / 8) = false →
      ∃ t, Sys2Proof.Machine.exec .laneReplacement s = .next t ∧ t.mem = s.mem ∧
        (t.slice c l).spares.get 0 bus = (s.slice c l).spares.get 0 bus + 1 ∧
        (t.slice c l).held.get 0 (1000 + bus / 8) = s.now + 64 ∧
        (⟨s.now + 64, Sys2Proof.Machine.rankRead, .ev (.laneReplacementEnd c l bus)⟩ : Sys2Proof.Machine.Entry) ∈
          t.agenda) ∧
    (∀ bus, s.focus.event = some (.laneReplacementEnd c l bus) → Sys2Proof.Machine.exec .laneReplacementEnd s =
      .next (s.modSlice c l fun x => { x with held := x.held.del (1000 + bus / 8) })) ∧
    (∀ layer off g, s.focus.event = some (.talonReplacement c l g) → Sys2Proof.Machine.spaceOf g = .tower c.val layer off →
      (s.slice c l).condemned = none → s.talonEmpty c l = false → s.latent = [] →
      (s.slice c l).held.get 0 (Sys2Proof.Machine.sliceBank layer off) ≤ s.now → l ≠ 3 →
      s.bankInUse c l (· == Sys2Proof.Machine.sliceBank layer off) = false →
      ∃ t, Sys2Proof.Machine.exec .talonReplacement s = .next t ∧ t.mem = s.mem ∧
        (t.slice c l).held.get 0 (Sys2Proof.Machine.sliceBank layer off) =
          s.now + (if l = 0 then 2068 else if l = 1 then 4128 else 4142)) ∧
    (∀ bank, s.focus.event = some (.talonReplacementEnd c l bank) →
      ∃ t, Sys2Proof.Machine.exec .talonReplacementEnd s = .next t ∧ t.mem = s.mem ∧
        (t.slice c l).held = (s.slice c l).held.del bank ∧
        (t.col c).busTiming[l.val] = (s.col c).busTiming[l.val] + BitVec.ofNat 64 (2 ^ 24)) ∧
    (s.focus.event = some (.sliceRetired c l) → (s.slice c l).condemned.isSome = true → (s.slice c l).retired = false →
      (s.sliceInUse c l = true → Sys2Proof.Machine.exec .sliceRetired s = .next s) ∧
      (s.sliceInUse c l = false → ∃ t, Sys2Proof.Machine.exec .sliceRetired s = .next t ∧
        (t.slice c l).retired = true ∧
          (s.allocCount (Sys2Proof.Machine.colDie c) = 0 → t.mem = s.mem)))

/-! ### The transform sequencer -/

namespace Sys2Proof.Claims

open Sys2Proof Sys2Proof.Machine

/-- The focus on the core whose program runs. -/
def tsFocused (s : State) (p : TsProg) : Focus :=
  { s.focus with core := p.core, bank := p.bank, ctx := p.ctx, q := 10 }

/-- The running program of the column in focus is p, and its next word is due n cycles from now. -/
def tsAfter (s : State) (w : TsProg) (p : TsProg) (n : Nat) : State :=
  ({ s with
    focus := tsFocused s w
    cols := s.cols.put s.focus.col.val { s.col s.focus.col with tsRun := some p } } : State).schedule
      (s.now + n) rankAnswer (.ts s.focus.col)

/-- The running program w stands as it was, and its word is due again n cycles from now. -/
def tsHeld (s : State) (w : TsProg) (n : Nat) : State :=
  ({ s with focus := tsFocused s w } : State).schedule (s.now + n) rankAnswer (.ts s.focus.col)

/-- What a control instruction of one cycle makes of its program (R262); none where R331 faults it. -/
def tsControl (i : Instr) (p : TsProg) : Option TsProg :=
  let past (p : TsProg) : Option TsProg := some { p with pc := p.pc + 1 }
  let put (d : Fin 8) (v : BitVec 32) : Option TsProg := past { p with h := p.h.set d.val v }
  let go (p : TsProg) (o : BitVec 19) : Option TsProg :=
    let t := (p.pc : Int) + o.toInt
    if 0 ≤ t ∧ t < 1024 then some { p with pc := t.toNat } else none
  match i with
  | .tsSeti d v => put d (v.signExtend 32)
  | .tsAddi d a v => put d (p.h[a.val] + v.signExtend 32)
  | .tsAdd d a b => put d (p.h[a.val] + p.h[b.val])
  | .tsSetc c a => past { p with c := p.c.set c.val (p.h[a.val].setWidth 16) }
  | .tsLoop c o =>
    let v := p.c[c.val]
    if 1 < v.toNat then go { p with c := p.c.set c.val (v - 1) } o else past { p with c := p.c.set c.val 0 }
  | .tsJmp o => go p o
  | .tsBnz a o => if p.h[a.val] ≠ 0 then go p o else past p
  | .tsSetb e b x =>
    let n := [64, 128, 256].getD b.val 0
    if e.val ≤ 2 ∧ b.val ≤ 2 ∧ max 1 (n / 8 / 32) ≤ x.val ∧ 32 * x.val ≤ n / 8 + n * 2 ^ e.val then
      past { p with geom := some (e.val, n, 32 * x.val) }
    else none
  | _ => none

/-- The words that `tsControl` is about. -/
def isTsControl (i : Instr) : Bool :=
  match i with
  | .tsSeti .. | .tsAddi .. | .tsAdd .. | .tsSetc .. | .tsLoop .. | .tsJmp .. | .tsBnz .. | .tsSetb .. => true
  | _ => false

/-- TS has let the program go, with a fault of this code against its `x.trun`, at the program's counter (R331). -/
def tsFaulted (s t : State) (p : TsProg) (code : BitVec 16) : Prop :=
  t.mem = s.mem ∧ (t.col s.focus.col).tsRun = none ∧
    ∃ f ∈ ((t.img p.core p.bank).ctx[p.ctx.val]).faults, f.q = 10 ∧ f.code = code ∧ f.mpc = p.pc

/-- Where the two operands of a data instruction lead (R259): a layer 1 offset of the column and a layer 0 address of a core
of it, both aligned, inside, and in a slice that is not retired. -/
def tsPlaces (s : State) (p : TsProg) (hi lo : BitVec 32) (nHi nLo al : Nat) (k1 k0 : Nat) : Prop :=
  hi.toNat % al = 0 ∧ hi.toNat + nHi ≤ 2 ^ 27 ∧ hi.toNat + nHi ≤ s.sliceCap s.focus.col 1 p.view ∧
    k1 = keyTower s.focus.col.val 1 hi.toNat ∧
    lo.toNat % al = 0 ∧ lo.toNat < 2 ^ 24 ∧ lo.toNat % 2 ^ 21 + nLo ≤ 2 ^ 21 ∧
    k0 = keyL0 (8 * s.focus.col.val + lo.toNat / 2 ^ 21) (lo.toNat % 2 ^ 21)

/-- A TS operation of the running program of p is on the agenda. -/
def tsDue (p : TsProg) (x : TsPart) (due rank : Nat) : Entry :=
  ⟨due, rank, .ev (.tsDataPosting { col := coreCol p.core, tid := p.tid, core := p.core, ctx := ixCtx p.ctx, pc := p.pc, part := x })⟩

/-- The bytes an instruction will write, with their keys. -/
def cellsFrom (k : Nat) (l : List (Byte × Bool)) : List (Nat × Byte × Bool) :=
  (l.zip (List.range l.length)).map fun x => (k + x.2, x.1.1, x.1.2)

end Sys2Proof.Claims

/-- R259, R260: `x.tok` and `x.trun` are accepted 4 cycles after their start. An accepted `x.tok` adds 1 to its token count and is
performed, and it is held for a cycle while the count is 255. An accepted program waits in its column's TS, behind those
accepted earlier and those of lower cores accepted in its cycle, its eight registers set from its four argument entries. An `x.trun` whose entries break R260's layout faults with 0x0307. -/
def Sys2Proof.Claims.TransformProgramsAndTokensAreAccepted : Prop :=
  ∀ (p : Sys2Proof.Pred) (k : Fin 4) (q : Fin 16) (s : Sys2Proof.Machine.State), s.focus.role = .perform →
    let f := s.focus
    let again : Sys2Proof.Machine.Entry :=
      ⟨s.now + 4, Sys2Proof.Machine.rankWait + f.core.val, .perform f.core f.bank f.q f.ctx⟩
    (s.prog.part = [] →
      (∃ t, Sys2Proof.Machine.exec (.xTok p k) s = .next t ∧ t.mem = s.mem ∧ t.cur.tk = s.cur.tk ∧ t.prog.waiting = true ∧
        again ∈ t.agenda) ∧
      (Sys2Proof.Machine.trunOk (s.popped 0) (s.popped 1) = true → (s.popped 0).toNat / 2 ^ 42 % 2 ^ 11 = 0 →
        ∃ t, Sys2Proof.Machine.exec (.xTrun p q) s = .next t ∧ t.mem = s.mem ∧ t.prog.waiting = true ∧
          again ∈ t.agenda) ∧
      (Sys2Proof.Machine.trunOk (s.popped 0) (s.popped 1) = false →
        Sys2Proof.Machine.exec (.xTrun p q) s = .next (s.engineFault 0x0307 none))) ∧
    (s.prog.part ≠ [] →
      (s.cur.tk[k.val] = 255 →
        Sys2Proof.Machine.exec (.xTok p k) s = .next (s.schedule (s.now + 1) (Sys2Proof.Machine.rankWait + f.core.val)
          (.perform f.core f.bank f.q f.ctx))) ∧
      (s.cur.tk[k.val] ≠ 255 →
        Sys2Proof.Machine.exec (.xTok p k) s = .next (s.modCur fun m =>
          Sys2Proof.Claims.performed { m with tk := m.tk.set k.val (m.tk[k.val] + 1) } f.q f.ctx)) ∧
      (∃ t x, Sys2Proof.Machine.exec (.xTrun p q) s = .next t ∧ t.mem = s.mem ∧
        ((∀ y ∈ (s.col (Sys2Proof.Machine.coreCol f.core)).tsWait, y.accepted ≠ s.now ∨ y.core.val ≤ f.core.val) →
          (t.col (Sys2Proof.Machine.coreCol f.core)).tsWait =
            (s.col (Sys2Proof.Machine.coreCol f.core)).tsWait ++ [x]) ∧
        x ∈ (t.col (Sys2Proof.Machine.coreCol f.core)).tsWait ∧ x.accepted = s.now ∧
        t.cur = Sys2Proof.Claims.performed s.cur f.q f.ctx ∧ x.core = f.core ∧ x.bank = f.bank ∧ x.ctx = f.ctx ∧
        x.pc = (s.popped 0).toNat / 2 ^ 32 % 2 ^ 10 ∧ x.loadLen = (s.popped 0).toNat / 2 ^ 42 % 2 ^ 11 ∧
        x.bar.toNat = (s.popped 0).toNat % 2 ^ 23 ∧ x.image = s.popped 1 ∧
        ∀ j : Fin 8, x.h[j.val].toNat = (s.popped (2 + j.val / 2)).toNat / 2 ^ (32 * (j.val % 2)) % 2 ^ 32))

/-- R262, R263: a TS control instruction changes its program as R262 says and its next word issues in the next cycle; a
branch out of the instruction memory and a geometry outside R261's limits fault the program with 0x0103 (R331). `waitt`
takes a token or waits, `post` pushes or waits, `fence` and `end` wait for writes and counts, and `end` ends the program
in the cycle after. The model's choices in it: log entry 43. -/
def Obligations.TransformControlWordsStepTheirProgram : Prop :=
  ∀ (s : Sys2Proof.Machine.State) (p : Sys2Proof.Machine.TsProg),
    (s.col s.focus.col).tsRun = some p → p.pc < 1024 →
    let m := s.img p.core p.bank
    let past := Sys2Proof.Claims.tsAfter s p { p with pc := p.pc + 1 } 1
    (∀ i, Sys2Proof.Claims.isTsControl i = true →
      (∀ p', Sys2Proof.Claims.tsControl i p = some p' →
        Sys2Proof.Machine.exec i s = .next (Sys2Proof.Claims.tsAfter s p p' 1)) ∧
      (Sys2Proof.Claims.tsControl i p = none → m.holds p.tid = true →
        ∃ t, Sys2Proof.Machine.exec i s = .next t ∧ Sys2Proof.Claims.tsFaulted s t p 0x0103)) ∧
    (∀ k : Fin 4,
      (m.tk[k.val] = 0 → Sys2Proof.Machine.exec (.tsWaitt k) s = .next (Sys2Proof.Claims.tsHeld s p 1)) ∧
      (m.tk[k.val] ≠ 0 → ∃ t, Sys2Proof.Machine.exec (.tsWaitt k) s = .next t ∧ t.mem = s.mem ∧
        t.img p.core p.bank = { m with tk := m.tk.set k.val (m.tk[k.val] - 1) } ∧ t.cols = past.cols ∧
        t.agenda = past.agenda)) ∧
    (∀ (a : Fin 8) (q : Fin 16),
      (q.val < 14 → m.full p.ctx q = true →
        Sys2Proof.Machine.exec (.tsPost a q) s = .next (Sys2Proof.Claims.tsHeld s p 1)) ∧
      (q.val < 14 → m.full p.ctx q = false → ∃ t, Sys2Proof.Machine.exec (.tsPost a q) s = .next t ∧ t.mem = s.mem ∧
        t.img p.core p.bank = m.pushQ p.ctx q (p.h[a.val].setWidth 64) ∧ t.cols = past.cols ∧ t.agenda = past.agenda) ∧
      (14 ≤ q.val → m.holds p.tid = true → ∃ t, Sys2Proof.Machine.exec (.tsPost a q) s = .next t ∧
        Sys2Proof.Claims.tsFaulted s t p 0x0403)) ∧
    (p.wrBusy ≤ s.now → Sys2Proof.Machine.exec .tsFence s = .next past) ∧
    (s.now < p.wrBusy → Sys2Proof.Machine.exec .tsFence s = .next (Sys2Proof.Claims.tsHeld s p (p.wrBusy - s.now))) ∧
    (p.postBusy ≤ s.now → ∃ t, Sys2Proof.Machine.exec .tsEnd s = .next t ∧
      t = { s with focus := Sys2Proof.Claims.tsFocused s p, agenda := t.agenda } ∧
      (⟨s.now + 1, Sys2Proof.Machine.rankUnit, .ev (.tsProgramEnd s.focus.col)⟩ : Sys2Proof.Machine.Entry) ∈ t.agenda) ∧
    (s.now < p.postBusy → Sys2Proof.Machine.exec .tsEnd s = .next (Sys2Proof.Claims.tsHeld s p (p.postBusy - s.now)))

/-- R261 to R263: a TS data instruction reads its source lines in the o cycles of its occupancy, four of layer 1 or sixteen of
layer 0 a cycle, moves both registers past the block, and issues its next word when its occupancy ends. What it reads is
kept with it until its writes are due, 26 cycles (a layer 1 source) or 12 cycles (a layer 0 source) after its issue. No byte
changes at issue. The two registers of a data instruction differ here. -/
def Sys2Proof.Claims.TransformDataWordsReadTheirBlock : Prop :=
  ∀ (s : Sys2Proof.Machine.State) (p : Sys2Proof.Machine.TsProg),
    (s.col s.focus.col).tsRun = some p → p.pc < 1024 → Sys2Proof.Machine.coreCol p.core = s.focus.col →
    (s.img p.core p.bank).holds p.tid = true →
    ∀ (d a b : Fin 8) (k1 k0 : Nat),
    let ops (t : Sys2Proof.Machine.State) := (t.col s.focus.col).tsOps
    let reads (t : Sys2Proof.Machine.State) (per : Nat) (src : List Nat) : Prop :=
      ∀ j, per * j < src.length → Sys2Proof.Claims.tsDue p (.read s.now ((src.drop (per * j)).take per)) (s.now + j)
        Sys2Proof.Machine.rankAnswer ∈ t.agenda
    (∀ (g blk pad : Nat), p.geom = some (g, blk, pad) → a ≠ b →
      let e := 2 ^ g
      let o := max 1 (max (Sys2Proof.Machine.ceilDiv ((Sys2Proof.Machine.touchedLines k1 pad).length) 4)
        (Sys2Proof.Machine.ceilDiv ((Sys2Proof.Machine.touchedLines k0 (blk * e)).length) 16))
      let next : Sys2Proof.Machine.Entry := ⟨s.now + o, Sys2Proof.Machine.rankAnswer, .ts s.focus.col⟩
      (Sys2Proof.Claims.tsPlaces s p p.h[a.val] p.h[b.val] pad (blk * e) 32 k1 k0 →
        let src := Sys2Proof.Machine.touchedLines k1 pad
        ∃ t x, Sys2Proof.Machine.exec (.tsZexp a b) s = .next t ∧ t.mem = s.mem ∧
          (t.col s.focus.col).tsRun = some x ∧ x.pc = p.pc + 1 ∧
          x.h = (p.h.set a.val (p.h[a.val] + BitVec.ofNat 32 pad)).set b.val
            (p.h[b.val] + BitVec.ofNat 32 (blk * e)) ∧
          ops t = ops s ++ [{ id := s.now, prog := p, work := .expand k1 k0 e blk pad, left := src, lines := []
                              due := s.now + 26, span := o, post := some (blk * e / 32) }] ∧
          reads t 4 src ∧ next ∈ t.agenda) ∧
      (Sys2Proof.Claims.tsPlaces s p p.h[b.val] p.h[a.val] pad (blk * e) 32 k1 k0 → d ≠ a → d ≠ b →
        let src := Sys2Proof.Machine.touchedLines k0 (blk * e)
        ∃ t x, Sys2Proof.Machine.exec (.tsZcmp d a b) s = .next t ∧ t.mem = s.mem ∧
          (t.col s.focus.col).tsRun = some x ∧ x.pc = p.pc + 1 ∧
          x.h = (p.h.set a.val (p.h[a.val] + BitVec.ofNat 32 (blk * e))).set b.val
            (p.h[b.val] + BitVec.ofNat 32 pad) ∧
          ops t = ops s ++ [{ id := s.now, prog := p, work := .compress d k1 k0 e blk pad, left := src, lines := []
                              due := s.now + 12, span := o, post := some (pad / 32) }] ∧
          reads t 16 src ∧ next ∈ t.agenda)) ∧
    (∀ n : Fin 524288, 1 ≤ n.val → n.val ≤ 64 → a ≠ b →
      let o := Sys2Proof.Machine.ceilDiv n.val 4
      let moved (t : Sys2Proof.Machine.State) (lat : Nat) (line : Nat → Nat × Nat) : Prop :=
        let group (j : Nat) := ((List.range n.val).filter fun i => i / 4 == j).map line
        t.mem = s.mem ∧
        (∃ x, (t.col s.focus.col).tsRun = some x ∧ x.pc = p.pc + 1 ∧
          x.h = (p.h.set a.val (p.h[a.val] + BitVec.ofNat 32 (256 * n.val))).set b.val
            (p.h[b.val] + BitVec.ofNat 32 (256 * n.val))) ∧
        ops t = ops s ++ (List.range o).map (fun j =>
          { id := s.now + j, prog := p, work := .move (group j), left := (group j).map (·.1), lines := []
            due := s.now + j + lat, span := 1, post := if j + 1 = o then some (8 * n.val) else none }) ∧
        (∀ j < o, Sys2Proof.Claims.tsDue p (.read (s.now + j) ((group j).map (·.1))) (s.now + j)
          Sys2Proof.Machine.rankAnswer ∈ t.agenda) ∧
        (⟨s.now + o, Sys2Proof.Machine.rankAnswer, .ts s.focus.col⟩ : Sys2Proof.Machine.Entry) ∈ t.agenda
      (Sys2Proof.Claims.tsPlaces s p p.h[a.val] p.h[b.val] (256 * n.val) (256 * n.val) 256 k1 k0 →
        ∃ t, Sys2Proof.Machine.exec (.tsMvlo a b n) s = .next t ∧
          moved t 26 fun i => (k1 / 256 + i, k0 / 256 + i)) ∧
      (Sys2Proof.Claims.tsPlaces s p p.h[b.val] p.h[a.val] (256 * n.val) (256 * n.val) 256 k1 k0 →
        ∃ t, Sys2Proof.Machine.exec (.tsMvhi a b n) s = .next t ∧
          moved t 12 fun i => (k0 / 256 + i, k1 / 256 + i)))

/-- R60, R261, R263: with the last of its lines granted, a TS data instruction has read its block as it stood: `mvlo` and
`mvhi` will write the lines as they are, `zexp` the expanded block, `zcmp` the compressed one, with the number of elements
dropped in D at once; each write is due in its cycle, and the count 2 cycles after the last. A write that is due asks the
layer 0 banks for its lines, and writes its layer 1 lines in that cycle; a line granted is written, byte for byte, and nothing
else of memory changes. -/
def Sys2Proof.Claims.TransformLinesAreReadAndWritten : Prop :=
  ∀ (x : Sys2Proof.Machine.TsPost) (s : Sys2Proof.Machine.State), s.focus.event = some (.tsDataPosting x) →
    Sys2Proof.Claims.noErrors s → Sys2Proof.Machine.Memory.wf s.mem = true →
    let due (at' rank : Nat) (y : Sys2Proof.Machine.TsPart) : Sys2Proof.Machine.Entry :=
      ⟨at', rank, .ev (.tsDataPosting { x with part := y })⟩
    (∀ op l o, x.part = .got op l → ((s.col x.col).tsOps.find? fun y => y.id == op) = some o → o.left = [l] →
      let lines := s.capture o.lines [l]
      let bytes (k n : Nat) : List (Sys2Proof.Byte × Bool) :=
        (List.range n).map fun i => (Sys2Proof.Machine.memGet (lines.get [] ((k + i) / 256)) (k + i), false)
      let written (t : Sys2Proof.Machine.State) (cells : List (Nat × Sys2Proof.Byte × Bool)) : Prop :=
        t.mem = s.mem ∧ (t.col x.col).tsOps = (s.col x.col).tsOps.filter (fun y => y.id != op) ∧
          (∀ g ∈ (Sys2Proof.Machine.writeGroups cells o.span).zipIdx,
            due (o.due + g.2) Sys2Proof.Machine.rankAnswer (.write g.1) ∈ t.agenda) ∧
          ∀ n, o.post = some n →
            due (o.due + o.span + 1) (Sys2Proof.Machine.rankCount - 1) (.post o.prog.bar n) ∈ t.agenda
      (∀ m, o.work = .move m → ∃ t, Sys2Proof.Machine.exec .tsDataPosting s = .next t ∧
        written t (m.flatMap fun y => Sys2Proof.Claims.cellsFrom (256 * y.2) (bytes (256 * y.1) 256))) ∧
      (∀ k1 k0 e b pad, o.work = .expand k1 k0 e b pad → ∃ t, Sys2Proof.Machine.exec .tsDataPosting s = .next t ∧
        written t (Sys2Proof.Claims.cellsFrom k0 (Sys2Proof.Machine.expandBlock e b pad (bytes k1 pad)))) ∧
      (∀ d k1 k0 e b pad, o.work = .compress d k1 k0 e b pad →
        let elem (k : Nat) : Nat :=
          (((bytes k0 (b * e)).drop (e * k)).take e).foldr (fun y n => y.1.toNat + 256 * n) 0
        let out := Sys2Proof.Machine.compressBlock e b pad elem
        ∃ t, Sys2Proof.Machine.exec .tsDataPosting s = .next t ∧
          written t (Sys2Proof.Claims.cellsFrom k1 (out.1.map fun y => (y, false))) ∧
          ∀ p, (s.col x.col).tsRun = some p → p.tid = x.tid → Sys2Proof.Machine.ixCtx p.ctx = x.ctx →
            (t.col x.col).tsRun = some { p with h := p.h.set d.val (BitVec.ofNat 32 out.2) })) ∧
    (∀ cells, x.part = .write cells → (∀ y ∈ cells, s.busyUntil (y.1 / 256 * 256) ≤ s.now) →
      ∃ t, Sys2Proof.Machine.exec .tsDataPosting s = .next t ∧ t.mem = s.mem ∧
        (∀ y ∈ cells, ∀ c, Sys2Proof.Machine.lineHome (y.1 / 256) = .l0 c → ∃ r ∈ (t.core c).reqs,
          r.line = y.1 / 256 ∧ r.wr = true ∧ r.cls = 3 ∧ ∃ l, y ∈ l ∧ r.who = .unit (.tsDataPosting { x with part := .put l })) ∧
        (∀ y ∈ cells, (∀ c, Sys2Proof.Machine.lineHome (y.1 / 256) ≠ .l0 c) → ∃ l, y ∈ l ∧
          due s.now (Sys2Proof.Machine.rankMemory + x.core.val) (.put l) ∈ t.agenda)) ∧
    (∀ cells, x.part = .put cells → (cells.map (·.1)).Nodup → (∀ y ∈ cells, s.awayPkg y.1 = none) →
      ∃ t, Sys2Proof.Machine.exec .tsDataPosting s = .next t ∧
        (∀ y ∈ cells, Sys2Proof.Machine.memGet t.mem y.1 = y.2.1) ∧
        ∀ a, (∀ y ∈ cells, a ≠ y.1) → Sys2Proof.Machine.memGet t.mem a = Sys2Proof.Machine.memGet s.mem a) ∧
    (∀ bar n, x.part = .post bar n → Sys2Proof.Machine.nameKind bar = 1 → Sys2Proof.Machine.namePkg bar = s.pkg.num →
      ∃ t r k, Sys2Proof.Machine.exec .tsDataPosting s = .next t ∧ t.mem = s.mem ∧
        (⟨s.now + Sys2Proof.Machine.countExtra x.core (Sys2Proof.Machine.nameColIx bar), r,
          .ev (.barrierCount bar n k)⟩ : Sys2Proof.Machine.Entry) ∈ t.agenda)

/-- R261: compression loses nothing that fits. A block of 64, 128 or 256 elements of 1, 2 or 4 bytes with no more than Z
non-zero elements comes back byte for byte from the expansion of its compressed form, which has PAD bytes and drops none. -/
def Obligations.CompressionKeepsWhatFits : Prop :=
  ∀ (g b pad : Nat) (elem : Nat → Nat), g ≤ 2 → b ∈ [64, 128, 256] → pad % 32 = 0 → max 32 (b / 8) ≤ pad →
    pad ≤ b / 8 + b * 2 ^ g → (∀ k, elem k < 256 ^ 2 ^ g) →
    ((List.range b).filter fun k => elem k != 0).length ≤ (pad - b / 8) / 2 ^ g →
      let out := Sys2Proof.Machine.compressBlock (2 ^ g) b pad elem
      out.1.length = pad ∧ out.2 = 0 ∧
      Sys2Proof.Machine.expandBlock (2 ^ g) b pad (out.1.map fun x => (x, false)) =
        (List.range b).flatMap fun k => (List.range (2 ^ g)).map fun i =>
          (BitVec.ofNat 8 (elem k / 2 ^ (8 * i)), false)

/-- R260, R263, R331: a program whose turn comes runs, its counters and geometry cleared: one that loads nothing issues its
first word two cycles later, one that loads its image has it in the instruction memory from its entry on, and issues once it
is read. An ended program leaves TS, and the next one's turn comes in the following cycle. -/
def Sys2Proof.Claims.TransformProgramsTakeTurns : Prop :=
  (∀ (c : Sys2Proof.Machine.ColIx) (p : Sys2Proof.Machine.TsProg) (l : List Sys2Proof.Machine.TsProg)
    (s : Sys2Proof.Machine.State), s.focus.event = some (.tsProgramTurn c) → (s.col c).tsRun = none →
    (s.col c).tsWait = p :: l → p.resumed = false →
      let runs (t : Sys2Proof.Machine.State) (n : Nat) : Prop := t.mem = s.mem ∧
        (t.col c).tsRun = some { p with begun := true, c := Vector.replicate 4 0, geom := none } ∧ (t.col c).tsWait = l ∧
        (⟨s.now + n, Sys2Proof.Machine.rankAnswer, .ts c⟩ : Sys2Proof.Machine.Entry) ∈ t.agenda
      (p.loadLen = 0 → ∃ t, Sys2Proof.Machine.exec .tsProgramTurn s = .next t ∧ runs t 2) ∧
      (∀ y, 0 < p.loadLen → Sys2Proof.Machine.locOf p.core p.image = some y → Sys2Proof.Claims.noErrors s →
        ∃ t, Sys2Proof.Machine.exec .tsProgramTurn s = .next t ∧
          runs t (22 + Sys2Proof.Machine.ceilDiv p.loadLen 256) ∧
          ∀ i < p.loadLen, (t.col c).tsMem.get 0 (p.entry + i) = BitVec.ofNat 32 (s.read (y.key + 4 * i) 4))) ∧
  (∀ (c : Sys2Proof.Machine.ColIx) (s : Sys2Proof.Machine.State), s.focus.event = some (.tsProgramEnd c) →
      ∃ t, Sys2Proof.Machine.exec .tsProgramEnd s = .next t ∧ t.mem = s.mem ∧ (t.col c).tsRun = none ∧
        (t.col c).tsWait = (s.col c).tsWait ∧
        (⟨s.now + 1, Sys2Proof.Machine.rankUnit, .ev (.tsProgramTurn c)⟩ : Sys2Proof.Machine.Entry) ∈ t.agenda)

/-! ### Loops and schedules -/

namespace Sys2Proof.Claims

open Sys2Proof Sys2Proof.Machine

/-- The started word in focus is a word of the task in its bank. -/
def ownWord (s : State) : Prop := ∃ w l, s.curQ.words = w :: l ∧ w.tid = s.cur.tid

/-- The started word in focus has faulted with this code at its micro-PC (R316), and no byte of memory has changed. -/
def wordFaulted (s t : State) (code : BitVec 16) : Prop :=
  t.mem = s.mem ∧ t.curQ.words = s.curQ.words ∧
    ∃ f, t.cx.faults = s.cx.faults ++ [f] ∧ f.code = code ∧ f.q = s.focus.q ∧ f.mpc = s.prog.mpc ∧ f.taken = false

/-- A word whose answer is ready: it keeps the answer until its engine pushes, and its engine may start another word in the
next cycle (R268). -/
def holding (m : Image) (q : Fin 13) (c : Fin 3) (l : List Word) : Image :=
  { m with
    eq := m.eq.set (eqIx q c).val
      { m.eqAt q c with cur := (m.eqAt q c).cur.map fun k => { k with waiting := false, answer := some l } }
    eng := m.eng.set q.val { m.eng[q.val] with free := m.cyc + 1, act := none } }

/-- The word in focus is performed in its start cycle, its queue's next word at the head; or its answer is ready for the push
of that cycle (R268). -/
def answering (s : State) (push : Option (Fin 16 × List Word)) (f : Image → Image) : State :=
  s.modCur fun m => match push with
    | none => leave (f m) s.focus.q s.focus.ctx
    | some (_, l) => holding (f m) s.focus.q s.focus.ctx l

/-- PERMITS of the loop table held; 0 with none loaded. -/
def permitsOf (l : Lp) : Nat := if l.st = 0 then 0 else l.table.toNat / 2 ^ 104 % 64

/-- What a LOOP word that reads or feeds its own LP leaves there and pushes (R270). -/
def loopAnswer (i : Instr) (l : Lp) (v : Word) : Option (Lp × Option (Fin 16 × List Word)) :=
  let to' (u : Bool) (r : Fin 16) (x : Word) : Option (Fin 16 × List Word) := if u = true then some (r, [x]) else none
  let give (n : Nat) : Option (Lp × Option (Fin 16 × List Word)) :=
    if l.permits + n ≤ permitsOf l then some ({ l with permits := l.permits + n }, none) else none
  match i with
  | .lpDone _ => give 1
  | .lpAddp _ _ => if 1 ≤ v.toNat ∧ v.toNat ≤ 32 then give v.toNat else none
  | .lpGen _ u r => some (l, to' u r (l.gen.setWidth 64))
  | .lpStat _ u r => some (l, to' u r (BitVec.ofNat 64 (l.st + 256 * l.notice.toNat)))
  | .lpPend _ u r => some (l, to' u r (if l.notice.getLsbD 0 = true then 1 else 0))
  | .lpPos _ _ u r => if v.toNat ≤ 5 then some (l, to' u r (BitVec.ofNat 64 (l.pos.getD v.toNat 0))) else none
  | .lpDrain _ => some (l, none)
  | .lpPermits _ u r => some (l, to' u r (BitVec.ofNat 64 l.permits))
  | .lpRec _ u r => some (l, to' u r l.last)
  | _ => none

/-- The code with which such a word faults (R131, R270, R327). -/
def loopMisuse (i : Instr) (l : Lp) (v : Word) : Option (BitVec 16) :=
  match i with
  | .lpDone _ => if permitsOf l < l.permits + 1 then some 0x0404 else none
  | .lpAddp _ _ =>
    if v.toNat = 0 ∨ 32 < v.toNat then some 0x0307
    else if permitsOf l < l.permits + v.toNat then some 0x0404 else none
  | .lpPos _ _ _ _ => if 5 < v.toNat then some 0x0307 else none
  | _ => none

/-- R135: cycles between a core and the coverage unit of a column. -/
def loopWay (core : CoreIx) (col : ColIx) : Nat :=
  if col.val = core.val / 8 then 4 else if col.val / 8 = core.val / 64 then 8 else 28

/-- The word in focus has sent its request, which reaches its unit as the entry says, and it waits for its answer with
micro-PC 1; its engine may start another word in the next cycle. -/
def asked (s t : State) (e : Entry) : Prop :=
  t.mem = s.mem ∧ t.prog.waiting = true ∧ t.prog.mpc = 1 ∧ t.curQ.words = s.curQ.words ∧ t.cur.q = s.cur.q ∧
    t.cur.eng[s.focus.q.val].free = s.cur.cyc + 1 ∧ e ∈ t.agenda

/-- Whether IQMASK names context c (R125). -/
def iqNamed (l : Lp) (c : Fin 3) : Bool := l.table.toNat.testBit (112 + c.val)

/-- Every IQ named has a free entry. -/
def iqFree (m : Image) : Prop := ∀ c : Fin 3, iqNamed m.lp c = true → (m.queue c 15).length < 32

/-- A record has been pushed to every IQ named, and to no other; no byte of memory has changed. -/
def handed (s t : State) (core : CoreIx) (bank : BankIx) (r : Word) : Prop :=
  t.mem = s.mem ∧ ∀ c : Fin 3, (t.img core bank).queue c 15 =
    (s.img core bank).queue c 15 ++ (if iqNamed (s.img core bank).lp c = true then [r] else [])

/-- An LP that deals: loaded, with no claim out, not refused. -/
def dealing (l : Lp) : Prop := l.st = 1 ∧ l.inFlight = false ∧ l.refused = false

/-- n bytes of the memory of t from k are those of v, and every other byte is that of s. -/
def bytesWritten (s t : State) (k n v : Nat) : Prop :=
  ∀ a, memGet t.mem a = if k ≤ a ∧ a < k + n then BitVec.ofNat 8 (v / 256 ^ (a - k)) else memGet s.mem a

/-- A coverage unit has taken an operation, with which it will tell a task, or a word of another package, an event (R135). -/
def told (t : State) (col : ColIx) (who : Option Nat) (rank : Nat) (e : Event) : Prop :=
  ∃ j ∈ (t.col col).covJobs, (who, rank, e) ∈ j.outs

/-- An event is due somewhere on the agenda. -/
def coming (t : State) (rank : Nat) (e : Event) : Prop := ∃ due, (⟨due, rank, .ev e⟩ : Entry) ∈ t.agenda

end Sys2Proof.Claims

/-- R87, R131, R268, R270: the LOOP words that read or feed their own LP take their values at start, and are performed then;
those that push have their answer ready for the push of that cycle; `lp.drain` completes once it starts. Permits beyond
PERMITS, an n outside 1 to 32 and a level above 5 fault with no effect. -/
def Sys2Proof.Claims.LoopWordsAnswerAtTheirStart : Prop :=
  ∀ (i : Sys2Proof.Instr) (s : Sys2Proof.Machine.State), s.focus.role = .perform →
    (∀ l push, Sys2Proof.Claims.loopAnswer i s.cur.lp (s.popped 0) = some (l, push) →
      Sys2Proof.Machine.exec i s = .next (Sys2Proof.Claims.answering s push fun m => { m with lp := l })) ∧
    (∀ c, Sys2Proof.Claims.loopMisuse i s.cur.lp (s.popped 0) = some c → Sys2Proof.Claims.ownWord s →
      ∃ t, Sys2Proof.Machine.exec i s = .next t ∧ Sys2Proof.Claims.wordFaulted s t c ∧ t.cur.lp = s.cur.lp)

/-- R87, R268: in a cycle's pushes the LOOP engine comes before the SYNC engine, and each queue's head word that has an answer
ready pushes it whole when its queue has room, and leaves its engine queue; a full queue holds it. A word of a task that does
not run waits. -/
def Sys2Proof.Claims.ReadyAnswersArePushed : Prop :=
  (∀ (core : Sys2Proof.Machine.CoreIx) (bank : Sys2Proof.Machine.BankIx) (s : Sys2Proof.Machine.State) (due rank : Nat)
    (rest : List Sys2Proof.Machine.Entry),
    s.agenda = ⟨due, rank, .bank core bank .push⟩ :: rest → due ≤ s.now →
    let run := (s.bank core bank).runs
    let all (q : Fin 13) (m : Sys2Proof.Machine.Image) :=
      ((m.pushHeld run q 0).pushHeld run q 1).pushHeld run q 2
    Sys2Proof.Machine.step s = .next (({ s with agenda := rest } : Sys2Proof.Machine.State).modImg core bank fun m =>
      all 12 (all 11 m))) ∧
  (∀ (m : Sys2Proof.Machine.Image) (run : Bool) (q : Fin 13) (c : Fin 3) (w : Sys2Proof.Machine.EngWord)
    (l : List Sys2Proof.Machine.EngWord) (k : Sys2Proof.Machine.Cur) (r : Fin 16) (vals : List Sys2Proof.Word),
    (m.eqAt q c).words = w :: l → (m.eqAt q c).cur = some k → k.waiting = false → k.answer = some vals →
    Sys2Proof.Machine.pushOf w.instr = some r →
    ((m.holds w.tid = false ∨ run = true) → (m.queue c r).length + vals.length ≤ Sys2Proof.Claims.depth r →
      (m.pushHeld run q c).queue c r = m.queue c r ++ vals ∧ ((m.pushHeld run q c).eqAt q c).words = l ∧
      (m.pushHeld run q c).ctx.map (·.g) = m.ctx.map (·.g) ∧ (m.pushHeld run q c).lp = m.lp) ∧
    ((m.holds w.tid = false ∨ run = true) → vals ≠ [] → m.queue c r ≠ [] →
      Sys2Proof.Claims.depth r ≤ (m.queue c r).length →
      (m.pushHeld run q c).queue c r = m.queue c r ∧ ((m.pushHeld run q c).eqAt q c).words = w :: l) ∧
    (m.holds w.tid = true → run = false → m.pushHeld run q c = m))

/-- R268 to R272, R135: `lp.ldtab` reads its table at start and the LP holds it at the load latency; `lp.schedw`, `lp.schedr`,
`lp.cov` and `lp.covrd` send their request to the coverage unit and wait. A second `lp.ldtab` faults with 0x0405, and a
coverage word without a map with 0x0406. -/
def Sys2Proof.Claims.LoopWordsAskTheirUnits : Prop :=
  ∀ (p : Sys2Proof.Pred) (q r : Fin 16) (u x : Bool) (s : Sys2Proof.Machine.State), s.focus.role = .perform →
    let due (col : Sys2Proof.Machine.ColIx) (a : Sys2Proof.Machine.Act) : Sys2Proof.Machine.Entry :=
      ⟨s.now + Sys2Proof.Claims.loopWay s.focus.core col, 
        Sys2Proof.Machine.rankUnit + 100 + Sys2Proof.Machine.covPort s.focus.core col, a⟩
    let who := s.asker (if u = true then some r else none)
    (∀ l, Sys2Proof.Claims.ownPlace s (s.popped 0) 0 1 64 64 l → s.latent = [] → s.poison = [] → s.cur.lp.st = 0 →
      s.cur.lp.loadAt = none →
      ∃ t, Sys2Proof.Machine.exec (.lpLdtab p q) s = .next t ∧ t.mem = s.mem ∧ t.prog.part = [s.read l.key 64] ∧
        t.prog.waiting = true ∧ t.curQ.words = s.curQ.words ∧
        t.cur.lp = { s.cur.lp with
          loadAt := some (s.cur.cyc + (Sys2Proof.Claims.latencyOf l.layer + Sys2Proof.Claims.wayOf s l)) }) ∧
    (s.cur.lp.st ≠ 0 → Sys2Proof.Claims.ownWord s →
      ∃ t, Sys2Proof.Machine.exec (.lpLdtab p q) s = .next t ∧ Sys2Proof.Claims.wordFaulted s t 0x0405) ∧
    (∀ l, Sys2Proof.Machine.isGeneric (s.popped 0) = true →
      Sys2Proof.Machine.locOf s.focus.core (s.popped 0) = some l → l.layer = 1 → l.off % 8 = 0 →
      s.capFault l 64 s.view = none →
      (∃ t, Sys2Proof.Machine.exec (.lpSchedw p q) s = .next t ∧
        Sys2Proof.Claims.asked s t (due l.colIx (.ev (.rewriteWrite (BitVec.ofNat 64 l.key) (s.prog.popped.drop 1)
          (s.asker none))))) ∧
      (∃ t, Sys2Proof.Machine.exec (.lpSchedr p q u r x) s = .next t ∧
        Sys2Proof.Claims.asked s t (due l.colIx (.cov l.colIx (.readSched (BitVec.ofNat 64 l.key) x who))))) ∧
    (∀ tab map col, s.ownMap = some (tab, map, col) →
      ((s.popped 0).getLsbD 63 = false → (Sys2Proof.Machine.boxOf (s.popped 0)).cnt.contains 0 = false →
        ∃ t, Sys2Proof.Machine.exec (.lpCov p q u r) s = .next t ∧
          Sys2Proof.Claims.asked s t (due col (.cov col
            (.countBox (Sys2Proof.Machine.mapBits tab map (Sys2Proof.Machine.boxOf (s.popped 0))) who)))) ∧
      ((s.popped 0).toNat % 8 = 0 → 8 * (s.popped 0).toNat < tab.cells 0 * tab.cells 1 * tab.cells 2 →
        ∃ t, Sys2Proof.Machine.exec (.lpCovrd p q u r) s = .next t ∧
          Sys2Proof.Claims.asked s t (due col (.cov col (.readMap (map + (s.popped 0).toNat) who))))) ∧
    (s.ownMap = none → Sys2Proof.Claims.ownWord s →
      (∃ t, Sys2Proof.Machine.exec (.lpCov p q u r) s = .next t ∧ Sys2Proof.Claims.wordFaulted s t 0x0406) ∧
      ∃ t, Sys2Proof.Machine.exec (.lpCovrd p q u r) s = .next t ∧ Sys2Proof.Claims.wordFaulted s t 0x0406)

/-- R131, R133, R138, R141, R142: an LP with a permit and room in every named IQ deals one record and spends one permit. A
remnant holds only cells left in REMAIN and takes exactly them away; without a schedule block a whole tile is dealt, and
with one its claim is sent. Without a permit or room a remnant waits. A walk that is over exhausts the LP, a pending rewrite
stops it at its boundary point, and the end record spends no permit. -/
def Sys2Proof.Claims.LoopProcessorsDealTheirRecords : Prop :=
  ∀ (core : Sys2Proof.Machine.CoreIx) (bank : Sys2Proof.Machine.BankIx) (s : Sys2Proof.Machine.State),
    let m := s.img core bank
    let lp := m.lp
    (s.focus.event = some (.lpDealRecord core bank) → Sys2Proof.Claims.dealing lp →
      (∀ b, lp.remain ≠ [] → lp.tile = some b → 0 < lp.permits → Sys2Proof.Claims.iqFree m →
        ∃ t x, Sys2Proof.Machine.exec .lpDealRecord s = .next t ∧
          (let y := (t.img core bank).lp
           let cells := (Sys2Proof.Machine.boxCells x).map (Sys2Proof.Machine.cellIx b)
           let r := Sys2Proof.Machine.recordOf
             { lo := (List.range 3).map fun d => b.low d + x.low d, cnt := x.cnt }
           cells ≠ [] ∧ (∀ i ∈ cells, i ∈ lp.remain) ∧ y.remain = lp.remain.filter (fun i => !(cells.contains i)) ∧
             y.permits = lp.permits - 1 ∧ y.last = r ∧ Sys2Proof.Claims.handed s t core bank r)) ∧
      (lp.remain ≠ [] → (lp.permits = 0 ∨ ¬ Sys2Proof.Claims.iqFree m) →
        Sys2Proof.Machine.exec .lpDealRecord s = .next s) ∧
      (∀ x rest, lp.remain = [] → lp.atBoundary = false → lp.walk = x :: rest → 0 < lp.permits →
        Sys2Proof.Machine.blkSched m.blk = 0 → Sys2Proof.Claims.iqFree m →
        ∃ t, Sys2Proof.Machine.exec .lpDealRecord s = .next t ∧
          Sys2Proof.Claims.handed s t core bank (Sys2Proof.Machine.recordOf x.box) ∧
          (t.img core bank).lp.walk = rest ∧ (t.img core bank).lp.pos = x.pos ∧
          (t.img core bank).lp.permits = lp.permits - 1 ∧
          (t.img core bank).lp.last = Sys2Proof.Machine.recordOf x.box) ∧
      (∀ x rest key col l, lp.remain = [] → lp.atBoundary = false → lp.walk = x :: rest → 0 < lp.permits →
        m.home core = some (key, col) →
        Sys2Proof.Machine.locOf core (Sys2Proof.Machine.tableOf lp.table).covmap = some l →
        s.capFault l 1 m.startedAt = none →
        ∃ t, Sys2Proof.Machine.exec .lpDealRecord s = .next t ∧ t.mem = s.mem ∧
          (t.img core bank).lp.inFlight = true ∧ (t.img core bank).lp.permits = lp.permits ∧
          (⟨s.now + Sys2Proof.Claims.loopWay core col, Sys2Proof.Machine.rankUnit + core.val % 64,
            .ev (.coverageClaim key m.tid x.box)⟩ : Sys2Proof.Machine.Entry) ∈ t.agenda) ∧
      (lp.remain = [] → lp.walk = [] →
        ∃ t, Sys2Proof.Machine.exec .lpDealRecord s = .next t ∧ t.mem = s.mem ∧
          (t.img core bank).lp = { lp with st := 3 }) ∧
      (lp.atBoundary = true →
        ∃ t, Sys2Proof.Machine.exec .lpDealRecord s = .next t ∧ t.mem = s.mem ∧
          (t.img core bank).lp = { lp with st := 2 })) ∧
    (s.focus.event = some (.endRecordPush core bank) → lp.st = 3 → Sys2Proof.Claims.iqFree m →
      (Sys2Proof.Machine.blkSched m.blk = 0 ∨ lp.notice.getLsbD 2 = true) →
      ∃ t, Sys2Proof.Machine.exec .endRecordPush s = .next t ∧
        Sys2Proof.Claims.handed s t core bank (BitVec.ofNat 64 (2 ^ 63)) ∧
        (t.img core bank).lp = { lp with st := 4 })

/-- R133, R136, R138, R139, R141: what reaches the LP of a task in its bank. A claim's answer is placed in REMAIN; a
registration's starts the walk under the ACTIVE schedule, or refuses; a pending notice sets its mark and clears the commit
mark; a commit notice empties REMAIN and starts the walk again under the new schedule; a completion notice is kept. -/
def Sys2Proof.Claims.NoticesReachTheLoopProcessor : Prop :=
  ∀ (tid : Nat) (core : Sys2Proof.Machine.CoreIx) (bank : Sys2Proof.Machine.BankIx) (s : Sys2Proof.Machine.State),
    s.bankOf tid = some (core, bank) →
    let m := s.img core bank
    let walk (v : BitVec 256) := Sys2Proof.Machine.walkOf (Sys2Proof.Machine.tableOf m.lp.table) v m.member m.members
    let after' (i : Sys2Proof.Instr) (f : Sys2Proof.Machine.Lp → Prop) : Prop :=
      ∃ t, Sys2Proof.Machine.exec i s = .next t ∧ t.mem = s.mem ∧ f (t.img core bank).lp
    (∀ b cells, s.focus.event = some (.claimAnswer tid b cells) → after' .claimAnswer fun l =>
      l = { m.lp with inFlight := false, tile := some b, remain := cells, walk := m.lp.walk.drop 1 }) ∧
    (∀ v, s.focus.event = some (.registrationAnswer tid true v) → after' .registrationAnswer fun l =>
      l.inFlight = false ∧ l.refused = false ∧ l.st = 1 ∧ l.sched = Sys2Proof.Machine.wordsSched v ∧ l.remain = [] ∧
        l.walk = walk l.sched) ∧
    (∀ v, s.focus.event = some (.registrationAnswer tid false v) → after' .registrationAnswer fun l =>
      l = { m.lp with inFlight := false, refused := true }) ∧
    (s.focus.event = some (.pendingNotice tid) → after' .pendingNotice fun l =>
      l.notice.getLsbD 0 = true ∧ l.notice.getLsbD 1 = false ∧ l.remain = m.lp.remain ∧ l.permits = m.lp.permits) ∧
    (∀ v, s.focus.event = some (.commitNotice tid v) → after' .commitNotice fun l =>
      l.notice.getLsbD 0 = false ∧ l.notice.getLsbD 1 = true ∧ l.st = 1 ∧ l.sched = Sys2Proof.Machine.wordsSched v ∧
        l.remain = [] ∧ l.permits = m.lp.permits ∧ l.walk = walk l.sched) ∧
    (s.focus.event = some (.completionNotice tid) → after' .completionNotice fun l =>
      l = { m.lp with notice := m.lp.notice ||| 4 })

/-- R133, R136, R137, R139, R141, R142, R370: the coverage unit. A claim sets exactly the bits of its cells and answers with
the cells whose bits were 0; a registration joins the kernel's entry, or allocates it, and is answered with ACTIVE; a
rewrite writes PENDING with VALID 1, and one that breaks R129 writes nothing and is answered with 0x0B01; a commit copies
PENDING into ACTIVE, counts GEN up and clears VALID; and a complete dealing frees the entry and tells every member. -/
def Sys2Proof.Claims.CoverageUnitsGrantAndCommit : Prop :=
  ∀ (k : Sys2Proof.Word) (s : Sys2Proof.Machine.State), Sys2Proof.Machine.Memory.wf s.mem = true → s.latent = [] →
    s.poison = [] →
    let col := Sys2Proof.Machine.schedCol k
    let fits (t : BitVec 512) (v : BitVec 256) : Bool :=
      Sys2Proof.Machine.schedFree v && Sys2Proof.Machine.schedFits (Sys2Proof.Machine.tableOf t) v (s.readSched k false)
    (∀ e tid b map, (s.col col).covAt k = some e → s.focus.event = some (.coverageClaim k tid b) →
      Sys2Proof.Machine.mapKey (Sys2Proof.Machine.colCore col 0) (Sys2Proof.Machine.tableOf e.table) = some map →
      let bits := Sys2Proof.Machine.mapBits (Sys2Proof.Machine.tableOf e.table) map b
      ∃ t, Sys2Proof.Machine.exec .coverageClaim s = .next t ∧
        (∀ a n, n < 8 → (Sys2Proof.Machine.memGet t.mem a).getLsbD n =
          ((Sys2Proof.Machine.memGet s.mem a).getLsbD n || bits.contains (a, n))) ∧
        Sys2Proof.Claims.told t col (some tid) Sys2Proof.Machine.rankRead (.claimAnswer tid b
          ((bits.zipIdx.filter fun x => !((Sys2Proof.Machine.memGet s.mem x.1.1).getLsbD x.1.2)).map (·.2)))) ∧
    (∀ tid m, s.focus.event = some (.coverageRegistration k tid) → s.taskImg tid = some m →
      (∀ t, m.task = some t → (s.col col).covRefused.contains (s.launchKey t) = false) →
      let new : Sys2Proof.Machine.Member := ⟨tid, m.member, false, false, false⟩
      let joined (l : List Sys2Proof.Machine.Member) : Prop :=
        ∃ t e, Sys2Proof.Machine.exec .coverageRegistration s = .next t ∧ t.mem = s.mem ∧
          (t.col col).covAt k = some e ∧ e.members = l ∧
          Sys2Proof.Claims.told t col (some tid) Sys2Proof.Machine.rankRead
            (.registrationAnswer tid true (Sys2Proof.Machine.schedWords (s.readSched k false)))
      (∀ e, (s.col col).covAt k = some e → joined ((e.members.filter fun x => x.index != m.member) ++ [new])) ∧
      ((s.col col).covAt k = none → (s.col col).cov.length < 16 → fits m.lp.table (s.readSched k false) = true →
        (s.readSched k true).getLsbD 112 = false → joined [new]) ∧
      ((s.col col).covAt k = none → 16 ≤ (s.col col).cov.length →
        Sys2Proof.Machine.exec .coverageRegistration s = .next (s.schedule (s.now + 1) (Sys2Proof.Machine.rankUnit + 64)
          (.ev (.coverageRegistration k tid))))) ∧
    (∀ body a, s.focus.event = some (.rewriteWrite k body a) →
      let v := Sys2Proof.Machine.wordsSched body
      let good : Bool := Sys2Proof.Machine.schedFree v && ((s.col col).covAt k).all fun e => fits e.table v
      (good = true → ∃ t, Sys2Proof.Machine.exec .rewriteWrite s = .next t ∧
        Sys2Proof.Claims.bytesWritten s t (k.toNat + 32) 32 (v.toNat % 2 ^ 112 + 2 ^ 112) ∧
        Sys2Proof.Claims.told t col (if a.via = none then some a.tid else none) Sys2Proof.Machine.rankAnswer
          (.syncAnswer a [] none) ∧
        ∀ e, (s.col col).covAt k = some e → ∀ x ∈ e.members,
          Sys2Proof.Claims.told t col (some x.tid) Sys2Proof.Machine.rankRead (.pendingNotice x.tid)) ∧
      (good = false → ∃ t, Sys2Proof.Machine.exec .rewriteWrite s = .next t ∧ t.mem = s.mem ∧
        (t.col col).cov = (s.col col).cov ∧
        Sys2Proof.Claims.told t col (if a.via = none then some a.tid else none) Sys2Proof.Machine.rankAnswer
          (.syncAnswer a [] (some 0x0B01)))) ∧
    (∀ e, s.focus.event = some (.rewriteCommit k) → (s.col col).covAt k = some e → e.pending = true →
      ∃ t, Sys2Proof.Machine.exec .rewriteCommit s = .next t ∧
        (t.readSched k false).toNat = (s.readSched k true).toNat % 2 ^ 112 +
          ((s.readSched k false).toNat / 2 ^ 112 % 2 ^ 16 + 1) % 2 ^ 16 * 2 ^ 112 ∧
        (t.readSched k true).toNat / 2 ^ 112 % 2 ^ 16 = 0 ∧
        (∀ a, a < k.toNat ∨ k.toNat + 64 ≤ a → Sys2Proof.Machine.memGet t.mem a = Sys2Proof.Machine.memGet s.mem a) ∧
        ∀ x ∈ e.members, Sys2Proof.Claims.told t col (some x.tid) Sys2Proof.Machine.rankRead
          (.commitNotice x.tid (Sys2Proof.Machine.schedWords (t.readSched k false)))) ∧
    (∀ e, s.focus.event = some (.dealingComplete k) → (s.col col).covAt k = some e → e.pending = false →
      ∃ t, Sys2Proof.Machine.exec .dealingComplete s = .next t ∧ t.mem = s.mem ∧ (t.col col).covAt k = none ∧
        ∀ x ∈ e.members, Sys2Proof.Claims.coming t Sys2Proof.Machine.rankRead (.completionNotice x.tid))

/-- R61, R135: a coverage unit performs one operation at a time. With the last line of an operation accepted by the layer 1
port, what it answers and tells is on its way, and it ends, once its cycles are over; then the next begins. -/
def Sys2Proof.Claims.CoverageUnitsPerformOneOperationAtATime : Prop :=
  ∀ (col : Sys2Proof.Machine.ColIx) (s : Sys2Proof.Machine.State) (due rank : Nat) (rest : List Sys2Proof.Machine.Entry)
    (j : Sys2Proof.Machine.CovJob) (more : List Sys2Proof.Machine.CovJob) (x : Sys2Proof.Machine.CovMsg),
    s.agenda = ⟨due, rank, .cov col x⟩ :: rest → due ≤ s.now → (s.col col).covJobs = j :: more →
    (∀ l, x = .served l → j.lines = [l] → ∃ t, Sys2Proof.Machine.step s = .next t ∧ t.mem = s.mem ∧
      (⟨s.now + j.tail, Sys2Proof.Machine.rankRead, .cov col .finished⟩ : Sys2Proof.Machine.Entry) ∈ t.agenda ∧
      (t.col col).covJobs.drop 1 = more ∧
      ∀ y ∈ j.outs, (⟨s.now + j.tail + (match y.1 with
        | some tid => s.covWay col tid
        | none => 0), y.2.1, .ev y.2.2⟩ : Sys2Proof.Machine.Entry) ∈ t.agenda) ∧
    (∀ l, x = .served l → j.lines ≠ [l] → l ∈ j.lines → ∃ t, Sys2Proof.Machine.step s = .next t ∧ t.mem = s.mem ∧
      t.agenda = rest ∧ (t.col col).covJobs = { j with lines := j.lines.erase l } :: more) ∧
    (x = .finished → ∃ t, Sys2Proof.Machine.step s = .next t ∧ t.mem = s.mem ∧ (t.col col).covJobs = more)

/-! ### Synchronisation words -/

namespace Sys2Proof.Claims

open Sys2Proof Sys2Proof.Machine

/-- The task's IRREV is 1 (R361). -/
def irrevocable (m : Image) : Image := { m with task := m.task.map fun t => { t with irrev := true } }

/-- A context of an image holds one more event. -/
def eventHeld (c : Fin 3) (e : Held) (m : Image) : Image :=
  m.modCtx c fun x => { x with events := x.events ++ [e] }

/-- R269: cycles between a core and the BU of a column. -/
def barrierWay (core : CoreIx) (col : ColIx) : Nat :=
  if col.val = core.val / 8 then 2 else if col.val / 8 = core.val / 64 then 6 else 26

/-- R269: cycles between a core and a dealer. -/
def dealerLink (core : CoreIx) (d : DieIx) : Nat := if d.val = core.val / 64 then 2 else 24

/-- The operation that a barrier word sends (R276, R277), from the entries it has popped after its name. -/
def barrierOp (i : Instr) (s : State) : Option BarOp :=
  let arm (coll f : Bool) : Option BarOp :=
    let e := (s.popped 1).toNat
    if e < 2 ^ 33 ∧ (f = true → futNameFault (s.popped 2) = none) then
      some (.arm (BitVec.ofNat 32 e) coll (e.testBit 32) (if f = true then s.popped 2 else 0) (some (s.asker none)))
    else none
  match i with
  | .sArm _ _ f => arm false f
  | .sArmc _ _ f => arm true f
  | .sDisarm _ _ => some (.disarm (some (s.asker none)))
  | .sSig _ _ => if (s.popped 1).toNat < 2 ^ 32 then some (.count (s.popped 1).toNat (some (s.asker none))) else none
  | .sWait _ _ u r => some (.wait (.wait (s.asker (if u = true then some r else none))))
  | .sWaitn _ _ => if s.cx.notes < 8 then some (.wait (.notify (s.asker none))) else none
  | .sBstat _ _ u r => some (.wait (.status (s.asker (if u = true then some r else none))))
  | _ => none

/-- Whether a word pops a barrier's name first (R276). -/
def popsBarrier (i : Instr) : Bool :=
  match i with
  | .sArm .. | .sArmc .. | .sDisarm .. | .sSig .. | .sWait .. | .sWaitn .. | .sBstat .. => true
  | _ => false

/-- The event that an operation is at its BU. -/
def opEvent (n : Word) (op : BarOp) : Event :=
  match op with
  | .arm t c a f k => .barrierArm n t c a f k
  | .disarm k => .barrierDisarm n k
  | .count c k => .barrierCount n c k
  | .wait w => .barrierWait n w

/-- A request of the word in focus can set out (R120): its target is on the core's own die, or the word waits for no unit of
weight. -/
def freeToGo (s : State) (n : Word) : Prop :=
  (namePkg n = s.pkg.num ∧ nameDie n = coreDie s.focus.core) ∨ s.prog.item ≠ none ∨
    ∀ w ∈ s.curQ.words.head?, w.owed = false

/-- What a future word sends to a dealer (R278), and the name its operation is on: `s.fjoin` to that of its record, the others
to that of a future of this package. -/
def futureAsk (i : Instr) (s : State) : Option (Word × DieIx × DealerMsg) :=
  let n := s.popped 0
  let a := s.asker none
  let to' (op : FutOp) : Option (Word × DieIx × DealerMsg) :=
    if namePkg n = s.pkg.num ∧ s.futPlace n = none then some (n, nameDie n, .reach s.now n op) else none
  match i with
  | .sFnew _ _ => to' (.create (some a))
  | .sFres _ _ => if (s.popped 1).toNat < 2 ^ 32 then to' (.resolve (BitVec.ofNat 32 (s.popped 1).toNat) (some a)) else none
  | .sFpeek _ _ u r => to' (.peek (s.asker (if u = true then some r else none)))
  | .sFjoin _ _ =>
    let ref := (s.popped 0).toNat
    let f := s.popped 1
    if ref < 2 ^ 29 ∧ ref / 2 ^ 23 = s.pkg.num ∧ (namePkg f = s.pkg.num → s.futPlace f = none) then
      some (f, Fin.ofNat 4 (ref / 2 ^ 19 % 4), .join s.now (BitVec.ofNat 32 ref) f a)
    else none
  | _ => none

/-- The future that a word names (R278). -/
def futureOf (i : Instr) (s : State) : Option Word :=
  match i with
  | .sFnew _ _ | .sFpeek _ _ _ _ => some (s.popped 0)
  | .sFres _ _ => if (s.popped 1).toNat < 2 ^ 32 then some (s.popped 0) else none
  | .sFjoin _ _ => if (s.popped 0).toNat < 2 ^ 29 then some (s.popped 1) else none
  | _ => none

/-- What a scope word sends to the dealer of its die (R282). -/
def scopeAsk (i : Instr) (s : State) : Option DealerMsg :=
  let to' (u : Bool) (r : Fin 16) : Asker := s.asker (if u = true then some r else none)
  match i with
  | .sQopen _ x => some (.qopen x (s.asker none))
  | .sQclose _ x => some (.qclose x (s.asker none))
  | .sWaitq _ u r x => some (.waitq x (to' u r))
  | .sQstat _ u r x => some (.qstat x (to' u r))
  | .sQsplit _ _ =>
    let u := (s.popped 1).toNat
    if 0 < s.weight ∧ (s.popped 0).toNat < 2 ^ 29 ∧ 1 ≤ u ∧ u ≤ 2 ^ 31 then
      some (.qsplit (BitVec.ofNat 32 (s.popped 0).toNat) u (s.asker none))
    else none
  | .sQret _ _ => if 0 < s.weight then some (.qret (s.popped 0).toNat (s.asker none)) else none
  | _ => none

end Sys2Proof.Claims

/-- R268, R282 to R285: the SYNC words performed at start. `s.halt`, `s.npr` and `s.nprend` have acted at issue;
`s.time` has the group time ready for the pushes of its start cycle; `s.uev` gives its event to a context that takes
events and holds fewer than 8, is discarded by one that takes none, and keeps micro-PC 1 before a full one; `s.yield`
stops the task for a class at least its own; `s.qsplit` and `s.qret` do nothing for a task without weight. The model's
choices in it: log entry 59. -/
def Obligations.SyncWordsPerformedAtStart : Prop :=
  ∀ (p : Sys2Proof.Pred) (q r : Fin 16) (s : Sys2Proof.Machine.State), s.focus.role = .perform →
    let done := Sys2Proof.Claims.answering s none id
    Sys2Proof.Machine.exec (.sHalt p) s = .next done ∧
    (∀ x, Sys2Proof.Machine.exec (.sNpr p x) s = .next done) ∧
    Sys2Proof.Machine.exec (.sNprend p) s = .next done ∧
    (let ns := s.groupNs
     let push := some (r, [BitVec.ofNat 64 (ns / 10 ^ 9 % 2 ^ 48), BitVec.ofNat 64 (ns % 10 ^ 9)])
     Sys2Proof.Machine.exec (.sTime p r) s = .next (Sys2Proof.Claims.answering s push id)) ∧
    (∀ (c : Fin 4) (e : Fin 16384), c.val < 3 →
      let to' : Fin 3 := Fin.ofNat 3 c.val
      let x := s.cur.ctx[to'.val]
      let takes := x.ended = false ∧ (s.bank s.focus.core s.focus.bank).trapEntry ≠ 0
      (¬ takes → Sys2Proof.Machine.exec (.sUev p c e) s = .next done) ∧
      (takes → x.events.length < 8 → Sys2Proof.Machine.exec (.sUev p c e) s =
        .next (Sys2Proof.Claims.answering s none
          (Sys2Proof.Claims.eventHeld to' { code := 1, addr := BitVec.ofNat 64 e.val }))) ∧
      (takes → 8 ≤ x.events.length → ∃ t, Sys2Proof.Machine.exec (.sUev p c e) s = .next t ∧ t.mem = s.mem ∧
        t.prog = { s.prog with mpc := 1 } ∧ t.curQ.words = s.curQ.words ∧ t.cur.ctx = s.cur.ctx)) ∧
    ((s.core s.focus.core).hand = [] → Sys2Proof.Machine.exec (.sYield p) s = .next done) ∧
    (∀ h l t, (s.core s.focus.core).hand = h :: l → s.cur.task = some t →
      Sys2Proof.Machine.exec (.sYield p) s = .next (if t.cls ≤ h.cls then
        done.schedule s.now Sys2Proof.Machine.rankStop (.ev (.taskStop s.focus.core s.focus.bank .yield)) else done)) ∧
    (s.weight = 0 → Sys2Proof.Machine.exec (.sQret p q) s =
      .next (Sys2Proof.Claims.answering s none Sys2Proof.Claims.irrevocable)) ∧
    (s.weight = 0 → (s.popped 0).toNat < 2 ^ 29 → 1 ≤ (s.popped 1).toNat → (s.popped 1).toNat ≤ 2 ^ 31 →
      Sys2Proof.Machine.exec (.sQsplit p q) s =
        .next (Sys2Proof.Claims.answering s none Sys2Proof.Claims.irrevocable))

/-- R269, R276, R277: a barrier word of a name of this package sends its operation to the BU of the barrier, and waits for
the answer; `s.wait` has micro-PC 1 from its arrival there. A name of another KIND faults the word with 0x0904, and a ninth notification of a context keeps micro-PC 1. -/
def Sys2Proof.Claims.BarrierWordsAskTheirUnit : Prop :=
  ∀ (i : Sys2Proof.Instr) (s : Sys2Proof.Machine.State), s.focus.role = .perform →
    Sys2Proof.Claims.popsBarrier i = true →
    let n := s.popped 0
    let col := Sys2Proof.Machine.nameColIx n
    (∀ op, Sys2Proof.Machine.barNameFault n = none → Sys2Proof.Machine.namePkg n = s.pkg.num →
      Sys2Proof.Claims.barrierOp i s = some op →
      ((∃ c a, op = .count c a) → Sys2Proof.Claims.freeToGo s n) →
      ∃ t r, Sys2Proof.Claims.asked s t
          ⟨s.now + Sys2Proof.Claims.barrierWay s.focus.core col, r, .ev (Sys2Proof.Claims.opEvent n op)⟩ ∧
        Sys2Proof.Machine.exec i s = .next
          (match i with
          | .sWait _ _ _ _ => t.setProg { t.prog with mpc := 0 }
          | _ => t)) ∧
    (n.toNat % 4 ≠ 1 → Sys2Proof.Claims.ownWord s →
      ∃ t, Sys2Proof.Machine.exec i s = .next t ∧ Sys2Proof.Claims.wordFaulted s t 0x0904) ∧
    (∀ p q, i = .sWaitn p q → Sys2Proof.Machine.barNameFault n = none → 8 ≤ s.cx.notes →
      ∃ t, Sys2Proof.Machine.exec i s = .next t ∧ t.mem = s.mem ∧ t.prog = { s.prog with mpc := 1 } ∧
        t.cur.ctx = s.cur.ctx ∧ t.agenda = s.agenda)

/-- R269, R278, R282, R374: a future word sends its operation to the dealer of the future's word (`s.fjoin` to that of the
record), and a scope word to the dealer of the core's die; each then waits for its answer. A future name of another KIND faults
the word with 0x0A06, and a future of a package that no route leads to faults it with 0x0F01. -/
def Sys2Proof.Claims.FutureAndScopeWordsAskTheirDealer : Prop :=
  ∀ (i : Sys2Proof.Instr) (s : Sys2Proof.Machine.State), s.focus.role = .perform →
    (∀ n d x, Sys2Proof.Claims.futureAsk i s = some (n, d, x) → Sys2Proof.Machine.futNameFault n = none →
      ((∃ p q, i = .sFres p q) → Sys2Proof.Claims.freeToGo s n) →
        ∃ t, Sys2Proof.Machine.exec i s = .next t ∧ Sys2Proof.Claims.asked s t
          ⟨s.now + Sys2Proof.Claims.dealerLink s.focus.core d, Sys2Proof.Machine.rankUnit, .dealer d x⟩) ∧
    (∀ n, Sys2Proof.Claims.futureOf i s = some n → Sys2Proof.Claims.ownWord s →
      ((∃ p q, i = .sFres p q) → Sys2Proof.Claims.freeToGo s n) →
      (n.toNat % 4 ≠ 2 →
        ∃ t, Sys2Proof.Machine.exec i s = .next t ∧ Sys2Proof.Claims.wordFaulted s t 0x0A06) ∧
      ((∀ p q, i ≠ .sFjoin p q) → Sys2Proof.Machine.futNameFault n = none → Sys2Proof.Machine.namePkg n ≠ s.pkg.num →
        s.reaches (Sys2Proof.Machine.namePkg n) = false →
        ∃ t, Sys2Proof.Machine.exec i s = .next t ∧ Sys2Proof.Claims.wordFaulted s t 0x0F01)) ∧
    (∀ x, Sys2Proof.Claims.scopeAsk i s = some x →
      ∃ t r, Sys2Proof.Machine.exec i s = .next t ∧ Sys2Proof.Claims.asked s t
        ⟨s.now + 2, r, .dealer (Sys2Proof.Machine.coreDie s.focus.core) x⟩)

/-- R121, R269, R279 to R281: `s.launch` reads its 128-byte block at start and sends it as a root enqueue. `s.exit`
sends each successor its block with its share of the task's weight, the shares adding up to it; without successors it
returns the weight and is answered at start + 2; a second one of the task faults with 0x0A07. `s.phase` waits, its phase
noted. The model's choices in it: log entry 60. -/
def Obligations.LaunchExitAndPhaseWordsStart : Prop :=
  ∀ (p : Sys2Proof.Pred) (q r : Fin 16) (u n : Bool) (k : Fin 8) (s : Sys2Proof.Machine.State),
    s.focus.role = .perform → s.latent = [] →
    let core := s.focus.core
    let die := Sys2Proof.Machine.coreDie core
    let sent (b : List Sys2Proof.Word) (x : Sys2Proof.Machine.EnqSource)
        (o : Option (Nat × Option Sys2Proof.Machine.ScopeRef)) : Sys2Proof.Machine.Entry :=
      ⟨s.now + 2, Sys2Proof.Machine.rankDealer + 64 + core.val % 64, .ev (.launchEnqueue die b x o true)⟩
    (∀ l, Sys2Proof.Claims.ownPlace s (s.popped 0) 0 1 128 128 l →
      ∃ t, Sys2Proof.Machine.exec (.sLaunch p q u r) s = .next t ∧ Sys2Proof.Claims.asked s t
        (sent ((List.range 16).map fun i => BitVec.ofNat 64 (s.read (l.key + 8 * i) 8))
          (.launch (s.asker (if u = true then some r else none))) none)) ∧
    (s.cur.exitRun = true → s.prog.part = [] → Sys2Proof.Claims.ownWord s →
      ∃ t, Sys2Proof.Machine.exec (.sExit p q k) s = .next t ∧ Sys2Proof.Claims.wordFaulted s t 0x0A07) ∧
    (∀ task, s.cur.exitRun = false → s.prog.part = [] → s.prog.mpc = 0 → s.cur.task = some task →
      (k = 0 → ∃ t, Sys2Proof.Machine.exec (.sExit p q k) s = .next t ∧ t.mem = s.mem ∧ t.cur.exitRun = true ∧
        (⟨s.now + 2, Sys2Proof.Machine.rankAnswer, .ev (.syncAnswer (s.asker none) [] none)⟩ :
          Sys2Proof.Machine.Entry) ∈ t.agenda ∧
        ∀ x, task.scope = some x → x.pkg = s.pkg.num → task.weight ≠ 0 →
          (⟨s.now + 2 + (if die = x.die then 2 else 24), Sys2Proof.Machine.rankDealer,
            .ev (.weightReturn x.die x.s task.weight)⟩ : Sys2Proof.Machine.Entry) ∈ t.agenda) ∧
      (∀ l, k ≠ 0 → s.prog.popped.length = k.val → s.exitBlocks s.prog.popped = .ok l →
        (∀ x, task.scope = some x → k.val ≤ task.weight) →
        ∃ (t : Sys2Proof.Machine.State) (shares : List Nat), Sys2Proof.Machine.exec (.sExit p q k) s = .next t ∧ t.mem = s.mem ∧ t.cur.exitRun = true ∧
          (task.scope ≠ none → shares.sum = task.weight ∧ ∀ w ∈ shares, 0 < w) ∧ shares.length = k.val ∧
          ∀ i (h : i < l.length), sent l[i].1 (.successor (s.asker none) i) (some (shares.getD i 0, task.scope)) ∈
            t.agenda)) ∧
    ((n = true → Sys2Proof.Machine.barNameFault (s.popped 0) = none) →
      ∃ t, Sys2Proof.Machine.exec (.sPhase p q n) s = .next t ∧ t.mem = s.mem ∧ t.prog.waiting = true ∧
        t.cur.phase = some { named := n, name := if n = true then s.popped 0 else 0, arrived := false, open? := none })

namespace Sys2Proof.Claims

open Sys2Proof Sys2Proof.Machine

/-- An image with the answer of the word of a queue kept with it (R368). -/
def answerKept (m : Image) (q : Fin 13) (c : Fin 3) (vals : List Word) : Image :=
  let e := m.eqAt q c
  let cur := e.cur.map fun k => { k with waiting := false, answer := some vals }
  { m with eq := m.eq.set (eqIx q c).val { e with cur } }

end Sys2Proof.Claims

/-- R268, R277, R281, R284, R368: what reaches a core. An answer performs a word of a running bank that pushes nothing,
and is ready for the pushes of the cycle with one that does; a refusal faults the word; of a stopped task's word the
answer is kept with it; the answer of a phase opens the contexts from the next task cycle on. A notification is held as
an event, or is discarded by a context that takes none. A phase boundary answers its members. The model's choices in it:
log entries 59, 98. -/
def Obligations.AnswersAndEventsReachTheirCore : Prop :=
  (∀ (a : Sys2Proof.Machine.Asker) (vals : List Sys2Proof.Word) (core : Sys2Proof.Machine.CoreIx)
    (bank : Sys2Proof.Machine.BankIx) (w : Sys2Proof.Machine.EngWord) (l : List Sys2Proof.Machine.EngWord)
    (s : Sys2Proof.Machine.State),
    let c := Sys2Proof.Machine.ctxIx a.ctx
    let m := s.img core bank
    let e := m.eqAt a.q c
    Sys2Proof.Machine.bankWithWord s.cores a.tid a.q c = some (core, bank) → a.via = none → e.words = w :: l →
    m.tid = w.tid → (∀ p q k, w.instr ≠ .sExit p q k) →
    ((∀ p q k, w.instr ≠ .sPhase p q k) →
      (s.focus.event = some (.syncAnswer a vals none) → (s.bank core bank).status = .running →
        ∃ t, Sys2Proof.Machine.exec .syncAnswer s = .next t ∧ t.mem = s.mem ∧
          (t.img core bank).q = m.q ∧
          (t.img core bank).ctx.map (fun x => (x.g, x.p, x.pc)) = m.ctx.map (fun x => (x.g, x.p, x.pc)) ∧
          (a.push = none → ((t.img core bank).eqAt a.q c).words = l) ∧
          (∀ r k, a.push = some r → e.cur = some k →
            (t.img core bank).eqAt a.q c =
              { e with cur := some { k with waiting := false, answer := some vals, item := none } })) ∧
      (s.focus.event = some (.syncAnswer a vals none) → (s.bank core bank).status = .stopped →
        Sys2Proof.Machine.exec .syncAnswer s =
          .next (s.modImg core bank fun m => Sys2Proof.Claims.answerKept m a.q c vals)) ∧
      (∀ code, s.focus.event = some (.syncAnswer a vals (some code)) → (s.bank core bank).status = .running →
        Sys2Proof.Machine.reportOnly code = false →
        ∃ t f, Sys2Proof.Machine.exec .syncAnswer s = .next t ∧ t.mem = s.mem ∧
          ((t.img core bank).eqAt a.q c).words = w :: l ∧
          (t.img core bank).ctx[c.val].faults = m.ctx[c.val].faults ++ [f] ∧ f.code = code ∧ f.q = a.q)) ∧
    (∀ p q k x, w.instr = .sPhase p q k → m.phase = some x → s.focus.event = some (.syncAnswer a vals none) → a.q = 12 →
      (s.bank core bank).status = .running →
      ∃ t, Sys2Proof.Machine.exec .syncAnswer s = .next t ∧ t.mem = s.mem ∧ ((t.img core bank).eqAt 12 c).words = l ∧
        (t.img core bank).phase = some { x with open? := some (m.cyc + 1) })) ∧
  (∀ (tid : Nat) (x : Sys2Proof.Ctx) (n : Sys2Proof.Word) (core : Sys2Proof.Machine.CoreIx)
    (bank : Sys2Proof.Machine.BankIx) (s : Sys2Proof.Machine.State),
    s.focus.event = some (.notifyEventArrival tid x n) → s.bankOf tid = some (core, bank) →
    let y := (s.img core bank).ctx[(Sys2Proof.Machine.ctxIx x).val]
    (y.ended = false → (s.bank core bank).trapEntry ≠ 0 → y.events.length < 8 →
      ∃ t, Sys2Proof.Machine.exec .notifyEventArrival s = .next t ∧ t.mem = s.mem ∧
        (t.img core bank).ctx[(Sys2Proof.Machine.ctxIx x).val] =
          { y with events := y.events ++ [{ code := 2, addr := n }] }) ∧
    (y.ended = true ∨ (s.bank core bank).trapEntry = 0 →
      ∃ t, Sys2Proof.Machine.exec .notifyEventArrival s = .next t ∧ t.mem = s.mem ∧
        (t.img core bank).ctx[(Sys2Proof.Machine.ctxIx x).val] = { y with notes := y.notes - 1 })) ∧
  (∀ (tid : Nat) (core : Sys2Proof.Machine.CoreIx) (bank : Sys2Proof.Machine.BankIx) (c : Fin 3)
    (w : Sys2Proof.Machine.PhaseWait) (s : Sys2Proof.Machine.State),
    s.focus.event = some (.phaseBoundary [tid]) → s.bankOf tid = some (core, bank) →
    (s.img core bank).phaseCtx = some c → (s.img core bank).phase = some w →
      Sys2Proof.Machine.exec .phaseBoundary s = .next (s.schedule
        (s.now + if w.named = true then Sys2Proof.Claims.barrierWay core (Sys2Proof.Machine.nameColIx w.name) else 2)
        Sys2Proof.Machine.rankAnswer
        (.ev (.syncAnswer { tid, q := 12, ctx := Sys2Proof.Machine.ixCtx c, push := none, mpc := 1 } [] none))))

/-! ### Barrier units -/

namespace Sys2Proof.Claims

open Sys2Proof Sys2Proof.Machine

/-- A barrier that is lost: its waits and notifications are gone, its continuation entries stay (R346, R367). -/
def lostBar (b : Barrier) : Barrier :=
  { b with lost := true, waiters := b.waiters.filter fun w => match w with
      | .entry _ => true
      | _ => false }

/-- R274, R275: GOT meets TARGET and the barrier fires, or exceeds it and is lost. -/
def settled (b : Barrier) : Barrier :=
  if b.got = b.target then
    { b with gen := b.gen + 1, got := 0, st := if b.auto = true then .armed else .fired, waiters := [] }
  else if b.target.toNat < b.got.toNat then lostBar b else b

/-- R274, R276, R346, R367, R369: what an operation makes of its barrier. -/
def barAfter (op : BarOp) (b : Barrier) : Barrier :=
  match op with
  | .arm t coll auto fut _ =>
    if b.stale = true then { b with stale := false }
    else settled { b with target := t, coll, auto, fut, st := .armed, lost := false }
  | .disarm _ => { b with st := .idle, got := 0, coll := false, auto := false, fut := 0, lost := false }
  | .count c _ =>
    if b.stale = true ∨ c = 0 then b
    else if 2 ^ 32 ≤ b.got.toNat + c then lostBar b
    else
      let x := { b with got := BitVec.ofNat 32 (b.got.toNat + c) }
      if b.st = .armed then settled x else x
  | .wait (.status _) => b
  | .wait (.phase t) => if b.lost = true ∨ b.stale = true then b else { b with waiters := b.waiters ++ [.phase t] }
  | .wait (.entry r) => if b.st = .fired then b else { b with waiters := b.waiters ++ [.entry r] }
  | .wait w =>
    if b.lost = true ∨ b.stale = true ∨ b.st = .fired then b else { b with waiters := b.waiters ++ [w] }

end Sys2Proof.Claims

/-- R273 to R275, R346, R367 to R369: an operation that reaches the BU of a powered column leaves its barrier as the table of
R274 says, every other barrier as it was, and no byte of memory changed; a fire answers every wait of a SYNC word with
TARGET. To a powered-down column it is appended to the backing store, where that has room. -/
def Sys2Proof.Claims.BarrierOperationsFollowTheirTable : Prop :=
  ∀ (i : Sys2Proof.Instr) (n : Sys2Proof.Word) (op : Sys2Proof.Machine.BarOp) (s : Sys2Proof.Machine.State),
    s.focus.event = some (Sys2Proof.Claims.opEvent n op) → (Sys2Proof.Claims.opEvent n op).row = i →
    let col := Sys2Proof.Machine.nameColIx n
    let ix := Sys2Proof.Machine.nameIndex n
    let b := s.bar col ix
    ((s.col col).powered = true →
      ∃ t, Sys2Proof.Machine.exec i s = .next t ∧ t.mem = s.mem ∧ t.bar col ix = Sys2Proof.Claims.barAfter op b ∧
        (∀ j, j ≠ ix → t.bar col j = s.bar col j) ∧ (∀ c, c ≠ col → t.col c = s.col c) ∧
        (∀ c k a core bank, op = .count c k → b.stale = false → b.st = .armed → 0 < c →
          b.got.toNat + c = b.target.toNat → Sys2Proof.Machine.Waiter.wait a ∈ b.waiters → a.q = 12 → a.via = none →
          s.bankOf a.tid = some (core, bank) →
          (⟨s.now + Sys2Proof.Claims.barrierWay core col, Sys2Proof.Machine.rankAnswer,
            .ev (.syncAnswer a [b.target.setWidth 64] none)⟩ : Sys2Proof.Machine.Entry) ∈ t.agenda)) ∧
    ((s.col col).powered = false →
      ∃ t, Sys2Proof.Machine.exec i s = .next t ∧
        ((s.die (Sys2Proof.Machine.colDie col)).backing.length < Sys2Proof.Config.backingRoom →
          t.mem = s.mem ∧ t.cols = s.cols ∧
        (t.die (Sys2Proof.Machine.colDie col)).backing =
          (s.die (Sys2Proof.Machine.colDie col)).backing ++ [(col.val, ix, op)]))

/-- R368, R369: a powered-down column keeps its barriers; one powered up performs the operations appended for it in their
order; a reset column's barriers are IDLE, with every field zero, and stale. -/
def Sys2Proof.Claims.ColumnsKeepTheirBarriers : Prop :=
  ∀ (col : Sys2Proof.Machine.ColIx) (s : Sys2Proof.Machine.State),
    (s.focus.event = some (.columnPowerDown col) → ∃ t, Sys2Proof.Machine.exec .columnPowerDown s = .next t ∧
      t.mem = s.mem ∧ t.col col = { s.col col with powered := false }) ∧
    (s.focus.event = some (.columnPowerUp col) → ∃ t, Sys2Proof.Machine.exec .columnPowerUp s = .next t ∧
      t.mem = s.mem ∧ (t.col col).powered = true ∧
      ∀ ix, t.bar col ix = (s.die (Sys2Proof.Machine.colDie col)).backing.foldl (fun b x =>
        if x.1 = col.val ∧ x.2.1 = ix then Sys2Proof.Claims.barAfter x.2.2 b else b) (s.bar col ix)) ∧
    (s.focus.event = some (.columnReset col) → ∃ t, Sys2Proof.Machine.exec .columnReset s = .next t ∧ t.mem = s.mem ∧
      ∀ ix < 1024, t.bar col ix = { Sys2Proof.Machine.Barrier.reset with stale := true })

/-! ### Starts of words, and words of no instruction -/

/-- R85, R87, R91, R206, R224, R328: a word that starts pops the entries its operand names, first entry first, and its engine
performs it in the same cycle with micro-PC 0, the unit of weight that it holds with it; a word that is no instruction with the
region types it finds pops nothing; and a word that starts again goes on at its micro-PC and pops nothing. -/
def Sys2Proof.Claims.EngineWordsStartAndPop : Prop :=
  ∀ (core : Sys2Proof.Machine.CoreIx) (bank : Sys2Proof.Machine.BankIx) (q : Fin 13) (x : Sys2Proof.Ctx)
    (w : Sys2Proof.Machine.EngWord) (l : List Sys2Proof.Machine.EngWord) (s : Sys2Proof.Machine.State),
    s.focus.event = some (.engineWordStart core bank q x) →
    let c := Sys2Proof.Machine.ctxIx x
    let m := s.img core bank
    let starts (cur : Sys2Proof.Machine.Cur) (f : Sys2Proof.Machine.State → Prop) : Prop :=
      ∃ t, Sys2Proof.Machine.exec .engineWordStart s = .next t ∧ t.mem = s.mem ∧
        (t.img core bank).eqAt q c = { words := w :: l, cur := some cur } ∧
        (t.img core bank).eng[q.val] = { m.eng[q.val] with last := c, act := some c } ∧
        (⟨s.now, Sys2Proof.Machine.rankLoop + core.val, .perform core bank q c⟩ : Sys2Proof.Machine.Entry) ∈ t.agenda ∧
        f t
    (m.eqAt q c).words = w :: l →
      (∀ r n, (m.eqAt q c).cur = none → m.barred w.instr = false →
        Sys2Proof.Machine.queueOperand m.ts w.instr = [(r, n)] →
        starts { Sys2Proof.Machine.Cur.fresh m.cyc ((m.queue c r).take n) with item := w.item } fun t =>
          (t.img core bank).queue c r = (m.queue c r).drop n ∧
            ∀ r', r' ≠ r → (t.img core bank).queue c r' = m.queue c r') ∧
      ((m.eqAt q c).cur = none →
        (m.barred w.instr = true ∨ Sys2Proof.Machine.queueOperand m.ts w.instr = []) →
        starts { Sys2Proof.Machine.Cur.fresh m.cyc [] with item := w.item } fun t => (t.img core bank).q = m.q) ∧
      (∀ k, (m.eqAt q c).cur = some k →
        starts { k with next := m.cyc, lastDone := false, opened := false, reads := [], lines := [] } fun t => (t.img core bank).q = m.q)

/-- R82, R328, R331: a word of no instruction. With predicate 0 it is discarded; of ENG 0 it faults at its issue; of another
ENG it enters the queue its slot selects and faults when it starts; and in a transform program it faults the program. -/
def Sys2Proof.Claims.UnassignedWordsFault : Prop :=
  ∀ (w : Sys2Proof.Word32) (s : Sys2Proof.Machine.State),
    let p : Sys2Proof.Pred := Fin.ofNat 16 (w.toNat / 2 ^ 19 % 16)
    let i : Sys2Proof.Instr := .unassignedWord w
    let q := Sys2Proof.Machine.queueOf i
    (s.focus.role = .issue → s.p p = false →
      Sys2Proof.Machine.exec i s =
        .next (Sys2Proof.Claims.issued s (if Sys2Proof.takesExt w = true then 2 else 1) [])) ∧
    (s.focus.role = .issue → s.p p = true → w.toNat < 2 ^ 29 →
      ∃ t f, Sys2Proof.Machine.exec i s = .next t ∧ t.mem = s.mem ∧ t.cx.pc = s.cx.pc ∧
        t.cx.faults = s.cx.faults ++ [f] ∧ f.q = 0 ∧ f.mpc = 0 ∧ f.pc = s.cx.pc ∧ f.code.toNat / 256 = 1) ∧
    (s.focus.role = .issue → s.p p = true → 2 ^ 29 ≤ w.toNat →
      Sys2Proof.Claims.inUse (s.cur.eqAt q s.focus.ctx) + 2 ≤ 16 →
      ∃ t, Sys2Proof.Machine.exec i s = .next t ∧ t.mem = s.mem ∧ t.cx.faults = s.cx.faults ∧
        (t.cur.eqAt q s.focus.ctx).words.map (fun x => x.instr) =
          (s.cur.eqAt q s.focus.ctx).words.map (fun x => x.instr) ++ [i]) ∧
    (s.focus.role = .perform → Sys2Proof.Claims.ownWord s →
      ∃ t, Sys2Proof.Machine.exec i s = .next t ∧
        Sys2Proof.Claims.wordFaulted s t (Sys2Proof.Machine.rejectOf w 0)) ∧
    (∀ prog, s.focus.role = .unit → (s.col s.focus.col).tsRun = some prog → prog.pc < 1024 →
      (s.img prog.core prog.bank).holds prog.tid = true →
      ∃ t, Sys2Proof.Machine.exec i s = .next t ∧ Sys2Proof.Claims.tsFaulted s t prog (Sys2Proof.Machine.rejectTs w))

/-! ### Dealers -/

namespace Sys2Proof.Claims

open Sys2Proof Sys2Proof.Machine

/-- Cycles between two dealers of the package (R121). -/
def dealersApart (a b : DieIx) : Nat := if a = b then 2 else 24

/-- A record reference's die, slot and entry (R116). -/
def refDie (r : BitVec 32) : DieIx := Fin.ofNat 4 (r.toNat / 2 ^ 19 % 4)
def refSlot (r : BitVec 32) : Nat := r.toNat % 2 ^ 19
def refEntry (r : BitVec 32) : Nat := r.toNat / 2 ^ 21 % 4

/-- u units of weight are on their way from a die to the root of a scope. -/
def weightComes (s t : State) (d : DieIx) (sc : Option ScopeRef) (u : Nat) : Prop :=
  ∀ r, sc = some r → r.pkg = s.pkg.num → u ≠ 0 →
    (⟨s.now + dealersApart d r.die, rankDealer, .ev (.weightReturn r.die r.s u)⟩ : Entry) ∈ t.agenda

/-- A future's row is open, and no bit of memory is in error. -/
def futureReady (s : State) (n : Word) : Prop :=
  s.futClosed n = false ∧ s.latent = [] ∧ s.poison = [] ∧ Memory.wf s.mem = true

/-- A signal of DONEBAR that is a detached item (R120): it goes to another die, and the record has a unit for it. -/
def signalsAway (d : DieIx) (r : Record) : Bool :=
  let bar := blkDoneBar r.blk
  nameKind bar == 1 && colDie (nameColIx bar) != d && r.scope.isSome && r.compShare != 0

end Sys2Proof.Claims

/-- R99, R103 to R105, R115, R120, R121, R358, R359, R364: a block that reaches the dealer of its die with enough weight takes the
lowest free slot under the next sequence number, its shares adding up to its weight, runnable at once when it waits for
nothing; a bad block is refused with 0x0A01. A launch all of whose groups are done counts them to DONEBAR and frees its
slot, a signal to another die holding a unit of weight until it is performed; DONENEXT is enqueued with the completion share,
deferred while no slot is free. A value satisfies an entry, and the
last one makes a continuation runnable; poison fails it. -/
def Sys2Proof.Claims.LaunchesFollowTheirRecord : Prop :=
  ∀ (d : Sys2Proof.Machine.DieIx) (s : Sys2Proof.Machine.State),
    (∀ b src w sc slot, s.focus.event = some (.launchEnqueue d b src (some (w, sc)) false) →
      (s.die d).freeSlot = some slot → (sc ≠ none → Sys2Proof.Machine.blkGroups b + 1 ≤ w) →
      (∀ j < slot, (s.record d j).isSome = true) ∧
      ∃ t r, Sys2Proof.Machine.exec .launchEnqueue s = .next t ∧ t.mem = s.mem ∧ t.record d slot = some r ∧
        r.seq = (s.die d).seq ∧ (t.die d).seq = (s.die d).seq + 1 ∧ r.blk = b ∧ r.scope = sc ∧
        r.compShare + Sys2Proof.Machine.blkGroups b * r.groupShare = w ∧
        (r.runnable = true ↔ ∀ i < 4, (Sys2Proof.Machine.blkWait b i).toNat % 4 = 0)) ∧
    (∀ b a own, s.focus.event = some (.launchEnqueue d b (.launch a) own true) → s.blockBad d b = true → a.via = none →
      ∃ t, Sys2Proof.Machine.exec .launchEnqueue s = .next t ∧ t.mem = s.mem ∧ t.dies = s.dies ∧
        Sys2Proof.Claims.coming t Sys2Proof.Machine.rankAnswer (.syncAnswer a [] (some 0x0A01))) ∧
    (∀ slot r, s.focus.event = some (.launchCompletion d slot) → s.record d slot = some r → r.runnable = true →
      r.husk = false → r.stuck = false → r.done = r.groups → r.failed = none → s.completesLater d r = false →
      let bar := Sys2Proof.Machine.blkDoneBar r.blk
      let way := if Sys2Proof.Machine.colDie (Sys2Proof.Machine.nameColIx bar) = d then 4 else 26
      let u := if Sys2Proof.Claims.signalsAway d r = true then 1 else 0
      Sys2Proof.Machine.blkDoneNext r.blk = 0 →
      (bar.toNat % 4 = 1 → Sys2Proof.Machine.namePkg bar = s.pkg.num) →
      ∃ t, Sys2Proof.Machine.exec .launchCompletion s = .next t ∧ t.mem = s.mem ∧ t.record d slot = none ∧
        Sys2Proof.Claims.weightComes s t d r.scope (r.compShare - u) ∧
        (bar.toNat % 4 = 1 → ∃ k, (⟨s.now + way, k,
          .ev (.barrierCount bar r.groups none)⟩ : Sys2Proof.Machine.Entry) ∈ t.agenda) ∧
        ∀ x, u = 1 → r.scope = some x → x.pkg = s.pkg.num →
          (⟨s.now + way + Sys2Proof.Claims.dealersApart d x.die, Sys2Proof.Machine.rankDealer,
            .ev (.weightReturn x.die x.s 1)⟩ : Sys2Proof.Machine.Entry) ∈ t.agenda) ∧
    (∀ slot r l n, s.focus.event = some (.donenextDeferred d slot) → s.record d slot = some r →
      (r.stuck = false → Sys2Proof.Machine.exec .donenextDeferred s = .next s) ∧
      (r.stuck = true → r.failed = none → Sys2Proof.Machine.blkDoneNext r.blk ≠ 0 →
        Sys2Proof.Machine.locOf (Sys2Proof.Machine.dieCore d 0) (Sys2Proof.Machine.blkDoneNext r.blk) = some l →
        s.latent = [] → s.poison = [] →
        let b := (List.range 16).map fun i => BitVec.ofNat 64 (s.read (l.key + 8 * i) 8)
        s.blockBad d b = false → s.targetPkg b = s.pkg.num → Sys2Proof.Machine.targetDie d b = d →
        (s.die d).freeSlot = some n → (r.scope ≠ none → Sys2Proof.Machine.blkGroups b + 1 ≤ r.compShare) →
        ∃ t x, Sys2Proof.Machine.exec .donenextDeferred s = .next t ∧ t.mem = s.mem ∧ t.record d slot = none ∧
          t.record d n = some x ∧ x.blk = b ∧ x.seq = (s.die d).seq ∧ x.scope = r.scope ∧
          x.compShare + Sys2Proof.Machine.blkGroups b * x.groupShare = r.compShare)) ∧
    (∀ ref v poison r, s.focus.event = some (.entrySatisfaction ref v poison) → Sys2Proof.Claims.refDie ref = d →
      s.record d (Sys2Proof.Claims.refSlot ref) = some r → r.husk = false →
      let i := Sys2Proof.Claims.refEntry ref
      (poison = false → r.runnable = false → i < r.waits.length →
        ∃ t r', Sys2Proof.Machine.exec .entrySatisfaction s = .next t ∧ t.mem = s.mem ∧
          t.record d (Sys2Proof.Claims.refSlot ref) = some r' ∧
          (r'.waits[i]?).map (fun w => w.sat) = some (some (v, false)) ∧
          (r'.runnable = true ↔ ∀ j (h : j < r.waits.length), j ≠ i → r.waits[j].sat.isSome = true)) ∧
      (poison = true → ∃ t, Sys2Proof.Machine.exec .entrySatisfaction s = .next t ∧ t.mem = s.mem ∧
        ∀ r', t.record d (Sys2Proof.Claims.refSlot ref) = some r' → r'.husk = true ∧ r'.runnable = false))

/-- R121, R122, R365: weight moves in whole units. A return adds its units to QRET; a Borrow takes its units of QKITTY, 2^32
of them but for a root enqueue from another package, counted in BORROWS until its grant arrives, and is refused by a smaller
QKITTY; a grant adds its units to the task that needed them, or returns them when that task has ended; and a quiet scope answers every word that waits for it with QSTAT. -/
def Sys2Proof.Claims.WeightMovesBetweenItsHolders : Prop :=
  ∀ (d : Sys2Proof.Machine.DieIx) (i : Fin 16) (s : Sys2Proof.Machine.State),
    let x := s.scope d i.val
    (∀ u, s.focus.event = some (.weightReturn d i u) →
      ∃ t, Sys2Proof.Machine.exec .weightReturn s = .next t ∧ t.mem = s.mem ∧
        t.scope d i.val = { x with ret := x.ret + u } ∧
        (({ x with ret := x.ret + u } : Sys2Proof.Machine.Scope).quiet = true → x.waiters ≠ [] →
          Sys2Proof.Claims.coming t (Sys2Proof.Machine.rankDealer + 160) (.waitqComplete d i))) ∧
    (∀ need, s.focus.event = some (.borrowDebit d i need none) →
      (need.amount ≤ x.kitty → ((∃ e b src w, need = .root e b src w) → x.opened = true) →
        ∃ t, Sys2Proof.Machine.exec .borrowDebit s = .next t ∧ t.mem = s.mem ∧
          t.scope d i.val = { x with kitty := x.kitty - need.amount, borrows := x.borrows + 1 } ∧
          (⟨s.now + Sys2Proof.Claims.dealersApart d need.die, Sys2Proof.Machine.rankDealer,
            .ev (.borrowGrant ⟨s.pkg.num, d, i⟩ need)⟩ : Sys2Proof.Machine.Entry) ∈ t.agenda) ∧
      (∀ e ref u a, x.kitty < 2 ^ 32 → need = .split e ref u a → a.via = none →
        ∃ t, Sys2Proof.Machine.exec .borrowDebit s = .next t ∧ t.mem = s.mem ∧ t.dies = s.dies ∧
          Sys2Proof.Claims.coming t Sys2Proof.Machine.rankAnswer (.syncAnswer a [] (some 0x0A05)))) ∧
    (∀ e a, s.focus.event = some (.borrowGrant ⟨s.pkg.num, d, i⟩ (.exit e a)) →
      (∀ core bank task, s.bankOf a.tid = some (core, bank) → (s.img core bank).task = some task →
        ∃ t, Sys2Proof.Machine.exec .borrowGrant s = .next t ∧ t.mem = s.mem ∧
          (t.img core bank).task = some { task with weight := task.weight + 2 ^ 32 } ∧
          t.scope d i.val = { x with borrows := x.borrows - 1 }) ∧
      (s.taskImg a.tid = none →
        ∃ t, Sys2Proof.Machine.exec .borrowGrant s = .next t ∧ t.mem = s.mem ∧
          Sys2Proof.Claims.weightComes s t e (some ⟨s.pkg.num, d, i⟩) (2 ^ 32) ∧
          t.scope d i.val = { x with borrows := x.borrows - 1 })) ∧
    (s.focus.event = some (.waitqComplete d i) →
      (x.quiet = false → Sys2Proof.Machine.exec .waitqComplete s = .next s) ∧
      (x.quiet = true → ∃ t, Sys2Proof.Machine.exec .waitqComplete s = .next t ∧ t.mem = s.mem ∧
        t.scope d i.val = { x with waiters := [] } ∧
        ∀ a ∈ x.waiters, a.via = none → Sys2Proof.Claims.coming t Sys2Proof.Machine.rankAnswer (.syncAnswer a [x.stat] none)))

/-- R118: the operations that reach a bank of future words are performed in the order of their arrival, one a cycle. One that
reaches a bank with none before it asks for its line; each behind others waits for its turn; and when one has been performed
the next asks in the next cycle. -/
def Sys2Proof.Claims.FutureBanksKeepOrder : Prop :=
  ∀ (n : Sys2Proof.Word) (op : Sys2Proof.Machine.FutOp) (s : Sys2Proof.Machine.State),
    let d := Sys2Proof.Machine.nameDie n
    let b := Sys2Proof.Machine.futBank n
    let q := (s.die d).futQ.get [] b
    (∀ due rank sent rest, s.agenda = ⟨due, rank, .dealer d (.reach sent n op)⟩ :: rest → due ≤ s.now →
      let s1 : Sys2Proof.Machine.State := { s with agenda := rest }
      s1.futBehind sent n op = false →
      (∀ e ∈ rest, e.due = s.now → ∀ d' x o, e.act ≠ .dealer d' (.reach x n o)) →
      ∃ t, Sys2Proof.Machine.step s = .next t ∧ t.mem = s.mem ∧ (t.die d).futQ.get [] b = q ++ [(n, op)] ∧
        (q ≠ [] → t.agenda = rest) ∧
        (q = [] → s.now < (s.die d).futBusy.get 0 b →
          (⟨(s.die d).futBusy.get 0 b, Sys2Proof.Machine.rankUnit, .dealer d (.turn b)⟩ : Sys2Proof.Machine.Entry) ∈
            t.agenda)) ∧
    (∀ l, q = (n, op) :: l → ∃ t, s.futDone n op = t ∧ t.mem = s.mem ∧ (t.die d).futQ.get [] b = l ∧
      (t.die d).futBusy.get 0 b = s.now + 1 ∧
      (l ≠ [] → (⟨s.now + 1, Sys2Proof.Machine.rankUnit, .dealer d (.turn b)⟩ : Sys2Proof.Machine.Entry) ∈ t.agenda))

/-- R116 to R118, R363: the operations on a future's word, as its bank performs them. A create
makes it EMPTY; a join of a resolved or poisoned future satisfies its entry, and of another puts the entry at the head of
the list; a resolution writes its value and satisfies the list, and a second one is refused with 0x0A04; poison does
likewise to a future that is not resolved. No other byte of memory changes. -/
def Sys2Proof.Claims.FutureOperationsFollowTheirTable : Prop :=
  ∀ (n : Sys2Proof.Word) (s : Sys2Proof.Machine.State), Sys2Proof.Claims.futureReady s n →
    let k := Sys2Proof.Machine.nameKey n
    let w := s.read k 8
    let h : BitVec 32 := BitVec.ofNat 32 (w / 2 ^ 32)
    let writes (i : Sys2Proof.Instr) (v : Nat) (f : Sys2Proof.Machine.State → Prop) : Prop :=
      ∃ t, Sys2Proof.Machine.exec i s = .next t ∧ Sys2Proof.Claims.bytesWritten s t k 8 v ∧ f t
    let keeps (i : Sys2Proof.Instr) (f : Sys2Proof.Machine.State → Prop) : Prop :=
      ∃ t, Sys2Proof.Machine.exec i s = .next t ∧ t.mem = s.mem ∧ f t
    let answered (a : Option Sys2Proof.Machine.Asker) (bad : Option (BitVec 16)) (t : Sys2Proof.Machine.State) : Prop :=
      ∀ x, a = some x → x.via = none → Sys2Proof.Claims.coming t Sys2Proof.Machine.rankAnswer (.syncAnswer x [] bad)
    let satisfied (e v : BitVec 32) (p : Bool) (t : Sys2Proof.Machine.State) : Prop :=
      e.toNat / 2 ^ 23 % 64 = s.pkg.num →
      (⟨s.now + Sys2Proof.Claims.dealersApart (Sys2Proof.Machine.nameDie n) (Sys2Proof.Claims.refDie e),
        Sys2Proof.Machine.rankDealer + 1, .ev (.entrySatisfaction e v p)⟩ : Sys2Proof.Machine.Entry) ∈ t.agenda
    (∀ a, s.focus.event = some (.futureCreate n a) →
      (w % 4 ≠ 1 → writes .futureCreate 0 (answered a none)) ∧
      (w % 4 = 1 → keeps .futureCreate (answered a (some 0x0A06)))) ∧
    (∀ e a, s.focus.event = some (.futureJoin n e a) →
      (2 ≤ w % 4 → keeps .futureJoin fun t => answered a none t ∧ satisfied e h (decide (w % 4 = 3)) t) ∧
      (w % 4 < 2 → writes .futureJoin (1 + e.toNat * 2 ^ 32) (answered a none))) ∧
    (∀ v a, s.focus.event = some (.futureResolve n v a) →
      (w % 4 < 2 → writes .futureResolve (2 + v.toNat * 2 ^ 32) fun t => answered a none t ∧
        (w % 4 = 1 → h ≠ 0xFFFFFFFF → satisfied h v false t)) ∧
      (w % 4 = 2 → keeps .futureResolve (answered a (some 0x0A04))) ∧
      (w % 4 = 3 → keeps .futureResolve (answered a none))) ∧
    (∀ c, s.focus.event = some (.futurePoison n c) →
      (w % 4 < 2 → writes .futurePoison (3 + c.toNat * 2 ^ 32) fun t =>
        w % 4 = 1 → h ≠ 0xFFFFFFFF → satisfied h (c.setWidth 32) true t) ∧
      (2 ≤ w % 4 → keeps .futurePoison fun _ => True))

/-- R101, R106 to R110: the dealer's choice. It gives no hand a third entry and changes no byte of memory; the last
group of the only record goes to the core that Pick names. A gang's reservation takes the lowest run of cores that no
other gang holds, and every group of a gang starts on its own core in one cycle. The model's choices in it: log entries
109, 110. -/
def Obligations.DealersPlaceGroups : Prop :=
  ∀ (d : Sys2Proof.Machine.DieIx) (slot : Nat) (r : Sys2Proof.Machine.Record) (s : Sys2Proof.Machine.State),
    (s.focus.event = some (.dealerChoice d) →
      ((∀ c, (s.core c).hand.length ≤ 2) → ∃ t, Sys2Proof.Machine.exec .dealerChoice s = .next t ∧ t.mem = s.mem ∧
        ∀ c, (t.core c).hand.length ≤ 2) ∧
      (∀ c, (s.die d).records = [(slot, r)] → r.left = true → r.again = [] → r.next + 1 = r.groups → 1 ≤ r.cls →
        Sys2Proof.Machine.blkGang r.blk = false → (s.core c).hand = [] →
        s.pick d (fun k => s.eligible k r.cls && s.mayTake d r.nextGroup k) = some c →
        ∃ t, Sys2Proof.Machine.exec .dealerChoice s = .next t ∧
          (t.core c).hand = [r.entry slot r.nextGroup] ∧ t.record d slot = some { r with next := r.next + 1 })) ∧
    (∀ f, s.focus.event = some (.gangReservation d slot) → s.record d slot = some r → r.left = true →
      r.newGang = true → r.reserved = none → (r.cls = 3 ∨ r.runnableAt + 65536 ≤ s.now) →
      s.findRun d r.groups (fun _ k => k.reserved.isNone && !k.out) = some f →
      ∃ t, Sys2Proof.Machine.exec .gangReservation s = .next t ∧ t.mem = s.mem ∧
        t.record d slot = some { r with reserved := some f } ∧
        ∀ j < r.groups, (t.core (Sys2Proof.Machine.dieCore d (f + j))).reserved = some slot) ∧
    (∀ f, s.focus.event = some (.gangStart d slot f) → s.record d slot = some r → r.system = false →
      f + r.groups ≤ 64 →
      ∃ t cyc, Sys2Proof.Machine.exec .gangStart s = .next t ∧ ∀ j < r.groups,
        let c := Sys2Proof.Machine.dieCore d (f + j)
        let b := (s.core c).freeBank
        (t.core c).reserved = none ∧ (t.bank c b).status = .starting ∧ (t.bank c b).startAt = cyc ∧
          (t.img c b).task.map (fun x => (x.group, x.slot, x.die)) = some (j, slot, d))

/-! ### Tasks on their cores -/

namespace Sys2Proof.Claims

open Sys2Proof Sys2Proof.Machine

/-- Nothing of an image is under way but words of its SYNC queues. -/
def atRest (m : Image) : Prop :=
  m.passes = [] ∧ m.elems = [] ∧ m.lp.loadAt = none ∧ ∀ (q : Fin 13) (c : Fin 3), q ≠ 12 → (m.eqAt q c).cur = none

/-- The column's TS holds no program of a task. -/
def noProgram (s : State) (c : CoreIx) (tid : Nat) : Prop :=
  (∀ o ∈ (s.col (coreCol c)).tsOps, o.prog.tid ≠ tid) ∧ (∀ p, (s.col (coreCol c)).tsRun = some p → p.tid ≠ tid) ∧ ∀ p ∈ (s.col (coreCol c)).tsWait, p.tid ≠ tid

end Sys2Proof.Claims

/-- R80, R97, R98, R102, R107, R113, R121, R366: a dealt group starts in a free bank 2 cycles after a boundary, or 22
from an idle core, its image resident; its contexts hold the arguments, the group and the values of its entries, p0
alone is 1, and PC is the entry point of the image's header. At its boundary the bank is empty, its queue registers
kept, its weight on the way back and its group counted; a task that ends without `s.exit` exits implicitly, with a
record. The model's choices in it: log entries 62, 63, 66. -/
def Obligations.TasksStartAndReachTheirBoundary : Prop :=
  (∀ (c : Sys2Proof.Machine.CoreIx) (h : Sys2Proof.Machine.HandEntry) (l : List Sys2Proof.Machine.HandEntry)
    (b : Sys2Proof.Machine.BankIx) (r : Sys2Proof.Machine.Record) (s : Sys2Proof.Machine.State),
    s.focus.event = some (.taskStart c) → (s.core c).hand = h :: l →
    (s.startBank c h = none → Sys2Proof.Machine.exec .taskStart s = .next s) ∧
    (s.startBank c h = some b → h.tid = none → s.record (Sys2Proof.Machine.coreDie c) h.slot = some r →
      r.system = false → (s.bank c b).resident r.blk = true →
      ∃ t, Sys2Proof.Machine.exec .taskStart s = .next t ∧ t.mem = s.mem ∧ (t.core c).hand = l ∧ (t.core c).front = b ∧
        (t.bank c b).status = .starting ∧
        (t.bank c b).startAt = (if s.justEnded c b = true then s.now + 2 else max s.now h.ready + 22) ∧
        t.nextTid = s.nextTid + 1 ∧
        (t.img c b).task.map (fun x => (x.tid, x.slot, x.group, x.weight, x.blk)) =
          some (s.nextTid, h.slot, h.group, h.weight, r.blk) ∧
        (t.img c b).va = Vector.replicate 16 0 ∧ (t.img c b).q = (s.img c b).q ∧
        ∀ k : Fin 3,
          let x := (t.img c b).ctx[k.val]
          (∀ n (hn : n < 32), x.g[n] =
            (if n = 5 then BitVec.ofNat 64 h.group
            else if n = 6 then BitVec.ofNat 64 (Sys2Proof.Machine.blkGroups r.blk)
            else if 1 ≤ n ∧ n ≤ 4 then Sys2Proof.Machine.blkArg r.blk (n - 1)
            else if 7 ≤ n ∧ n ≤ 10 then r.waitValue (n - 7) else 0)) ∧
          x.p = 1 ∧ x.lc = 0 ∧ x.ec = 0 ∧ x.rot = 0 ∧ x.vstatus = 0 ∧
          x.pc.toNat = ((s.bank c b).overlay.getD (k.val / 2) 0).toNat / 2 ^ (16 * (k.val % 2)) % 2 ^ 15)) ∧
  (∀ (c : Sys2Proof.Machine.CoreIx) (b : Sys2Proof.Machine.BankIx) (x : Sys2Proof.Machine.Task)
    (s : Sys2Proof.Machine.State), (s.img c b).task = some x →
    (s.focus.event = some (.taskBoundary c b) →
      ∃ t, Sys2Proof.Machine.exec .taskBoundary s = .next t ∧ t.mem = s.mem ∧ (t.bank c b).status = .idle ∧
        (t.img c b).task = none ∧ (t.img c b).q = (s.img c b).q ∧ (t.img c b).eq = (s.img c b).eq ∧
        Sys2Proof.Claims.weightComes s t x.die x.scope x.weight ∧
        ∀ r, s.record x.die x.slot = some r → ∃ r', t.record x.die x.slot = some r' ∧ r'.done = r.done + 1) ∧
    (s.focus.event = some (.implicitExit c b) →
      ((s.img c b).exited = true → Sys2Proof.Machine.exec .implicitExit s = .next s) ∧
      ((s.img c b).exited = false →
        ∃ t, Sys2Proof.Machine.exec .implicitExit s = .next t ∧ t.mem = s.mem ∧ (t.img c b).exited = true ∧
          (t.img c b).task = some { x with weight := 0 } ∧ Sys2Proof.Claims.weightComes s t x.die x.scope x.weight ∧
          (s.isBridge = true → s.pkg.pcieUp = true → s.ringFull = false →
            let f := t.pkg.bridge.ring.get #v[0, 0, 0, 0] (s.pkg.bridge.faultHead.toNat % 64)
            t.pkg.bridge.faultHead = s.pkg.bridge.faultHead + 1 ∧ f[0].toNat % 2 ^ 16 = 0x0A09))))

/-- R92, R93, R96, R111, R114, R123, R283: a running task that is stopped at rest stands stopped in its bank, its group
in its record's order again, or the stop waits for the close of an open region. An image whose saving is complete, none
of its task's accesses being under way, has left its bank, with the copy of its window; a resumed task starts again in
its bank, or anywhere on its die with its window as it was. A waiting task whose answer has come is ready; a task that
waits on a collective barrier gives its core to a filler, and is ready again when the barrier has fired. The model's
choices in it: log entries 63, 64, 65, 68, 111. -/
def Obligations.TasksStopAndResume : Prop :=
  ∀ (c : Sys2Proof.Machine.CoreIx) (b : Sys2Proof.Machine.BankIx) (s : Sys2Proof.Machine.State),
    let m := s.img c b
    let d := Sys2Proof.Machine.coreDie c
    let o := Sys2Proof.Machine.otherBank b
    (∀ why x, s.focus.event = some (.taskStop c b why) → m.task = some x → x.system = false →
      (s.bank c b).status = .running → m.abandon = none →
      (m.npr ≠ none → ∃ t, Sys2Proof.Machine.exec .taskStop s = .next t ∧ t.mem = s.mem ∧
        t.img c b = { m with stopReq := some (m.stopReq.getD why) } ∧ (t.bank c b).status = .running) ∧
      (s.stopWaits c b why = false → why ≠ .pageWait → m.sysFault = none → (s.bank c o).status = .idle →
        Sys2Proof.Claims.atRest m → Sys2Proof.Claims.noProgram s c x.tid →
        ∃ t, Sys2Proof.Machine.exec .taskStop s = .next t ∧ t.mem = s.mem ∧ (t.bank c b).status = .stopped ∧
          (t.img c b).task = some x ∧ (t.img c b).q = m.q ∧ (t.img c b).va = m.va ∧
          ∀ r, s.record x.die x.slot = some r → ∃ r', t.record x.die x.slot = some r' ∧
            r'.again = r.again ++ [{ group := x.group, weight := x.weight, replays := x.replays, tid := some x.tid
                                     avoid := none }])) ∧
    (∀ tid y, s.focus.event = some (.imageSaveComplete d tid) → s.bankOf tid = some (c, b) → m.holds tid = true →
      (s.die d).saved.find? (fun z => z.holds tid) = some y →
      (s.underWay tid m = true → Sys2Proof.Machine.exec .imageSaveComplete s =
        .next (s.schedule (s.now + 1) Sys2Proof.Machine.rankDealer (.ev (.imageSaveComplete d tid)))) ∧
      (s.underWay tid m = false → ∃ t, Sys2Proof.Machine.exec .imageSaveComplete s = .next t ∧ (t.bank c b).status = .idle ∧
        (t.img c b).task = none ∧ ∃ z ∈ (t.die d).saved, z.holds tid = true ∧ z.complete = true ∧ z.slot = y.slot ∧
          z.window = s.windowCells c m.blk)) ∧
    (∀ tid, s.focus.event = some (.taskResume c b tid) →
      (s.bankOf tid = some (c, b) → (s.bank c b).busy = false → (s.bank c b).resident m.blk = true →
        ∃ t, Sys2Proof.Machine.exec .taskResume s = .next t ∧ t.mem = s.mem ∧ t.img c b = m ∧
          (t.bank c b).status = .starting ∧ (t.bank c b).startAt = s.now + 2 ∧
          ∀ x ∈ (t.die d).fillers, ¬(x.core = c ∧ x.bank = b)) ∧
      (∀ y, s.bankOf tid = none → (s.die d).saved.find? (fun z => z.holds tid) = some y → s.slotSound d y = true →
        Sys2Proof.Machine.Memory.wf s.mem = true → Sys2Proof.Machine.Memory.wf y.window = true →
        ∃ t, Sys2Proof.Machine.exec .taskResume s = .next t ∧ (t.img c b).task = some y.task ∧
          (t.bank c b).status = .starting ∧ ∀ i < Sys2Proof.Machine.blkL0Size y.task.blk,
            Sys2Proof.Machine.memGet t.mem
              (Sys2Proof.Machine.keyL0 c.val (Sys2Proof.Machine.blkL0Base y.task.blk) + i) =
              Sys2Proof.Machine.memGet y.window i)) ∧
    (s.focus.event = some (.waitingTaskReady c b) →
      ((s.bank c b).status ≠ .waiting → Sys2Proof.Machine.exec .waitingTaskReady s = .next s) ∧
      ((s.bank c b).status = .waiting → ∃ t, Sys2Proof.Machine.exec .waitingTaskReady s = .next t ∧ t.mem = s.mem ∧
        (t.bank c b).status = .ready ∧ t.img c b = m)) ∧
    (∀ slot r, s.focus.event = some (.fillerCollectiveWait c) → (s.core c).front = b →
      (s.die d).fillers = [] → (s.bank c b).status = .running → (s.bank c o).status = .idle →
      (s.collective m = false → Sys2Proof.Machine.exec .fillerCollectiveWait s = .next s) ∧
      (s.collective m = true → s.stopWaits c b .pageWait = false → s.hasSlot d = true →
        s.fillerFor d m.blk = some (slot, r) → r.cls = 0 → r.again = [] → r.system = false → Sys2Proof.Claims.atRest m → Sys2Proof.Claims.noProgram s c m.tid →
        ∃ t n, Sys2Proof.Machine.exec .fillerCollectiveWait s = .next t ∧ (t.bank c b).status = .waiting ∧
          (t.die d).fillers = [{ core := c, bank := b, slot := some n }] ∧ (∀ x ∈ (s.die d).saved, x.slot ≠ some n) ∧
          (t.bank c o).status = .starting ∧
          (t.img c o).task.map (fun x => x.cls) = some 0)) ∧
    (∀ n, s.focus.event = some (.fillerReturn c) → (s.bank c b).status = .waiting → (s.bank c o).status = .idle →
      (s.die d).fillers = [{ core := c, bank := b, slot := n }] →
      (s.collWait m = true → Sys2Proof.Machine.exec .fillerReturn s = .next s) ∧
      (s.collWait m = false → ∃ t, Sys2Proof.Machine.exec .fillerReturn s = .next t ∧ t.mem = s.mem ∧
        (t.bank c b).status = .ready ∧ t.img c b = m))

/-! ### Faults and cases -/

namespace Sys2Proof.Claims

open Sys2Proof Sys2Proof.Machine

/-- The classes with a user route (R318). -/
def userClasses : List Nat := [1, 2, 3, 4, 5, 0x0B, 0x0D]

/-- Fault f joins those of context i, raised in this task cycle; on the system route the task is to be stopped (R316 to
R318, R322). -/
def raised (s t : State) (c : CoreIx) (b : BankIx) (i : Fin 3) (f : QFault) (trap : Bool) : Prop :=
  let m := s.img c b
  t.mem = s.mem ∧ (t.img c b).ctx[i.val] = { m.ctx[i.val] with faults := m.ctx[i.val].faults ++ [f] } ∧
    f.raised = m.cyc ∧ f.taken = false ∧
    (f.user = true ↔ f.code.toNat / 256 ∈ userClasses ∧ (m.ctx[i.val]).ended = false ∧ (s.bank c b).trapEntry ≠ 0 ∧
      trap = false) ∧
    (f.user = false → (⟨s.now, rankStop, .ev (.taskStop c b (.fault f.code))⟩ : Entry) ∈ t.agenda)

/-- The codes whose record only reports (R322, R356, R378). -/
def reporting : List (BitVec 16) := [0x0901, 0x0902, 0x0903, 0x0804, 0x0E02, 0x0F03]

/-- No system task is in a bank. -/
def noHandler (s : State) : Prop := ∀ c b, (s.img c b).system = false

/-- A page of a virtual address whose entry is the leaf l of 4 KiB, in host memory that can be read (R75, R352). -/
def homeless (s : State) (p : Nat) (l : Leaf) : Prop :=
  (∃ e, s.leafOf p = e ∧ e.toOption = some l) ∧ l.size = 4096 ∧ l.pte.testBit 0 = false ∧ l.pte.testBit 3 = false ∧
    l.pte.testBit 51 = true ∧ s.pkg.pcieUp = true ∧ s.poison = [] ∧ s.latent = [] ∧ Memory.wf s.mem = true

end Sys2Proof.Claims

/-- R316 to R318, R324, R325, R333, R339, R371: a fault that a unit finds joins its context's faults, and stops the task on
the system route. A deferred fault names its access's word; 0x0402 the lowest context that has not ended, its ADDR the
queues that are empty and full; 0x0401 the word at the head of its MAT queue; 0x0D02 takes the system route out of a trap
stream; 0x0D01 closes the region, of the context that opened it. -/
def Sys2Proof.Claims.UnitsFindFaults : Prop :=
  ∀ (c : Sys2Proof.Machine.CoreIx) (b : Sys2Proof.Machine.BankIx) (s : Sys2Proof.Machine.State),
    let m := s.img c b
    (∀ x code addr pc trap, s.focus.event = some (.deferredFault c b x code addr pc trap) →
      code ∉ Sys2Proof.Claims.reporting →
      ∃ t f, Sys2Proof.Machine.exec .deferredFault s = .next t ∧
        Sys2Proof.Claims.raised s t c b (Sys2Proof.Machine.ctxIx x) f trap ∧ f.code = code ∧ f.addr = addr ∧ f.q = 0 ∧
        f.pc = pc) ∧
    (∀ i : Fin 3, s.focus.event = some (.queueDeadlock c b) → (m.ctx[i.val]).ended = false →
      (∀ j : Fin 3, j < i → (m.ctx[j.val]).ended = true) →
      ∃ t f, Sys2Proof.Machine.exec .queueDeadlock s = .next t ∧
        Sys2Proof.Claims.raised s t c b i f (m.ctx[i.val]).shadow.isSome ∧ f.code = 0x0402 ∧
        f.pc = (m.ctx[i.val]).pc ∧
        ∀ q : Fin 16, f.addr.toNat.testBit q.val = (m.queue i q).isEmpty ∧
          f.addr.toNat.testBit (16 + q.val) = decide (Sys2Proof.Claims.depth q ≤ (m.queue i q).length)) ∧
    (∀ x w l, s.focus.event = some (.formatUnderflow c b x) →
      (m.eqAt 2 (Sys2Proof.Machine.ctxIx x)).words = w :: l → w.tid = m.tid →
      ∃ t f, Sys2Proof.Machine.exec .formatUnderflow s = .next t ∧
        Sys2Proof.Claims.raised s t c b (Sys2Proof.Machine.ctxIx x) f w.trap ∧ f.code = 0x0401 ∧ f.q = 2 ∧
        f.pc = w.pc ∧ (t.img c b).eqAt 2 (Sys2Proof.Machine.ctxIx x) = m.eqAt 2 (Sys2Proof.Machine.ctxIx x)) ∧
    (∀ x, s.focus.event = some (.trapStreamTimeout c b x) →
      ∃ t f, Sys2Proof.Machine.exec .trapStreamTimeout s = .next t ∧
        Sys2Proof.Claims.raised s t c b (Sys2Proof.Machine.ctxIx x) f true ∧ f.code = 0x0D02 ∧ f.user = false) ∧
    (s.focus.event = some (.regionOverrun c b) →
      (m.npr = none → Sys2Proof.Machine.exec .regionOverrun s = .next s) ∧
      (∀ r, m.npr = some r →
        ∃ t f, Sys2Proof.Machine.exec .regionOverrun s = .next t ∧ Sys2Proof.Claims.raised s t c b r.ctx f false ∧
          f.code = 0x0D01 ∧ (t.img c b).npr = none))

/-- R322, R323, R332, R348, R352, R353: the fault handler puts the record in the fault ring, with its action when hardware
decides, and its task is runnable again or fails; the host's cases wait for FAULTACT, which does nothing for an index the
ring does not hold, and goes on to the package of its record. A core that is withdrawn gives its hand back. The migration service brings in an aligned span of at
most 64 KiB × 2^PFBLOCK or, in host-assisted mode, faults the word; a page moves to a free frame and its entry names it. A
fill of an old generation walks again; another enters the stream buffer of its engine. -/
def Sys2Proof.Claims.CasesAreServed : Prop :=
  ∀ (s : Sys2Proof.Machine.State),
    (∀ d id act x, s.focus.event = some (.faultHandlerEnd d id act) → Sys2Proof.Claims.noHandler s →
      (s.die d).cases.find? (fun y => y.id == id) = some x → s.isBridge = true → s.pkg.pcieUp = true →
      s.ringFull = false →
      let code : BitVec 16 := x.record[0].setWidth 16
      let n := s.pkg.bridge.faultHead.toNat
      let a := min 2 act.val
      (Sys2Proof.Machine.hostDecides x.modes code = true →
        ∃ t, Sys2Proof.Machine.exec .faultHandlerEnd s = .next t ∧ t.mem = s.mem ∧
          t.pkg.bridge.ring.get (#v[0, 0, 0, 0]) (n % 64) = x.record ∧
          t.pkg.bridge.faultHead = s.pkg.bridge.faultHead + 1 ∧
          t.pkg.msix = s.pkg.msix ++ [Sys2Proof.Machine.faultVector code, 1] ∧
          (x.num = none → ∃ y ∈ (t.die d).cases, y.id = id ∧ y.num = some n)) ∧
      (∀ tid d' y, Sys2Proof.Machine.hostDecides x.modes code = false → code ≠ 0x0A02 → a < 2 → x.failed = none →
        x.tid = some tid → s.savedTask tid = some (d', y) →
        ∃ t, Sys2Proof.Machine.exec .faultHandlerEnd s = .next t ∧
          t.pkg.bridge.ring.get (#v[0, 0, 0, 0]) (n % 64) = Sys2Proof.Machine.withAction x.record a ∧
          (a = 0 → t.pkg.bridge.faultHead = s.pkg.bridge.faultHead + 1) ∧
          (∀ z ∈ (t.die d).cases, z.id ≠ id) ∧ ∀ z ∈ (t.die d').saved, z.holds tid = true → z.faulted = false)) ∧
    (∀ v, s.focus.event = some (.faultact v) →
      let h := s.pkg.bridge.faultHead.toNat
      let i := v.toNat % 64
      let r := s.pkg.bridge.ring.get (#v[0, 0, 0, 0]) i
      let home := r[3].toNat / 2 ^ 40 % 64
      let n := h - 1 - (h - 1 - i) % 64
      (h ≤ i → Sys2Proof.Machine.exec .faultact s = .next s) ∧
      (i < h → home ≠ s.pkg.num → Sys2Proof.Machine.exec .faultact s = .next
        (if s.reaches home = true then s.send home (.act r.toList (min 2 (v.toNat / 256 % 4))) else s)) ∧
      (i < h → home = s.pkg.num → s.hostCase n = none → (r[0].toNat % 2 ^ 16 ≠ 0x0804 ∨ v.toNat / 256 % 4 < 2) →
        Sys2Proof.Machine.exec .faultact s = .next s) ∧
      (∀ d x tid d' y, i < h → home = s.pkg.num → s.hostCase n = some (d, x) → x.failed = none →
        x.tid = some tid → s.savedTask tid = some (d', y) → v.toNat / 256 % 4 < 2 →
        ∃ t, Sys2Proof.Machine.exec .faultact s = .next t ∧ (∀ z ∈ (t.die d).cases, z.id ≠ x.id) ∧
          ∀ z ∈ (t.die d').saved, z.holds tid = true → z.faulted = false)) ∧
    (∀ c, s.focus.event = some (.coreWithdrawn c) → (s.core c).ineligible = false →
      ∃ t, Sys2Proof.Machine.exec .coreWithdrawn s = .next t ∧ t.mem = s.mem ∧ (t.core c).ineligible = true ∧
        (t.core c).hand = [] ∧ (t.core c).banks = (s.core c).banks ∧
        ((s.core c).idle = true → (t.core c).withdrawn = true)) ∧
    (∀ who va, s.focus.event = some (.migrationService who va) →
      (s.modesNow.toNat.testBit 0 = false → ∃ t k pages due,
        Sys2Proof.Machine.exec .migrationService s = .next t ∧ t.mem = s.mem ∧ k ≤ s.pkg.pfblock.toNat % 8 ∧ s.now < due ∧
        (⟨due, Sys2Proof.Machine.rankUnit, .ev (.migrationComplete who pages)⟩ : Sys2Proof.Machine.Entry) ∈ t.agenda ∧
        ∀ p, p ∈ pages ↔ p % 4096 = 0 ∧ p / (65536 * 2 ^ k) = va.toNat / (65536 * 2 ^ k) ∧ s.isResident p = false) ∧
      (∀ c b w l, s.modesNow.toNat.testBit 0 = true →
        Sys2Proof.Machine.bankWithWord s.cores who.tid who.q (Sys2Proof.Machine.ctxIx who.ctx) = some (c, b) →
        ((s.img c b).eqAt who.q (Sys2Proof.Machine.ctxIx who.ctx)).words = w :: l →
        ∃ t f, Sys2Proof.Machine.exec .migrationService s = .next t ∧
          Sys2Proof.Claims.raised s t c b (Sys2Proof.Machine.ctxIx who.ctx) f w.trap ∧ f.code = 0x0601 ∧ f.addr = va ∧
          f.q = who.q)) ∧
    (∀ who pages c b, s.focus.event = some (.migrationComplete who pages) → s.bankOf who.tid = some (c, b) →
      (pages = [] → ∃ t, Sys2Proof.Machine.exec .migrationComplete s = .next t ∧ t.mem = s.mem ∧
        (⟨s.now, Sys2Proof.Machine.rankDealer, .ev (.waitingTaskReady c b)⟩ : Sys2Proof.Machine.Entry) ∈ t.agenda) ∧
      (∀ p l, pages = [p] → Sys2Proof.Claims.homeless s p l →
        let was := l.pte / 4096 % 2 ^ 40 * 4096
        ∃ t, Sys2Proof.Machine.exec .migrationComplete s = .next t ∧ ∀ frame, s.poolFrame s.free 4096 = some frame →
          (l.key + 8 ≤ frame ∨ frame + 4096 ≤ l.key) →
          (∀ i < 4096, Sys2Proof.Machine.memGet t.mem (frame + i) = Sys2Proof.Machine.memGet s.mem (was + i)) ∧
          t.read l.key 8 = l.pte - was + s.pkgKey frame + 1 ∧
          (⟨s.now, Sys2Proof.Machine.rankDealer, .ev (.waitingTaskReady c b)⟩ : Sys2Proof.Machine.Entry) ∈ t.agenda)) ∧
    (∀ c q va wr gen, s.focus.event = some (.walkFill c q va wr gen) →
      (gen ≠ s.pkg.tgen → ∃ t, Sys2Proof.Machine.exec .walkFill s = .next t ∧ t.mem = s.mem ∧ t.pkg = s.pkg ∧
        Sys2Proof.Claims.coming t Sys2Proof.Machine.rankUnit (.walkFill c q va wr s.pkg.tgen)) ∧
      (∀ k, gen = s.pkg.tgen → (s.translate (some (c, q)) va.toNat wr).1 = .pa k →
        ∃ t, Sys2Proof.Machine.exec .walkFill s = .next t ∧ ∃ e ∈ t.pkg.tlbs.get [] (256 + 13 * c.val + q.val),
          va.toNat / e.size * e.size = e.va ∧ s.place (e.frame + va.toNat % e.size) = some k ∧
            (wr = true → e.w = true)))

/-! ### Registers and the host -/

namespace Sys2Proof.Claims

open Sys2Proof Sys2Proof.Machine

/-- Bit n of a register after a write of v to its fields, which are given by their high and low bits (R7). -/
def afterWrite (fields : List (Nat × Nat)) (old v : Nat) (n : Nat) : Bool :=
  if fields.any (fun f => decide (f.2 ≤ n ∧ n ≤ f.1)) = true then v.testBit n else old.testBit n

/-- The RW fields of system registers (R60, R64, R66, R75, R77, R106, R114, R197, R303, R309 to R313). -/
def rwFields : List (Nat × List (Nat × Nat)) :=
  [(0x020, [(13, 0)]), (0x022, [(12, 0)]), (0x040, [(30, 0), (34, 32), (63, 48)]), (0x041, [(56, 21)]), (0x043, [(20, 0)]),
    (0x203, [(5, 0)]), (0x204, [(7, 0)]), (0x205, [(7, 0)]), (0x206, [(51, 12)]), (0x209, [(2, 0)]), (0x20A, [(7, 0)]),
    (0x20B, [(56, 12)]), (0x20C, [(9, 0), (19, 16)])]

/-- The RW fields of BUSTIMING of a layer (R340). -/
def timingFields (l : Fin 4) : List (Nat × Nat) :=
  [(6, 0), (9, 8), (47, 32), (63, 56)] ++ (if l = 0 then [(15, 10), (55, 48)] else [])

/-- The page that a TLBINV value names: its address and its size (R76). -/
def pageSize (v : Word) : Nat :=
  let k := v.toNat / 2 ^ 57 % 4
  if k = 0 then 2 ^ 12 else if k = 1 then 2 ^ 16 else if k = 2 then 2 ^ 21 else 2 ^ 30
def pageBase (v : Word) : Nat := v.toNat / 2 ^ 12 % 2 ^ 45 * 2 ^ 12 / pageSize v * pageSize v

end Sys2Proof.Claims

/-- R7, R60, R64, R76, R304, R306, R314, R330, R340: what a write of each register does. A forbidden value changes nothing.
ENABLED takes, once, the bits the build has, and locks; TLBINV drops every translation of its page and counts TGEN; REFWIN
sets every forced refresh to come anew; BANKBUDGET is in force from the next period, whose start renews the credits;
BUSTIMING and the other registers take their RW fields, and the bridge sends a write for another package on; NONCE leaves a report of 8,192 bytes: version and length, the nonce,
the device key, M0 to M7, the time and the signature of all that. -/
def Sys2Proof.Claims.RegistersTakeTheirWrites : Prop :=
  ∀ (s : Sys2Proof.Machine.State),
    (∀ v, s.focus.event = some (.enabled v) → s.pkg.phase = 5 →
      let f := s.pkg.features.toNat
      (s.pkg.enabled.toNat.testBit 63 = true ∨ v.toNat / 2 ^ 16 % 4 = 3 →
        Sys2Proof.Machine.exec .enabled s = .next s) ∧
      (s.pkg.enabled.toNat.testBit 63 = false → v.toNat / 2 ^ 16 % 4 ≠ 3 →
        ∃ t, Sys2Proof.Machine.exec .enabled s = .next t ∧ t.mem = s.mem ∧ (∀ c, (t.core c).banks = (s.core c).banks) ∧
          t.pkg.features = s.pkg.features ∧ ∀ n, t.pkg.enabled.toNat.testBit n =
            (n == 63 || (v.toNat.testBit n && (n == 0 || n == 1 || (n == 2 && f.testBit 8) || (n == 3 && f.testBit 9) ||
              (n == 16 && f.testBit 6) || (n == 17 && f.testBit 7)))))) ∧
    (∀ v, s.focus.event = some (.tlbinv v) →
      ∃ t, Sys2Proof.Machine.exec .tlbinv s = .next t ∧ t.mem = s.mem ∧ t.pkg.tgen = s.pkg.tgen + 1 ∧
        ∀ n e, e ∈ t.pkg.tlbs.get [] n ↔ e ∈ s.pkg.tlbs.get [] n ∧ v.toNat.testBit 63 = false ∧
          (e.va + e.size ≤ Sys2Proof.Claims.pageBase v ∨
            Sys2Proof.Claims.pageBase v + Sys2Proof.Claims.pageSize v ≤ e.va)) ∧
    (∀ c v, s.focus.event = some (.refwinWrite c v) →
      ∃ t, Sys2Proof.Machine.exec .refwinWrite s = .next t ∧ t.mem = s.mem ∧
        (t.col c).refwin.toNat = (s.col c).refwin.toNat / 2 ^ 14 * 2 ^ 14 + v.toNat % 2 ^ 14 ∧
        ∀ (k : Fin 32) e, e ∈ t.agenda → e.act = .ev (.forcedRefresh c k) →
          (e ∈ s.agenda ∧ e.due ≤ s.now) ∨ e.due = max ((s.dram c k).window + v.toNat % 2 ^ 14) (s.now + 1)) ∧
    (∀ c g v, s.focus.event = some (.bankbudgetWrite c g v) →
      let sum := ((List.range 5).map fun i => v.toNat / 2 ^ (8 * i) % 128).sum
      (64 < sum → Sys2Proof.Machine.exec .bankbudgetWrite s = .next s) ∧
      (sum ≤ 64 → ∃ t, Sys2Proof.Machine.exec .bankbudgetWrite s = .next t ∧ t.mem = s.mem ∧
        (t.core c).budget = (s.core c).budget.set g.val (v &&& 0x7F7F7F7F7F) ∧
        (t.core c).budgetNow = (s.core c).budgetNow)) ∧
    (s.focus.event = some .bankPeriodStart →
      ∃ t, Sys2Proof.Machine.exec .bankPeriodStart s = .next t ∧ t.mem = s.mem ∧
        (∀ c, (t.core c).budgetNow = (s.core c).budget ∧ (t.core c).credits = [] ∧
          (t.core c).banks = (s.core c).banks) ∧
        (⟨s.now + 64, Sys2Proof.Machine.rankLand, .ev .bankPeriodStart⟩ : Sys2Proof.Machine.Entry) ∈ t.agenda) ∧
    (∀ c l v, s.focus.event = some (.bustimingWrite c l v) →
      (v.toNat / 2 ^ 8 % 4 = 3 → Sys2Proof.Machine.exec .bustimingWrite s = .next s) ∧
      (v.toNat / 2 ^ 8 % 4 ≠ 3 → ∃ t, Sys2Proof.Machine.exec .bustimingWrite s = .next t ∧ t.mem = s.mem ∧
        ∀ n < 64, (t.col c).busTiming[l.val].toNat.testBit n =
          Sys2Proof.Claims.afterWrite (Sys2Proof.Claims.timingFields l) (s.col c).busTiming[l.val].toNat v.toNat n)) ∧
    (∀ off v c n, s.focus.event = some (.registerWrite off v) → s.pkg.open = true →
      Sys2Proof.Machine.regAt off = .reg s.pkg.num c n →
      (Sys2Proof.Machine.sysForbidden n v = true → Sys2Proof.Machine.exec .registerWrite s = .next s) ∧
      (∀ fields, (n, fields) ∈ Sys2Proof.Claims.rwFields → Sys2Proof.Machine.sysForbidden n v = false →
        ∃ t, Sys2Proof.Machine.exec .registerWrite s = .next t ∧ t.mem = s.mem ∧
          ∀ k, ∀ i < 64, (t.sysRead c k n).toNat.testBit i =
            Sys2Proof.Claims.afterWrite fields (s.sysRead c k n).toNat v.toNat i)) ∧
    (∀ v, s.focus.event = some (.registerWrite 0x4000008 v) →
      (s.pkg.block = false → Sys2Proof.Machine.exec .registerWrite s = .next s) ∧
      (s.pkg.block = true → ∃ t, Sys2Proof.Machine.exec .registerWrite s = .next t ∧ t.mem = s.mem ∧
        ∀ n < 64, t.pkg.bridge.hostRing.toNat.testBit n =
          Sys2Proof.Claims.afterWrite [(63, 12)] s.pkg.bridge.hostRing.toNat v.toNat n)) ∧
    (∀ off v p c n, s.focus.event = some (.registerWrite off v) → s.pkg.open = true →
      Sys2Proof.Machine.regAt off = .reg p c n → p ≠ s.pkg.num → s.reaches p = true →
      Sys2Proof.Machine.exec .registerWrite s = .next (s.send p (.host (.reg off v)))) ∧
    (∀ v, s.focus.event = some (.nonce v) →
      ∃ t, Sys2Proof.Machine.exec .nonce s = .next t ∧ t.mem = s.mem ∧
        let r := t.pkg.bridge.report
        r.length = 1024 ∧ r.getD 0 0 = BitVec.ofNat 64 (1 + 8192 * 2 ^ 32) ∧
          (∀ i < 4, r.getD (1 + i) 0 = v.getD i 0 ∧ r.getD (5 + i) 0 = Sys2Proof.Config.identityKey i) ∧
          (∀ (i : Fin 8) (j : Nat), j < 4 →
            r.getD (9 + 4 * i.val + j) 0 = BitVec.ofNat 64 (s.pkg.meas[i.val].toNat / 2 ^ (64 * j))) ∧
          r.getD 41 0 = BitVec.ofNat 64 (s.groupNs / 1000000000 % 2 ^ 48) ∧
          ∀ i < 982, r.getD (42 + i) 0 = (Sys2Proof.Config.signature (r.take 42)).getD i 0)

/-- R24, R104, R303, R304, R338, R360, R374, R376: a host read of this package answers the bytes of its place, with EP when a
granule it reads is poisoned, Completer Abort where no such place is, the registers of BAR0, and zeros of BAR2; a host write
writes its bytes, poisoned when it carries EP; and a write of 128 aligned bytes to the enqueue window enqueues a launch block,
any other counts HOSTREFUSED. What is for another package of the group is sent on to it. -/
def Sys2Proof.Claims.HostReachesThePackage : Prop :=
  ∀ (s : Sys2Proof.Machine.State),
    (∀ bar off n, s.focus.event = some (.hostMemoryRead bar off n) →
      let ends (f : Sys2Proof.Machine.State → Sys2Proof.Machine.HostAnswer → Prop) : Prop :=
        ∃ t a, Sys2Proof.Machine.exec .hostMemoryRead s = .next t ∧ t.mem = s.mem ∧
          t.pkg.hostAnswers = s.pkg.hostAnswers ++ [a] ∧ f t a
      let aborts : Prop := ends fun _ a => a = { bytes := [], ep := false, abort := true }
      (∀ k, bar = 2 → s.pkg.open = true → off < 2 ^ 51 → off / 2 ^ 45 = s.pkg.num → s.hostPlace off n = .ok k →
        s.latent = [] → ends fun _ a => a.abort = false ∧ a.bytes.length = n ∧
          (∀ i < n, a.bytes.getD i 0 = Sys2Proof.Machine.memGet s.mem (k + i)) ∧
          (a.ep = true ↔ ∃ i < n, Sys2Proof.Machine.granuleOf (k + i) ∈ s.poison)) ∧
      (bar = 2 → (s.pkg.open = false ∨ 2 ^ 51 ≤ off ∨ (off / 2 ^ 45 = s.pkg.num ∧ ∃ e, s.hostPlace off n = .error e)) →
        aborts) ∧
      (bar = 1 → s.pkg.open = true → off / 0x4000 = s.pkg.num → ends fun t a => t.pkg.bridge = s.pkg.bridge ∧
        a = { bytes := List.replicate n 0, ep := false, abort := false }) ∧
      (bar = 0 → n = 8 → off % 8 = 0 → (if 0x4000000 ≤ off then s.pkg.block = true
          else s.pkg.open = true ∧ off / 2 ^ 20 = s.pkg.num) →
        ends fun _ a => a.abort = false ∧ ∀ i < 8, (a.bytes.getD i 0).toNat = (s.regRead off).toNat / 2 ^ (8 * i) % 256) ∧
      (∀ p, s.pkg.open = true → off < (if bar = 0 then 0x4000000 else 2 ^ 51) →
        p = off / (if bar = 0 then 2 ^ 20 else if bar = 1 then 0x4000 else 2 ^ 45) →
        p ≠ s.pkg.num → (s.reaches p = true → Sys2Proof.Machine.exec .hostMemoryRead s =
          .next (s.send p (.host (.read bar off n)))) ∧ (s.reaches p = false → aborts))) ∧
    (∀ pa bytes ep, s.focus.event = some (.hostMemoryWrite pa bytes ep) →
      (∀ k, s.pkg.open = true → pa < 2 ^ 51 → pa / 2 ^ 45 = s.pkg.num → s.hostPlace pa bytes.length = .ok k →
        Sys2Proof.Machine.Memory.wf s.mem = true →
        ∃ t, Sys2Proof.Machine.exec .hostMemoryWrite s = .next t ∧
          (∀ i < bytes.length, Sys2Proof.Machine.memGet t.mem (k + i) = bytes.getD i 0) ∧
          (∀ a, a < k ∨ k + bytes.length ≤ a →
            Sys2Proof.Machine.memGet t.mem a = Sys2Proof.Machine.memGet s.mem a) ∧
          (ep = true → ∀ i < bytes.length, Sys2Proof.Machine.granuleOf (k + i) ∈ t.poison)) ∧
      (s.pkg.open = false ∨ 2 ^ 51 ≤ pa → Sys2Proof.Machine.exec .hostMemoryWrite s = .next s) ∧
      (s.pkg.open = true → pa < 2 ^ 51 → pa / 2 ^ 45 ≠ s.pkg.num → Sys2Proof.Machine.exec .hostMemoryWrite s =
        .next (if s.reaches (pa / 2 ^ 45) = true then s.send (pa / 2 ^ 45) (.host (.write pa bytes ep)) else s)) ∧
      (pa / 2 ^ 45 = s.pkg.num → (∃ e, s.hostPlace pa bytes.length = .error e) →
        ∃ t, Sys2Proof.Machine.exec .hostMemoryWrite s = .next t ∧ t.mem = s.mem)) ∧
    (∀ off bytes, s.focus.event = some (.hostEnqueueWrite off bytes) → s.pkg.open = true → off < 0x100000 →
      (bytes.length = 128 ∧ off % 128 = 0 → off / 0x4000 = s.pkg.num →
        ∃ t blk, Sys2Proof.Machine.exec .hostEnqueueWrite s = .next t ∧ t.mem = s.mem ∧ t.pkg = s.pkg ∧
          (∃ r, (⟨s.now, r, .ev (.launchEnqueue (Fin.ofNat 4 (off / 0x1000)) blk (.host off)
            none true)⟩ : Sys2Proof.Machine.Entry) ∈ t.agenda) ∧
          blk.length = 16 ∧ ∀ i < 16, (blk.getD i 0).toNat =
            ((List.range 8).map fun j => (bytes.getD (8 * i + j) 0).toNat * 2 ^ (8 * j)).sum) ∧
      (bytes.length = 128 ∧ off % 128 = 0 → off / 0x4000 ≠ s.pkg.num → s.reaches (off / 0x4000) = true →
        Sys2Proof.Machine.exec .hostEnqueueWrite s = .next (s.send (off / 0x4000) (.host (.enqueue off bytes)))) ∧
      (bytes.length ≠ 128 ∨ off % 128 ≠ 0 →
        ∃ t, Sys2Proof.Machine.exec .hostEnqueueWrite s = .next t ∧ t.mem = s.mem ∧
          t.pkg.bridge.hostRefused = s.pkg.bridge.hostRefused + 1))

/-! ### The start, power and heat -/

namespace Sys2Proof.Claims

open Sys2Proof Sys2Proof.Machine

/-- What a start leaves (R301, R302): the machine right after reset, but for the repair state and what comes from
outside. -/
def started (s t : State) : Prop :=
  t.now = 0 ∧ t.mem = [] ∧ t.poison = [] ∧ t.cores = [] ∧
    (∀ d, (t.die d).records = [] ∧ (t.die d).saved = [] ∧ (t.die d).cases = []) ∧ t.pkg.enabled = 0 ∧ t.pkg.modes = 0 ∧
    t.pkg.tlbs = [] ∧
    (∀ p : Port, (t.pkg.ports.get PortState.reset p.val).trained = (s.pkg.ports.get PortState.reset p.val).trained) ∧
    (∀ c l, (t.slice c l).retired = (s.slice c l).retired ∧ (t.slice c l).spares = (s.slice c l).spares ∧
      (t.slice c l).condemned.isSome = (s.slice c l).condemned.isSome) ∧
    ∀ e ∈ s.agenda, ∀ x, e.act = .ev x → x.external = true → { e with due := e.due - s.now } ∈ t.agenda

/-- A packet has left on a port, for the neighbour there. -/
def leftOn (t : State) (p : Port) (x : Packet) : Prop :=
  ∃ y ∈ t.pkg.sentPackets, y.port = some p.val ∧ y.dest = none ∧ y.pkt = x

/-- Step 3 (R301, R376): a strapped package that is joined to none is a group by itself, and one that is joined to others sends
its claim on every trained port; any other waits for a claim, at most 2^24 cycles. -/
def stepThreeBegun (s t : State) (strap : Bool) : Prop :=
  (strap = true → (∀ p : Port, (s.pkg.ports.get PortState.reset p.val).trained = false) →
    t.pkg.phase = 5 ∧ t.pkg.num = 0 ∧ t.pkg.group = 1 ∧ t.pkg.pcieUp = true) ∧
  (strap = true → (∃ p : Port, (s.pkg.ports.get PortState.reset p.val).trained = true) →
    t.pkg.phase = 3 ∧ t.pkg.pcieUp = false ∧ t.pkg.claims = [ownClaim] ∧
      ∀ p : Port, (s.pkg.ports.get PortState.reset p.val).trained = true → leftOn t p (.claim ownClaim)) ∧
  (strap = false → t.pkg.phase = 3 ∧ t.pkg.pcieUp = false ∧
    (⟨2 ^ 24, rankUnit, .ev .bridgeClaimTimeout⟩ : Entry) ∈ t.agenda)

/-- STATE of RAMPUP (R310). -/
def rampState (s : State) : Nat := s.pkg.rampUp.toNat / 2 ^ 24 % 4

/-- Of one interval's samples, in the millisecond of group time `ms`, the mean of the window before, in µW (R309). -/
def windowBefore (g : Governor) (ms : Nat) : Option Nat :=
  if ms = g.window then g.prev else if g.count = 0 then none else some (g.sum * 1000 / g.count)

end Sys2Proof.Claims

/-- R301, R302, R314, R376: a start leaves what reset leaves, and keeps the repair state; it goes on to step 3, but not with a
boot image that does not verify. RESET of the bridge starts the group. A new claim goes on once; it ends the wait of a package
with its strap low, and the start of a strapped one; and a package that hears none stays in step 3. -/
def Sys2Proof.Claims.PackagesStart : Prop :=
  ∀ (s : Sys2Proof.Machine.State),
    let bridge := s.pkg.features.toNat.testBit 0
    (s.focus.event = some .reset →
      ((bridge = true ∧ s.pkg.block = true) ∨ (bridge = false ∧ s.pkg.phase ≠ 1) →
        s.pkg.phase ≠ 1 → ∃ t, Sys2Proof.Machine.exec .reset s = .next t ∧ Sys2Proof.Claims.started s t ∧
          Sys2Proof.Claims.stepThreeBegun s t bridge ∧ t.pkg.features = s.pkg.features ∧ t.pkg.meas = s.pkg.meas ∧
          (bridge = true → ∀ p, p < s.pkg.group → p ≠ s.pkg.num →
            ∃ x ∈ t.pkg.sentPackets, x.dest = some p ∧ x.pkt = .restart)) ∧
      ((bridge = true ∧ s.pkg.block = false) ∨ (bridge = false ∧ s.pkg.phase = 1) →
        Sys2Proof.Machine.exec .reset s = .next s)) ∧
    (∀ strap ok, s.focus.event = some (.powerOn strap ok) →
      ∃ t, Sys2Proof.Machine.exec .powerOn s = .next t ∧ Sys2Proof.Claims.started s t ∧
        (∀ n < 64, t.pkg.features.toNat.testBit n = if n = 0 ∨ n = 6 then strap else s.pkg.features.toNat.testBit n) ∧
        (ok = true → Sys2Proof.Claims.stepThreeBegun s t strap ∧
          ∀ i : Fin 8, t.pkg.meas[i.val] = Sys2Proof.Config.bootMeasure i.val) ∧
        (ok = false → t.pkg.phase = 1 ∧ t.pkg.pcieUp = false ∧ ∀ i : Fin 8, t.pkg.meas[i.val] = 0)) ∧
    (∀ port n, s.focus.event = some (.bridgeClaim port n) →
      (n ∈ s.pkg.claims → Sys2Proof.Machine.exec .bridgeClaim s = .next s) ∧
      (n ∉ s.pkg.claims → ∃ t, Sys2Proof.Machine.exec .bridgeClaim s = .next t ∧ t.mem = s.mem ∧ (∀ c, (t.core c).banks = (s.core c).banks) ∧
        t.pkg.claims = s.pkg.claims ++ [n] ∧
        (∀ p : Sys2Proof.Machine.Port, p ≠ port →
          (s.pkg.ports.get Sys2Proof.Machine.PortState.reset p.val).trained = true →
          Sys2Proof.Claims.leftOn t p (.claim n)) ∧
        (s.pkg.phase = 3 → bridge = true → t.pkg.phase = 6 ∧ t.pkg.pcieUp = true) ∧
        (s.pkg.phase = 3 → bridge = false → t.pkg.phase = 3 ∧ ∀ e ∈ t.agenda, e.act ≠ .ev .bridgeClaimTimeout))) ∧
    (s.focus.event = some .bridgeClaimTimeout →
      (s.pkg.phase = 3 → Sys2Proof.Machine.exec .bridgeClaimTimeout s =
        .next { s with pkg := { s.pkg with phase := 7, pcieUp := false } }) ∧
      (s.pkg.phase ≠ 3 → Sys2Proof.Machine.exec .bridgeClaimTimeout s = .next s))

/-- R309 to R313, R372, R377: the governor compares each sample with the limits of the last window, an invalid one counting
as the last valid one, and withholds a share of the tokens above them; the 1,000th invalid one in a row sets every ALLOW to 1,125. Every µs
of group time renews the tokens. The thermal manager, every 100 µs, keeps a column of 95 °C or more from new groups and stops its latest
task, and frees one below 90 °C; at a trip every task of the column stops. A telemetry record is 32 bytes of its ring, and
the bridge copies the records that it has, in their order, to the host's ring while that has room. -/
def Sys2Proof.Claims.PowerAndHeatAreGoverned : Prop :=
  ∀ (s : Sys2Proof.Machine.State),
    (∀ power valid, s.focus.event = some (.governorSample power valid) →
      let g := s.pkg.gov
      let n := if valid = true then power else g.lastGood
      let bad := if valid = true then 0 else g.invalid + 1
      let up := s.pkg.rampUp.toNat % 256 * 1000000
      let down := s.pkg.rampDown.toNat % 256 * 1000000
      let on := s.pkg.enabled.toNat.testBit 0
      let ms := (s.groupNs - 1) / 1000000
      let before := Sys2Proof.Claims.windowBefore g ms
      let above := match before with
        | some p => if on = true then min (p + up) 1600000000 else 1600000000
        | none => 1600000000
      let below := match before with
        | some p => if on = true then p - down else 0
        | none => 0
      ∃ t, Sys2Proof.Machine.exec .governorSample s = .next t ∧ t.mem = s.mem ∧ t.pkg.gov.lastGood = n ∧
        t.pkg.gov.invalid = bad ∧ t.pkg.gov.share ≤ 65536 ∧ (1000 * n ≤ above → t.pkg.gov.share = 0) ∧
        t.pkg.gov.prev = before ∧ t.pkg.gov.window = ms ∧
        t.pkg.gov.sum = (if ms = g.window then g.sum else 0) + n ∧
        t.pkg.gov.count = (if ms = g.window then g.count else 0) + 1 ∧
        Sys2Proof.Claims.rampState t = (if 1000 ≤ bad ∨ above < 1000 * n then 1 else if 1000 * n < below then
          (if s.pkg.enabled.toNat.testBit 2 = true then 3 else 2) else 0) ∧
        ∀ c, (t.col c).thermal.toNat % 4096 = if bad = 1000 then 1125 else (s.col c).thermal.toNat % 4096) ∧
    (s.focus.event = some .tokenPeriod →
      ∃ t, Sys2Proof.Machine.exec .tokenPeriod s = .next t ∧ t.mem = s.mem ∧
        (s.atMultiple 1000 = false → t.cores = s.cores) ∧
        (s.atMultiple 1000 = true → ∀ c, (t.core c).tokVe = 0 ∧ (t.core c).tokMe = 0 ∧
          (t.core c).banks = (s.core c).banks) ∧
        (⟨s.nextMultiple 1000, Sys2Proof.Machine.rankLand, .ev .tokenPeriod⟩ : Sys2Proof.Machine.Entry) ∈ t.agenda) ∧
    (∀ c, s.focus.event = some (.thermalManagerAction c) →
      ∃ t, Sys2Proof.Machine.exec .thermalManagerAction s = .next t ∧ t.mem = s.mem ∧
        (⟨s.nextMultiple 100000, Sys2Proof.Machine.rankUnit, .ev (.thermalManagerAction c)⟩ : Sys2Proof.Machine.Entry) ∈
          t.agenda ∧
        (s.atMultiple 100000 = false ∨ s.pkg.modes.toNat.testBit 2 = true ∨ (90 ≤ s.hottest c ∧ s.hottest c < 95) → t.cols = s.cols) ∧
        (s.atMultiple 100000 = true → s.pkg.modes.toNat.testBit 2 = false → s.hottest c < 90 →
          (t.col c).thermal.toNat.testBit 12 = false ∧ (t.col c).thermal.toNat % 4096 = 2250) ∧
        (s.atMultiple 100000 = true → s.pkg.modes.toNat.testBit 2 = false → 95 ≤ s.hottest c → (t.col c).thermal.toNat.testBit 12 = true ∧
          ∀ k b x, k < 8 → s.stopAsked c = false →
            (s.core (Sys2Proof.Machine.colCore c k)).running = some (b, x) → x.system = false →
            ∃ k' b' y, k' < 8 ∧ (s.core (Sys2Proof.Machine.colCore c k')).running = some (b', y) ∧ y.system = false ∧
              x.started ≤ y.started ∧ (⟨s.now, Sys2Proof.Machine.rankStop,
                .ev (.taskStop (Sys2Proof.Machine.colCore c k') b' .thermal)⟩ : Sys2Proof.Machine.Entry) ∈ t.agenda)) ∧
    (∀ c, s.focus.event = some (.thermalTrip c) →
      ∃ t, Sys2Proof.Machine.exec .thermalTrip s = .next t ∧ t.mem = s.mem ∧
        (t.col c).thermal.toNat.testBit 12 = true ∧ ∀ k b x, k < 8 →
          (s.core (Sys2Proof.Machine.colCore c k)).running = some (b, x) → x.system = false →
          (⟨s.now, Sys2Proof.Machine.rankStop, .ev (.taskStop (Sys2Proof.Machine.colCore c k) b .thermal)⟩ :
            Sys2Proof.Machine.Entry) ∈ t.agenda ∧
          ((s.img (Sys2Proof.Machine.colCore c k) b).npr.isSome = true →
            (t.core (Sys2Proof.Machine.colCore c k)).throttled = true)) ∧
    (∀ c b, s.focus.event = some (.throttleEnd c b) →
      ∃ t, Sys2Proof.Machine.exec .throttleEnd s = .next t ∧ t.mem = s.mem ∧
        (t.core c) = { s.core c with throttled := false }) ∧
    (∀ power icore isram idram board, s.focus.event = some (.telemetryRecord power icore isram idram board) →
      let n := s.pkg.telectl.toNat / 2 ^ 32
      (s.pkg.enabled.toNat.testBit 1 = false → Sys2Proof.Machine.exec .telemetryRecord s = .next s) ∧
      (s.pkg.enabled.toNat.testBit 1 = true → ∃ t, Sys2Proof.Machine.exec .telemetryRecord s = .next t ∧
        t.pkg.telectl.toNat = s.pkg.telectl.toNat % 2 ^ 32 + (n + 1) % 2 ^ 32 * 2 ^ 32 ∧
        ∀ k x y, (s.translate none (s.pkg.telebase.toNat + 32 * (n % 2 ^ (s.pkg.telectl.toNat / 2 ^ 16 % 16))) true).1 =
            .pa k →
          Sys2Proof.Machine.spaceOf k = .far 0 x y → s.poison = [] → Sys2Proof.Machine.Memory.wf s.mem = true →
          t.read k 6 = s.groupNs / 1000000000 % 2 ^ 48 ∧ t.read (k + 6) 4 = s.groupNs % 1000000000 ∧
          t.read (k + 10) 4 = power % 2 ^ 32 ∧ t.read (k + 14) 2 = icore % 2 ^ 16 ∧
          t.read (k + 16) 2 = isram % 2 ^ 16 ∧ t.read (k + 18) 2 = idram % 2 ^ 16 ∧
          t.read (k + 20) 1 = Sys2Proof.Claims.rampState s + (if s.pkg.tele.refused = true then 4 else 0) ∧
          t.read (k + 21) 1 = s.pkg.num % 64 ∧ (∀ j : Fin 5, t.read (k + 22 + j.val) 1 = s.hottestLayer j % 256) ∧
          t.read (k + 27) 1 = (if s.pkg.features.toNat.testBit 1 = true then board % 256 else 0) ∧ t.read (k + 28) 4 = n % 2 ^ 32)) ∧
    (s.focus.event = some .telemetryHostCopy →
      let b := s.pkg.bridge
      let size := 2 ^ (8 + b.hostSize.toNat)
      (s.pkg.tele.wait = [] ∨ s.pkg.pcieUp = false → Sys2Proof.Machine.exec .telemetryHostCopy s = .next s) ∧
      (∀ x rest k, s.pkg.tele.wait = x :: rest → s.pkg.pcieUp = true → s.teleReady x = true →
        (b.hostHead - b.hostTail).toNat ≠ size →
        (s.pkg.tele.nexts.get 0 x.pkg + 2 ^ 32 - x.seq) % 2 ^ 32 ≤ x.ring → x.bytes.length ≤ 32 →
        (s.translate none (s.teleVa x.seq) false).1 = .pa k →
        s.latent = [] → s.poison = [] → Sys2Proof.Machine.Memory.wf s.mem = true →
        ∃ t, Sys2Proof.Machine.exec .telemetryHostCopy s = .next t ∧ t.pkg.tele.wait = rest ∧
          t.pkg.bridge.hostHead = b.hostHead + 1 ∧
          ∀ i < 32, (x.pkg = s.pkg.num ∨ i < x.bytes.length) → Sys2Proof.Machine.memGet t.mem
            (2 ^ 51 + (b.hostRing.toNat + 32 * (b.hostHead.toNat % size)) % 2 ^ 51 + i) =
            if x.pkg = s.pkg.num then Sys2Proof.Machine.memGet (s.translate none (s.teleVa x.seq) false).2.mem (k + i)
            else x.bytes.getD i 0))

/-! ### Time and links -/

/-- R299, R300, R307, R308, R373 to R375, R377: the bridge sends a sync every 125 µs; another package sets its clock to a
sync plus its link's delay and forwards it to the packages found through it; each trained port measures its link every ms. A
sound time-of-day message gives the seconds of the next edge; PTM sets the
bridge's clock. A packet in a flit that passes its check is performed, or forwarded when it is another package's; the eighth
failure in a row takes the port down. The bridge numbers the packages that the links reach, and gives them new routes; and loss
of the host is recorded. -/
def Sys2Proof.Claims.TimeAndLinks : Prop :=
  ∀ (s : Sys2Proof.Machine.State),
    let bridge := s.pkg.features.toNat.testBit 0
    let source := s.pkg.enabled.toNat / 2 ^ 16 % 4
    let trained (p : Sys2Proof.Machine.Port) : Prop :=
      (s.pkg.ports.get Sys2Proof.Machine.PortState.reset p.val).trained = true
    (s.focus.event = some .ptpSyncSend →
      ∃ t, Sys2Proof.Machine.exec .ptpSyncSend s = .next t ∧ t.mem = s.mem ∧
        (⟨s.now + 125 * 2250, Sys2Proof.Machine.rankUnit, .ev .ptpSyncSend⟩ : Sys2Proof.Machine.Entry) ∈ t.agenda ∧
        (bridge = false → t.pkg = s.pkg) ∧
        (bridge = true → ∀ p : Sys2Proof.Machine.Port, trained p →
          Sys2Proof.Claims.leftOn t p (.sync (BitVec.ofNat 48 (s.groupNs / 1000000000))
            (BitVec.ofNat 32 (s.groupNs % 1000000000))))) ∧
    (∀ port sec ns, s.focus.event = some (.ptpSyncArrival port sec ns) →
      (bridge = true → Sys2Proof.Machine.exec .ptpSyncArrival s = .next s) ∧
      (bridge = false →
        let x := sec.toNat * 1000000000 + ns.toNat +
          (s.pkg.ports.get Sys2Proof.Machine.PortState.reset port.val).delay
        x < 2 ^ 48 * 1000000000 →
        ∃ t, Sys2Proof.Machine.exec .ptpSyncArrival s = .next t ∧ t.mem = s.mem ∧ t.groupNs = x ∧
          ∀ p : Sys2Proof.Machine.Port, p.val ∈ Sys2Proof.Machine.childPorts s.pkg.links s.pkg.num → trained p →
            Sys2Proof.Claims.leftOn t p (.sync (BitVec.ofNat 48 (x / 1000000000))
              (BitVec.ofNat 32 (x % 1000000000))))) ∧
    (∀ port, s.focus.event = some (.linkDelayMeasure port) →
      let x := s.pkg.ports.get Sys2Proof.Machine.PortState.reset port.val
      (x.trained = false → Sys2Proof.Machine.exec .linkDelayMeasure s = .next s) ∧
      (x.trained = true →
        ∃ t, Sys2Proof.Machine.exec .linkDelayMeasure s = .next t ∧ t.mem = s.mem ∧
          (t.pkg.ports.get Sys2Proof.Machine.PortState.reset port.val) = { x with asked := some s.now } ∧
          Sys2Proof.Claims.leftOn t port .delayAsk ∧
          (⟨s.now + 2250000, Sys2Proof.Machine.rankUnit, .ev (.linkDelayMeasure port)⟩ : Sys2Proof.Machine.Entry) ∈
            t.agenda)) ∧
    (∀ bytes, s.focus.event = some (.todMessage bytes) →
      let sound := bytes.length = 12 ∧ bytes.getD 0 0 = 0x54 ∧ bytes.getD 1 0 = 0x44 ∧
        (bytes.take 11).foldl (fun x y => x ^^^ y) 0 = bytes.getD 11 0
      (bridge = true ∧ source = 2 ∧ sound →
        ∃ t, Sys2Proof.Machine.exec .todMessage s = .next t ∧ t.mem = s.mem ∧ ∃ v, t.pkg.clock.next = some v ∧
          v.toNat = ((List.range 6).map fun i => (bytes.getD (2 + i) 0).toNat * 2 ^ (8 * i)).sum) ∧
      (¬(bridge = true ∧ source = 2 ∧ sound) → Sys2Proof.Machine.exec .todMessage s = .next s)) ∧
    (s.focus.event = some .ppsEdge →
      (s.pkg.clock.next = none ∨ source ≠ 2 → Sys2Proof.Machine.exec .ppsEdge s = .next s) ∧
      (∀ v, s.pkg.clock.next = some v → source = 2 → s.pkg.clock.lost = false →
        ∃ t, Sys2Proof.Machine.exec .ppsEdge s = .next t ∧ t.mem = s.mem ∧ t.pkg.clock.next = none ∧
          t.groupNs = v.toNat * 1000000000)) ∧
    (∀ sec ns, s.focus.event = some (.ptmSteer sec ns) →
      (¬(bridge = true ∧ source = 1) → Sys2Proof.Machine.exec .ptmSteer s = .next s) ∧
      (bridge = true ∧ source = 1 → s.pkg.clock.lost = false →
        ∃ t, Sys2Proof.Machine.exec .ptmSteer s = .next t ∧ t.mem = s.mem ∧
          t.groupNs = sec.toNat * 1000000000 + ns.toNat)) ∧
    (s.focus.event = some .timeSourceLoss →
      Sys2Proof.Machine.exec .timeSourceLoss s =
        .next { s with pkg := { s.pkg with clock := { s.pkg.clock with lost := true } } }) ∧
    (∀ port ok src dest p, s.focus.event = some (.flitReceive port ok src dest p) →
      let x := s.pkg.ports.get Sys2Proof.Machine.PortState.reset port.val
      let mine := dest = none ∨ (dest = some s.pkg.num ∧ s.pkg.phase = 5)
      let here (t : Sys2Proof.Machine.State) : Prop := Sys2Proof.Machine.exec .flitReceive s = .next t
      (∀ a vals bad, ok = true → mine → p = .answer a vals bad →
        ∃ t, here t ∧ t.mem = s.mem ∧
          (t.pkg.ports.get Sys2Proof.Machine.PortState.reset port.val) = { x with fails := 0 } ∧
          (⟨s.now, Sys2Proof.Machine.rankAnswer, .ev (.syncAnswer a vals bad)⟩ : Sys2Proof.Machine.Entry) ∈ t.agenda) ∧
      (∀ pa cells k, ok = true → mine → p = .write pa cells → pa.testBit 51 = false →
        s.hostPlace pa cells.length = .ok k → Sys2Proof.Machine.Memory.wf s.mem = true →
        ∃ t, here t ∧
          (∀ i (h : i < cells.length), Sys2Proof.Machine.memGet t.mem (k + i) = cells[i].1) ∧
          ∀ a, a < k ∨ k + cells.length ≤ a →
            Sys2Proof.Machine.memGet t.mem a = Sys2Proof.Machine.memGet s.mem a) ∧
      (∀ held n, ok = true → mine → p = .delayAnswer held → x.asked = some n →
        ∃ t, here t ∧ t.mem = s.mem ∧ (t.pkg.ports.get Sys2Proof.Machine.PortState.reset port.val) =
          { x with fails := 0, delay := ((s.now - n) * 4 / 9 - held) / 2, asked := none }) ∧
      (∀ d, ok = true → dest = some d → s.pkg.phase = 5 → d ≠ s.pkg.num →
        ∃ t, here t ∧ t.mem = s.mem ∧ t.agenda = s.agenda ∧ t.pkg.sentPackets = s.pkg.sentPackets ++
          [{ src, dest := some d, port := s.routeTo d, cls := p.cls, pkt := p }]) ∧
      (∀ d num group links, ok = true → dest = some d → p = .enumerate num group links → s.pkg.phase = 3 →
        bridge = false → s.pkg.claims ≠ [] →
        ∃ t, here t ∧ t.mem = s.mem ∧ t.pkg.phase = 5 ∧ t.pkg.num = num ∧ t.pkg.group = group ∧ t.pkg.links = links ∧
          t.pkg.pcieUp = true) ∧
      (ok = false → x.fails ≠ 7 → ∃ t, here t ∧ t.mem = s.mem ∧
        t.agenda = s.agenda ∧ (t.pkg.ports.get Sys2Proof.Machine.PortState.reset port.val) =
          { x with fails := x.fails + 1 }) ∧
      (ok = false → x.fails = 7 → ∃ t, here t ∧ t.mem = s.mem ∧
        (⟨s.now, Sys2Proof.Machine.rankUnit, .ev (.portDown port)⟩ : Sys2Proof.Machine.Entry) ∈ t.agenda)) ∧
    (∀ port, s.focus.event = some (.portDown port) →
      ∃ t, Sys2Proof.Machine.exec .portDown s = .next t ∧ t.mem = s.mem ∧
        (t.pkg.ports.get Sys2Proof.Machine.PortState.reset port.val).trained = false) ∧
    (∀ port, s.focus.event = some (.portTrained port) →
      ∃ t, Sys2Proof.Machine.exec .portTrained s = .next t ∧ t.mem = s.mem ∧
        (t.pkg.ports.get Sys2Proof.Machine.PortState.reset port.val).trained = true ∧
        (t.pkg.ports.get Sys2Proof.Machine.PortState.reset port.val).fails = 0) ∧
    (∀ links, s.focus.event = some (.routeRecompute links) →
      (bridge = true → s.pkg.phase = 3 →
        let l := Sys2Proof.Machine.numbered links
        ∃ t, Sys2Proof.Machine.exec .routeRecompute s = .next t ∧ t.mem = s.mem ∧ t.pkg.phase = 5 ∧ t.pkg.num = 0 ∧
          t.pkg.links = l ∧ t.pkg.group = (Sys2Proof.Machine.routesOf l 0).length + 1 ∧ t.pkg.pcieUp = true ∧
          ∀ p, 1 ≤ p → p < t.pkg.group →
            ∃ x ∈ t.pkg.sentPackets, x.dest = some p ∧ x.pkt = .enumerate p t.pkg.group l) ∧
      (s.pkg.phase = 5 →
        ∃ t, Sys2Proof.Machine.exec .routeRecompute s = .next t ∧ t.mem = s.mem ∧ t.pkg.links = links ∧
          (bridge = false → (t.pkg.pcieUp = true ↔ t.reaches 0 = true)))) ∧
    (s.focus.event = some .pcieLinkLoss →
      (s.pkg.pcieUp = false → Sys2Proof.Machine.exec .pcieLinkLoss s = .next s) ∧
      (s.pkg.pcieUp = true → ∃ t, Sys2Proof.Machine.exec .pcieLinkLoss s = .next t ∧ t.mem = s.mem ∧
        t.pkg.pcieUp = false ∧ (s.pkg.faultsHeld.length < 64 → ∃ r : Sys2Proof.Machine.FaultRec,
          t.pkg.faultsHeld = s.pkg.faultsHeld ++ [r] ∧ r[0].toNat % 2 ^ 16 = 0x0F02 ∧ r[0].toNat / 2 ^ 16 % 256 = 3)))

/-! ### Every step of a unit completes -/

/-- R63, R88, R117, R136, R141, R268, R274, R277, R281, R322, R323, R352: a step of a unit completes, in every state in which it falls due, whatever it brings: for
every event in focus there is a next state, in which memory is canonical if it was. Named one by one: FAULTACT, the operations
on futures and barriers, and the rows from SYNC_ANSWER to PCIE_LINK_LOSS; an answer, a notification, a phase boundary and what
a coverage unit tells an LP change no byte of memory, and an operation on a future no byte but its word's. -/
def Obligations.UnitStepsComplete : Prop :=
  ∀ s : Sys2Proof.Machine.State,
    let kept (t : Sys2Proof.Machine.State) : Prop :=
      Sys2Proof.Machine.Memory.wf s.mem = true → Sys2Proof.Machine.Memory.wf t.mem = true
    let but (k n : Nat) (t : Sys2Proof.Machine.State) : Prop :=
      ∀ a, a < k ∨ k + n ≤ a → Sys2Proof.Machine.memGet t.mem a = Sys2Proof.Machine.memGet s.mem a
    (∀ e, s.focus.event = some e → ∃ t, Sys2Proof.Machine.exec e.row s = .next t ∧ kept t) ∧
    (∀ a, s.focus.event = some (.faultact a) →
      ∃ t, Sys2Proof.Machine.exec .faultact s = .next t ∧ kept t) ∧
    (∀ a b, s.focus.event = some (.futureCreate a b) →
      ∃ t, Sys2Proof.Machine.exec .futureCreate s = .next t ∧ kept t ∧ (Sys2Proof.Machine.Memory.wf s.mem = true → s.latent = [] →
      but (Sys2Proof.Machine.nameKey a) 8 t)) ∧
    (∀ a b c, s.focus.event = some (.futureJoin a b c) →
      ∃ t, Sys2Proof.Machine.exec .futureJoin s = .next t ∧ kept t ∧ (Sys2Proof.Machine.Memory.wf s.mem = true → s.latent = [] →
      but (Sys2Proof.Machine.nameKey a) 8 t)) ∧
    (∀ a b c, s.focus.event = some (.futureResolve a b c) →
      ∃ t, Sys2Proof.Machine.exec .futureResolve s = .next t ∧ kept t ∧ (Sys2Proof.Machine.Memory.wf s.mem = true → s.latent = [] →
      but (Sys2Proof.Machine.nameKey a) 8 t)) ∧
    (∀ a b, s.focus.event = some (.futurePoison a b) →
      ∃ t, Sys2Proof.Machine.exec .futurePoison s = .next t ∧ kept t ∧ (Sys2Proof.Machine.Memory.wf s.mem = true → s.latent = [] →
      but (Sys2Proof.Machine.nameKey a) 8 t)) ∧
    (∀ a, s.focus.event = some (.columnPowerDown a) →
      ∃ t, Sys2Proof.Machine.exec .columnPowerDown s = .next t ∧ kept t) ∧
    (∀ a, s.focus.event = some (.columnPowerUp a) →
      ∃ t, Sys2Proof.Machine.exec .columnPowerUp s = .next t ∧ kept t) ∧
    (∀ a, s.focus.event = some (.columnReset a) →
      ∃ t, Sys2Proof.Machine.exec .columnReset s = .next t ∧ kept t) ∧
    (∀ a b c, s.focus.event = some (.eventTake a b c) →
      ∃ t, Sys2Proof.Machine.exec .eventTake s = .next t ∧ kept t) ∧
    (∀ a b, s.focus.event = some (.lpDealRecord a b) →
      ∃ t, Sys2Proof.Machine.exec .lpDealRecord s = .next t ∧ kept t) ∧
    (∀ a b, s.focus.event = some (.endRecordPush a b) →
      ∃ t, Sys2Proof.Machine.exec .endRecordPush s = .next t ∧ kept t) ∧
    (∀ a b, s.focus.event = some (.coverageRegistration a b) →
      ∃ t, Sys2Proof.Machine.exec .coverageRegistration s = .next t ∧ kept t) ∧
    (∀ a b c, s.focus.event = some (.coverageClaim a b c) →
      ∃ t, Sys2Proof.Machine.exec .coverageClaim s = .next t ∧ kept t) ∧
    (∀ a b c, s.focus.event = some (.rewriteWrite a b c) →
      ∃ t, Sys2Proof.Machine.exec .rewriteWrite s = .next t ∧ kept t) ∧
    (∀ a, s.focus.event = some (.rewriteCommit a) →
      ∃ t, Sys2Proof.Machine.exec .rewriteCommit s = .next t ∧ kept t) ∧
    (∀ a, s.focus.event = some (.dealingComplete a) →
      ∃ t, Sys2Proof.Machine.exec .dealingComplete s = .next t ∧ kept t) ∧
    (∀ a b c d e, s.focus.event = some (.copyCompletion a b c d e) →
      ∃ t, Sys2Proof.Machine.exec .copyCompletion s = .next t ∧ kept t) ∧
    (∀ a b, s.focus.event = some (.passAccumulation a b) →
      ∃ t, Sys2Proof.Machine.exec .passAccumulation s = .next t ∧ kept t) ∧
    (∀ a, s.focus.event = some (.saHomeUpdate a) →
      ∃ t, Sys2Proof.Machine.exec .saHomeUpdate s = .next t ∧ kept t) ∧
    (∀ a, s.focus.event = some (.tsProgramTurn a) →
      ∃ t, Sys2Proof.Machine.exec .tsProgramTurn s = .next t ∧ kept t) ∧
    (∀ a, s.focus.event = some (.tsProgramEnd a) →
      ∃ t, Sys2Proof.Machine.exec .tsProgramEnd s = .next t ∧ kept t) ∧
    (∀ a b, s.focus.event = some (.forcedRefresh a b) →
      ∃ t, Sys2Proof.Machine.exec .forcedRefresh s = .next t ∧ kept t) ∧
    (∀ a b, s.focus.event = some (.forcedRefreshEnd a b) →
      ∃ t, Sys2Proof.Machine.exec .forcedRefreshEnd s = .next t ∧ kept t) ∧
    (∀ a b c, s.focus.event = some (.dramSensorReading a b c) →
      ∃ t, Sys2Proof.Machine.exec .dramSensorReading s = .next t ∧ kept t) ∧
    (∀ a b, s.focus.event = some (.layerWakeComplete a b) →
      ∃ t, Sys2Proof.Machine.exec .layerWakeComplete s = .next t ∧ kept t) ∧
    (∀ a b, s.focus.event = some (.layerPowerOff a b) →
      ∃ t, Sys2Proof.Machine.exec .layerPowerOff s = .next t ∧ kept t) ∧
    (∀ a b, s.focus.event = some (.migrationService a b) →
      ∃ t, Sys2Proof.Machine.exec .migrationService s = .next t ∧ kept t) ∧
    (∀ a b, s.focus.event = some (.migrationComplete a b) →
      ∃ t, Sys2Proof.Machine.exec .migrationComplete s = .next t ∧ kept t) ∧
    (∀ a b c d e, s.focus.event = some (.walkFill a b c d e) →
      ∃ t, Sys2Proof.Machine.exec .walkFill s = .next t ∧ kept t) ∧
    (∀ a, s.focus.event = some (.correctedRewrite a) →
      ∃ t, Sys2Proof.Machine.exec .correctedRewrite s = .next t ∧ kept t) ∧
    (∀ a b c d e f g, s.focus.event = some (.deferredFault a b c d e f g) →
      ∃ t, Sys2Proof.Machine.exec .deferredFault s = .next t ∧ kept t) ∧
    (∀ a b c, s.focus.event = some (.faultHandlerEnd a b c) →
      ∃ t, Sys2Proof.Machine.exec .faultHandlerEnd s = .next t ∧ kept t) ∧
    (∀ a b, s.focus.event = some (.queueDeadlock a b) →
      ∃ t, Sys2Proof.Machine.exec .queueDeadlock s = .next t ∧ kept t) ∧
    (∀ a b c, s.focus.event = some (.formatUnderflow a b c) →
      ∃ t, Sys2Proof.Machine.exec .formatUnderflow s = .next t ∧ kept t) ∧
    (∀ a b c, s.focus.event = some (.trapStreamTimeout a b c) →
      ∃ t, Sys2Proof.Machine.exec .trapStreamTimeout s = .next t ∧ kept t) ∧
    (∀ a b, s.focus.event = some (.regionOverrun a b) →
      ∃ t, Sys2Proof.Machine.exec .regionOverrun s = .next t ∧ kept t) ∧
    (s.focus.event = some .repairWindow →
      ∃ t, Sys2Proof.Machine.exec .repairWindow s = .next t ∧ kept t) ∧
    (∀ a b c d, s.focus.event = some (.laneReplacement a b c d) →
      ∃ t, Sys2Proof.Machine.exec .laneReplacement s = .next t ∧ kept t) ∧
    (∀ a b c, s.focus.event = some (.laneReplacementEnd a b c) →
      ∃ t, Sys2Proof.Machine.exec .laneReplacementEnd s = .next t ∧ kept t) ∧
    (∀ a b c, s.focus.event = some (.talonReplacement a b c) →
      ∃ t, Sys2Proof.Machine.exec .talonReplacement s = .next t ∧ kept t) ∧
    (∀ a b c, s.focus.event = some (.talonReplacementEnd a b c) →
      ∃ t, Sys2Proof.Machine.exec .talonReplacementEnd s = .next t ∧ kept t) ∧
    (∀ a b, s.focus.event = some (.sliceRetired a b) →
      ∃ t, Sys2Proof.Machine.exec .sliceRetired s = .next t ∧ kept t) ∧
    (∀ a, s.focus.event = some (.coreWithdrawn a) →
      ∃ t, Sys2Proof.Machine.exec .coreWithdrawn s = .next t ∧ kept t) ∧
    (∀ a b c d e, s.focus.event = some (.flitReceive a b c d e) →
      ∃ t, Sys2Proof.Machine.exec .flitReceive s = .next t ∧ kept t) ∧
    (∀ a b, s.focus.event = some (.resultLanding a b) →
      ∃ t, Sys2Proof.Machine.exec .resultLanding s = .next t ∧ kept t) ∧
    (∀ a, s.focus.event = some (.accessPoint a) →
      ∃ t, Sys2Proof.Machine.exec .accessPoint s = .next t ∧ kept t) ∧
    (∀ a b c d, s.focus.event = some (.microStep a b c d) →
      ∃ t, Sys2Proof.Machine.exec .microStep s = .next t ∧ kept t) ∧
    (∀ a b, s.focus.event = some (.elementWriteLands a b) →
      ∃ t, Sys2Proof.Machine.exec .elementWriteLands s = .next t ∧ kept t) ∧
    (∀ a, s.focus.event = some (.dramCommandIssue a) →
      ∃ t, Sys2Proof.Machine.exec .dramCommandIssue s = .next t ∧ kept t) ∧
    (∀ a, s.focus.event = some (.tsDataPosting a) →
      ∃ t, Sys2Proof.Machine.exec .tsDataPosting s = .next t ∧ kept t) ∧
    (∀ a b c, s.focus.event = some (.syncAnswer a b c) →
      ∃ t, Sys2Proof.Machine.exec .syncAnswer s = .next t ∧ t.mem = s.mem) ∧
    (∀ a b c, s.focus.event = some (.notifyEventArrival a b c) →
      ∃ t, Sys2Proof.Machine.exec .notifyEventArrival s = .next t ∧ t.mem = s.mem) ∧
    (∀ a, s.focus.event = some (.phaseBoundary a) →
      ∃ t, Sys2Proof.Machine.exec .phaseBoundary s = .next t ∧ t.mem = s.mem) ∧
    (∀ a b c, s.focus.event = some (.registrationAnswer a b c) →
      ∃ t, Sys2Proof.Machine.exec .registrationAnswer s = .next t ∧ t.mem = s.mem) ∧
    (∀ a b c, s.focus.event = some (.claimAnswer a b c) →
      ∃ t, Sys2Proof.Machine.exec .claimAnswer s = .next t ∧ t.mem = s.mem) ∧
    (∀ a, s.focus.event = some (.pendingNotice a) →
      ∃ t, Sys2Proof.Machine.exec .pendingNotice s = .next t ∧ t.mem = s.mem) ∧
    (∀ a b, s.focus.event = some (.commitNotice a b) →
      ∃ t, Sys2Proof.Machine.exec .commitNotice s = .next t ∧ t.mem = s.mem) ∧
    (∀ a, s.focus.event = some (.completionNotice a) →
      ∃ t, Sys2Proof.Machine.exec .completionNotice s = .next t ∧ t.mem = s.mem)

/-! ### The machine after reset, its words, and its step -/

namespace Sys2Proof.Claims

open Sys2Proof Sys2Proof.Machine

/-- The reset values of the core-, column-, die- and package-scoped registers that the spec's maps give (R60, R64, R76, R77,
R106, R114, R197, R303, R306, R309 to R313). -/
def resetValues : List (Nat × Word) :=
  [(0x014, 0x40C100818), (0x015, 0x40C100818), (0x016, 0x40C100818), (0x017, 0x40C100818), (0x020, 8775), (0x021, 0),
    (0x022, 2250), (0x029, 0), (0x02A, 0), (0x02B, 0), (0x02C, 0), (0x02E, 0), (0x041, 0), (0x042, 0), (0x043, 0x101000),
    (0x202, 0), (0x203, 0), (0x204, 200), (0x205, 200), (0x208, 0), (0x209, 0), (0x20A, 128), (0x20B, 0),
    (0x20C, 0x803E8)]

/-- Words of each engine with the instructions they are, the words written out from R164 to R169. -/
def spelled : List (Word32 × Instr) :=
  [(0x090147F4, .addi 0 5 3 (-12)), (0x1787FFFD, .loopb 0 (-3)), (0x18019C00, .push 0 3 7),
    (0x1A004008, .mfsr 0 1 8), (0x1B000000, .uret 0), (0x40800801, .mMma 0 2 0 1),
    (0xA2000000, .xCp1 0 0), (0xE6800000, .sHalt 0)]

/-- A step runs instruction i in state s'. -/
def runs (s s' : State) (i : Instr) : Prop := step s = exec i s'

/-- The state of a step whose first entry is due in cycle n, the rest of the agenda being l. -/
def entered (s : State) (n : Nat) (l : List Entry) : State := { s with now := max s.now n, agenda := l }

end Sys2Proof.Claims

/-- R301, R302: right after reset every register reads its reset value, no core holds a task, every queue is empty,
every barrier is IDLE, no dealer holds a record, the scopes are closed, no translation is held, and every byte of memory
is 0, in the canonical form. The model's choices in it: log entry 10. -/
def Obligations.ResetLeavesTheResetValues : Prop :=
  let s := Sys2Proof.Machine.State.reset
  (∀ c t n v, (n, v) ∈ Sys2Proof.Claims.resetValues → s.sysRead c t n = v) ∧
  (∀ c b, (s.bank c b).status = .idle ∧ (s.img c b).task = none ∧ (s.core c).hand = [] ∧
    (∀ (x : Fin 3) (q : Fin 16), (s.img c b).queue x q = [] ∧ (s.img c b).ctx[x.val].g = Vector.replicate 32 0) ∧
    ∀ (x : Fin 3) (q : Fin 13), ((s.img c b).eqAt q x).words = [] ∧ ((s.img c b).eqAt q x).cur = none) ∧
  (∀ c i, (s.bar c i).st = .idle ∧ (s.bar c i).waiters = []) ∧
  (∀ d slot, s.record d slot = none ∧ (s.die d).saved = []) ∧ (∀ d i, (s.scope d i).stat = 0) ∧ s.pkg.tlbs = [] ∧
  (∀ k, Sys2Proof.Machine.memGet s.mem k = 0) ∧ Sys2Proof.Machine.Memory.wf s.mem = true

/-- R164 to R169: words of six engines, written out from their encodings, decode to their instructions. -/
def Obligations.SpelledWordsDecode : Prop :=
  ∀ w i, (w, i) ∈ Sys2Proof.Claims.spelled → ∀ rest, Sys2Proof.decode (w :: rest) = .ok (i, rest)

/-- R164 to R170, R262: a well-formed instruction's own words decode to it, with every operand, whatever follows them:
those of a core's program and those of a transform program. The model's choices in it: log entry 18. -/
def Obligations.EncodedWordsDecodeToTheirInstruction : Prop :=
  ∀ i : Sys2Proof.Instr, i.wellFormed = true →
    (i.isCoreWord = true → ∀ rest, Sys2Proof.decode (Sys2Proof.encode i ++ rest) = .ok (i, rest)) ∧
    (i.isTsWord = true → Sys2Proof.decodeTs (BitVec.ofNat 32 (Sys2Proof.encodeNat i)) = .ok i)

/-- R170, R329: a word that decodes is the encoding of a well-formed instruction, so that each instruction has one
encoding, and no bit of a word is passed over. The model's choices in it: log entry 18. -/
def Obligations.DecodedWordsAreTheirEncoding : Prop :=
  ∀ (ws rest : List Sys2Proof.Word32) (i : Sys2Proof.Instr), Sys2Proof.decode ws = .ok (i, rest) →
    i.wellFormed = true ∧ i.isCoreWord = true ∧ ws = Sys2Proof.encode i ++ rest

/-- A step whose first entry is a core's issue runs the instruction at the PC of the context that owns the slot (R81,
R82), in that core and context; a word that is none runs as such (R328). A step whose entry is a started engine word
runs it (R91); a transform program's runs the word at its PC (R262); a unit's step runs its row of the table; and with
nothing due a cycle passes. The model's choices in it: log entries 1, 100. -/
def Obligations.StepRunsTheDecodedInstruction : Prop :=
  ∀ (due rank : Nat) (act : Sys2Proof.Machine.Act) (rest : List Sys2Proof.Machine.Entry) (s : Sys2Proof.Machine.State),
    (s.agenda = [] → Sys2Proof.Machine.step s = .next { s with now := s.now + 1 }) ∧
    (s.agenda = ⟨due, rank, act⟩ :: rest →
      let s' := Sys2Proof.Claims.entered s due rest
      (∀ core bank (c : Fin 3),
        let b := s.bank core bank
        let pc := b.img.ctx[c.val].pc.toNat
        let there : Sys2Proof.Machine.State := s'.focusOn .issue core bank c 0
        Sys2Proof.Machine.blkSlotMap b.img.blk / 4 ^ (b.img.taskCycle % 12) % 4 = c.val → b.img.mayIssue c = true →
        act = .bank core bank .issueLate ∨ (act = .bank core bank .issueEarly ∧ b.img.takes c = none ∧
          Sys2Proof.Machine.lateIssue (b.fetch c) = false) →
        (∀ i, Sys2Proof.decodeWord (b.wordAt pc) (b.wordAt (pc + 4)) = .ok i → Sys2Proof.Claims.runs s there i) ∧
        (∀ e, Sys2Proof.decodeWord (b.wordAt pc) (b.wordAt (pc + 4)) = .error e →
          Sys2Proof.Claims.runs s there (.unassignedWord (b.wordAt pc)))) ∧
      (∀ core bank q (c : Fin 3) w l, act = .perform core bank q c → ((s.img core bank).eqAt q c).words = w :: l →
        Sys2Proof.Claims.runs s (s'.focusOn .perform core bank c q) w.instr) ∧
      (∀ col p, act = .ts col → (s.col col).tsRun = some p →
        let w := (s.col col).tsMem.get 0 p.pc
        let there : Sys2Proof.Machine.State :=
          { s' with focus := { s'.focus with role := .unit, col := col, event := none } }
        (∀ i, Sys2Proof.decodeTs w = .ok i → Sys2Proof.Claims.runs s there i) ∧
        (∀ e, Sys2Proof.decodeTs w = .error e → Sys2Proof.Claims.runs s there (.unassignedWord w))) ∧
      (∀ e, act = .ev e → s'.heldByThrottle e = false →
        Sys2Proof.Claims.runs s { s' with focus := { s'.focus with role := .unit, event := some e } } e.row))

/-- The invariant of the machine's steps: memory keeps its canonical form, so that equal memories are equal data. -/
def Obligations.StepsKeepMemoryCanonical : Prop :=
  ∀ s t : Sys2Proof.Machine.State, Sys2Proof.Machine.Memory.wf s.mem = true → Sys2Proof.Machine.step s = .next t →
    Sys2Proof.Machine.Memory.wf t.mem = true

/-! ### Statements that gather several of one kind -/

/-- Integer, immediate, extension and constant words complete and leave their result pending. -/
def Obligations.ArithmeticWordsLeaveTheirResult : Prop :=
  Sys2Proof.Claims.IntegerWordsLeaveTheirResult ∧ Sys2Proof.Claims.ImmediateWordsLeaveTheirResult ∧ Sys2Proof.Claims.ExtensionsAndConstantsLeaveTheirResult

/-- Comparisons, predicate words, nop and the counter setup words complete with their results pending. -/
def Obligations.PredicateAndCounterWordsComplete : Prop :=
  Sys2Proof.Claims.ComparisonsWriteTheirPredicate ∧ Sys2Proof.Claims.PwrWritesFifteenPredicates ∧ Sys2Proof.Claims.CounterSetupWordsComplete

/-- push, pop and peek move entries or block; qfence waits for its mask. -/
def Obligations.QueueWordsMoveEntriesAndFence : Prop :=
  Sys2Proof.Claims.QueueWordsMoveEntries ∧ Sys2Proof.Claims.QfenceWaitsForItsMask

/-- Accepted loads and stores set out for the place their address names. The model's choices in it: log entry 14. -/
def Obligations.ScalarAccessesSetOut : Prop :=
  Sys2Proof.Claims.LoadsSetOutForTheirPlace ∧ Sys2Proof.Claims.StoresSetOutForTheirPlace

/-- Pending register writes land when due, the later-issued word winning, and nothing else changes. -/
def Obligations.PendingResultsLandWhenDue : Prop :=
  Sys2Proof.Claims.DueResultsLand ∧ Sys2Proof.Claims.ResultLandingCompletes

/-- mfsr and mtsr act on registers of the context, and set out for those of a wider scope. The model's choices in it:
log entry 19. -/
def Obligations.SystemRegisterWordsReadAndWrite : Prop :=
  Sys2Proof.Claims.ContextRegistersReadAndWrite ∧ Sys2Proof.Claims.SystemRegisterAccessesSetOut

/-- A taken fault or event saves the context in its shadow and trap registers and enters the trap stream. -/
def Obligations.TakingAFaultOrEventEntersTheTrapStream : Prop :=
  Sys2Proof.Claims.TakingAFaultEntersTheTrapStream ∧ Sys2Proof.Claims.TakingAnEventEntersTheTrapStream

/-- Vector words start with their first micro-step, complete without elements, or fault at their start. The model's
choices in it: log entries 2, 20, 23. -/
def Obligations.VectorWordsStart : Prop :=
  Sys2Proof.Claims.VectorWordsIssueTheirFirstMicroStep ∧ Sys2Proof.Claims.VectorWordsWithoutElementsComplete ∧ Sys2Proof.Claims.VectorWordsFaultAtTheirStart

/-- A micro-step issues its lanes of elements, and writes the element function of each at its place. The model's choices
in it: log entry 20. -/
def Obligations.MicroStepsReadAndWriteTheirElements : Prop :=
  Sys2Proof.Claims.MicroStepsIssueTheirElements ∧ Sys2Proof.Claims.MicroStepsWriteElementByElement

/-- Float elements round their exact result once, and each rounding mode bounds its result. -/
def Obligations.FloatElementsRoundOnceInTheirMode : Prop :=
  Sys2Proof.Claims.FloatElementsRoundTheExactResultOnce ∧ Sys2Proof.Claims.RoundingModesBoundTheirResult

/-- A tile command forms its pass from layer 0, or completes without work. The model's choices in it: log entry 2. -/
def Obligations.TileCommandsStart : Prop :=
  Sys2Proof.Claims.TileCommandsFormTheirPass ∧ Sys2Proof.Claims.TileCommandsWithoutWorkComplete

/-- A pass value is the exact sum rounded once, and a pass accumulates line by line. The model's choices in it: log
entry 2. -/
def Obligations.PassesRoundAndAccumulate : Prop :=
  Sys2Proof.Claims.PassValuesRoundTheExactSum ∧ Sys2Proof.Claims.PassesAccumulateLineByLine

/-- Update words take their elements, and an update reads, modifies and writes at its home. The model's choices in it:
log entries 31, 32. -/
def Obligations.UpdatesAreTakenAndPerformedAtTheirHome : Prop :=
  Sys2Proof.Claims.UpdateWordsTakeTheirFirstElement ∧ Sys2Proof.Claims.UpdatesReadModifyAndWriteAtTheirHome

/-- Shape-slot words complete, and copies are accepted and take turns. The model's choices in it: log entries 34, 35,
36. -/
def Obligations.TransferWordsAreAccepted : Prop :=
  Sys2Proof.Claims.ShapeSlotWordsComplete ∧ Sys2Proof.Claims.CopiesAreAccepted ∧ Sys2Proof.Claims.CopiesTakeTheirTurns

/-- A byte copy moves every byte once, and a tile's elements count dimension 0 first. -/
def Obligations.CopiesMoveEveryElementOnce : Prop :=
  Sys2Proof.Claims.ByteCopiesMoveEveryByteOnce ∧ Sys2Proof.Claims.TileCoordinatesCountDimensionZeroFirst

/-- DRAM commands and forced refreshes act on their bank alone. The model's choices in it: log entries 44, 45, 89. -/
def Obligations.DramBanksFollowTheirCommands : Prop :=
  Sys2Proof.Claims.DramCommandsReachTheirBank ∧ Sys2Proof.Claims.ForcedRefreshesHoldTheirBank

/-- Layers power up reading zero, and repairs follow their timetable. The model's choices in it: log entries 47, 48, 91.
-/
def Obligations.LayersAndRepairsFollowTheirTimetable : Prop :=
  Sys2Proof.Claims.LayersPowerUpReadingZero ∧ Sys2Proof.Claims.RepairsFollowTheirTimetable

/-- Transform programs and tokens are accepted, and programs take turns. The model's choices in it: log entry 43. -/
def Obligations.TransformProgramsAreAcceptedAndTakeTurns : Prop :=
  Sys2Proof.Claims.TransformProgramsAndTokensAreAccepted ∧ Sys2Proof.Claims.TransformProgramsTakeTurns

/-- Transform data words read their block line by line, move both registers on, and write later. The model's choices in
it: log entry 43. -/
def Obligations.TransformDataWordsMoveTheirBlock : Prop :=
  Sys2Proof.Claims.TransformDataWordsReadTheirBlock ∧ Sys2Proof.Claims.TransformLinesAreReadAndWritten

/-- LOOP words answer at their start, or ask their coverage unit and wait; ready answers are pushed. The model's choices
in it: log entries 52, 54. -/
def Obligations.LoopWordsAnswerOrAsk : Prop :=
  Sys2Proof.Claims.LoopWordsAnswerAtTheirStart ∧ Sys2Proof.Claims.ReadyAnswersArePushed ∧ Sys2Proof.Claims.LoopWordsAskTheirUnits

/-- A loop processor deals a record for a permit, stops at its boundaries, and is told answers and notices. The model's
choices in it: log entry 51. -/
def Obligations.LoopProcessorsDealAndAreTold : Prop :=
  Sys2Proof.Claims.LoopProcessorsDealTheirRecords ∧ Sys2Proof.Claims.NoticesReachTheLoopProcessor

/-- A coverage unit performs one operation at a time, grants each cell once and commits rewrites. The model's choices in
it: log entries 53, 54, 105, 120. -/
def Obligations.CoverageUnitsKeepTheirMaps : Prop :=
  Sys2Proof.Claims.CoverageUnitsGrantAndCommit ∧ Sys2Proof.Claims.CoverageUnitsPerformOneOperationAtATime

/-- Barrier, future and scope words send their operation and wait for the answer. The model's choices in it: log entries
58, 61. -/
def Obligations.SyncWordsAskTheirUnits : Prop :=
  Sys2Proof.Claims.BarrierWordsAskTheirUnit ∧ Sys2Proof.Claims.FutureAndScopeWordsAskTheirDealer

/-- A barrier operation leaves its barrier as the table says, and columns keep their barriers. The model's choices in
it: log entries 40, 41, 42, 99. -/
def Obligations.BarriersFollowTheirTable : Prop :=
  Sys2Proof.Claims.BarrierOperationsFollowTheirTable ∧ Sys2Proof.Claims.ColumnsKeepTheirBarriers

/-- A word that starts pops its entries; a word of no instruction faults. The model's choices in it: log entries 30, 86.
-/
def Obligations.WordsStartOrFaultAsUnassigned : Prop :=
  Sys2Proof.Claims.EngineWordsStartAndPop ∧ Sys2Proof.Claims.UnassignedWordsFault

/-- Launch records and weight move as the dealer's rules say. The model's choices in it: log entries 55, 57, 60. -/
def Obligations.LaunchesAndWeightFollowTheirRecord : Prop :=
  Sys2Proof.Claims.LaunchesFollowTheirRecord ∧ Sys2Proof.Claims.WeightMovesBetweenItsHolders

/-- The operations on a future's word, each in its turn. The model's choices in it: log entries 12, 107. -/
def Obligations.FuturesFollowTheirTable : Prop :=
  Sys2Proof.Claims.FutureBanksKeepOrder ∧ Sys2Proof.Claims.FutureOperationsFollowTheirTable

/-- Units find faults, and the handler, the host and the migration service end them. The model's choices in it: log
entries 13, 15, 70, 73, 74, 75, 84, 85, 113, 115. -/
def Obligations.FaultsAreFoundAndCasesServed : Prop :=
  Sys2Proof.Claims.UnitsFindFaults ∧ Sys2Proof.Claims.CasesAreServed

/-- Writes of registers and accesses of the host have the effects the register maps give. The model's choices in it: log
entries 22, 78, 95, 96, 114, 116. -/
def Obligations.RegistersAndHostAccessesAct : Prop :=
  Sys2Proof.Claims.RegistersTakeTheirWrites ∧ Sys2Proof.Claims.HostReachesThePackage

/-- A start leaves the reset state; power, heat and telemetry are governed. The model's choices in it: log entries 76,
77, 79, 83, 97, 117. -/
def Obligations.PackagesStartAndAreGoverned : Prop :=
  Sys2Proof.Claims.PackagesStart ∧ Sys2Proof.Claims.PowerAndHeatAreGoverned

/-- Time follows its source, and links carry, fail and recover as the rules say. The model's choices in it: log entries
80, 82. -/
def Obligations.TimeAndLinksKeepStep : Prop :=
  Sys2Proof.Claims.TimeAndLinks
end

