-- ==== Sys2Proof/Laws/Store.lean ====
section
/-! SUPPORT. The laws of the sparse stores: a read after a write. -/

namespace Sys2Proof.Machine

open Sys2Proof

/-- A store reads at a key what was put there. -/
@[simp] theorem Store.get_put_same {α : Type} (m : Store α) (d v : α) (k : Nat) : (Store.put m k v).get d k = v := by
  induction m with
  | nil => simp [Store.put, Store.get]
  | cons x rest ih =>
    obtain ⟨k', v'⟩ := x
    rcases Nat.lt_trichotomy k k' with h | h | h
    · simp [Store.put, Store.get, h]
    · simp [Store.put, Store.get, h]
    · have h1 : ¬ k < k' := by omega
      have h2 : k ≠ k' := by omega
      simp [Store.put, Store.get, h1, h2, h2.symm, ih]

/-- A store reads at another key what it read before. -/
theorem Store.get_put_other {α : Type} (m : Store α) (d v : α) (k j : Nat) (h : j ≠ k) :
    (Store.put m k v).get d j = m.get d j := by
  induction m with
  | nil => simp [Store.put, Store.get, h.symm]
  | cons x rest ih =>
    obtain ⟨k', v'⟩ := x
    rcases Nat.lt_trichotomy k k' with hk | hk | hk
    · by_cases hj : j < k
      · have h1 : ¬ k' = j := by omega
        have h2 : j < k' := by omega
        simp [Store.put, Store.get, hk, h.symm, hj, h1, h2]
      · simp [Store.put, Store.get, hk, h.symm, hj]
    · subst hk
      simp [Store.put, Store.get, h.symm]
    · have h1 : ¬ k < k' := by omega
      have h2 : k ≠ k' := by omega
      simp [Store.put, Store.get, h1, h2, ih]

/-- The later of two values put at a key stands. -/
@[simp] theorem Store.put_put {α : Type} (m : Store α) (v w : α) (k : Nat) :
    Store.put (Store.put m k v) k w = Store.put m k w := by
  induction m with
  | nil => simp [Store.put]
  | cons x rest ih =>
    obtain ⟨k', v'⟩ := x
    rcases Nat.lt_trichotomy k k' with h | h | h
    · simp [Store.put, h]
    · simp [Store.put, h]
    · have h1 : ¬ k < k' := by omega
      have h2 : k ≠ k' := by omega
      simp [Store.put, h1, h2, ih]

end Sys2Proof.Machine
end

