-- ==== Sys2Proof/Laws/State.lean ====
section
/-! SUPPORT. What each update of the state leaves as it was, one lemma for each field, and what a reader finds after an
update of the same place and of another. -/

namespace Sys2Proof.Machine

open Sys2Proof

/-! ### `setCore` -/

@[simp] theorem State.setCore_now (s : State) (c : CoreIx) (v : Core) : (s.setCore c v).now = s.now := rfl
@[simp] theorem State.setCore_agenda (s : State) (c : CoreIx) (v : Core) : (s.setCore c v).agenda = s.agenda := rfl
@[simp] theorem State.setCore_focus (s : State) (c : CoreIx) (v : Core) : (s.setCore c v).focus = s.focus := rfl
@[simp] theorem State.setCore_free (s : State) (c : CoreIx) (v : Core) : (s.setCore c v).free = s.free := rfl
@[simp] theorem State.setCore_nextTid (s : State) (c : CoreIx) (v : Core) : (s.setCore c v).nextTid = s.nextTid := rfl
@[simp] theorem State.setCore_cols (s : State) (c : CoreIx) (v : Core) : (s.setCore c v).cols = s.cols := rfl
@[simp] theorem State.setCore_dies (s : State) (c : CoreIx) (v : Core) : (s.setCore c v).dies = s.dies := rfl
@[simp] theorem State.setCore_pkg (s : State) (c : CoreIx) (v : Core) : (s.setCore c v).pkg = s.pkg := rfl
@[simp] theorem State.setCore_mem (s : State) (c : CoreIx) (v : Core) : (s.setCore c v).mem = s.mem := rfl
@[simp] theorem State.setCore_poison (s : State) (c : CoreIx) (v : Core) : (s.setCore c v).poison = s.poison := rfl
@[simp] theorem State.setCore_latent (s : State) (c : CoreIx) (v : Core) : (s.setCore c v).latent = s.latent := rfl

/-! ### `modCore` -/

@[simp] theorem State.modCore_now (s : State) (c : CoreIx) (f : Core → Core) : (s.modCore c f).now = s.now := rfl
@[simp] theorem State.modCore_agenda (s : State) (c : CoreIx) (f : Core → Core) : (s.modCore c f).agenda = s.agenda := rfl
@[simp] theorem State.modCore_focus (s : State) (c : CoreIx) (f : Core → Core) : (s.modCore c f).focus = s.focus := rfl
@[simp] theorem State.modCore_free (s : State) (c : CoreIx) (f : Core → Core) : (s.modCore c f).free = s.free := rfl
@[simp] theorem State.modCore_nextTid (s : State) (c : CoreIx) (f : Core → Core) : (s.modCore c f).nextTid = s.nextTid := rfl
@[simp] theorem State.modCore_cols (s : State) (c : CoreIx) (f : Core → Core) : (s.modCore c f).cols = s.cols := rfl
@[simp] theorem State.modCore_dies (s : State) (c : CoreIx) (f : Core → Core) : (s.modCore c f).dies = s.dies := rfl
@[simp] theorem State.modCore_pkg (s : State) (c : CoreIx) (f : Core → Core) : (s.modCore c f).pkg = s.pkg := rfl
@[simp] theorem State.modCore_mem (s : State) (c : CoreIx) (f : Core → Core) : (s.modCore c f).mem = s.mem := rfl
@[simp] theorem State.modCore_poison (s : State) (c : CoreIx) (f : Core → Core) : (s.modCore c f).poison = s.poison := rfl
@[simp] theorem State.modCore_latent (s : State) (c : CoreIx) (f : Core → Core) : (s.modCore c f).latent = s.latent := rfl

/-! ### `modBank` -/

@[simp] theorem State.modBank_now (s : State) (c : CoreIx) (b : BankIx) (f : Bank → Bank) : (s.modBank c b f).now = s.now := rfl
@[simp] theorem State.modBank_agenda (s : State) (c : CoreIx) (b : BankIx) (f : Bank → Bank) : (s.modBank c b f).agenda = s.agenda := rfl
@[simp] theorem State.modBank_focus (s : State) (c : CoreIx) (b : BankIx) (f : Bank → Bank) : (s.modBank c b f).focus = s.focus := rfl
@[simp] theorem State.modBank_free (s : State) (c : CoreIx) (b : BankIx) (f : Bank → Bank) : (s.modBank c b f).free = s.free := rfl
@[simp] theorem State.modBank_nextTid (s : State) (c : CoreIx) (b : BankIx) (f : Bank → Bank) : (s.modBank c b f).nextTid = s.nextTid := rfl
@[simp] theorem State.modBank_cols (s : State) (c : CoreIx) (b : BankIx) (f : Bank → Bank) : (s.modBank c b f).cols = s.cols := rfl
@[simp] theorem State.modBank_dies (s : State) (c : CoreIx) (b : BankIx) (f : Bank → Bank) : (s.modBank c b f).dies = s.dies := rfl
@[simp] theorem State.modBank_pkg (s : State) (c : CoreIx) (b : BankIx) (f : Bank → Bank) : (s.modBank c b f).pkg = s.pkg := rfl
@[simp] theorem State.modBank_mem (s : State) (c : CoreIx) (b : BankIx) (f : Bank → Bank) : (s.modBank c b f).mem = s.mem := rfl
@[simp] theorem State.modBank_poison (s : State) (c : CoreIx) (b : BankIx) (f : Bank → Bank) : (s.modBank c b f).poison = s.poison := rfl
@[simp] theorem State.modBank_latent (s : State) (c : CoreIx) (b : BankIx) (f : Bank → Bank) : (s.modBank c b f).latent = s.latent := rfl

/-! ### `modImg` -/

@[simp] theorem State.modImg_now (s : State) (c : CoreIx) (b : BankIx) (f : Image → Image) : (s.modImg c b f).now = s.now := rfl
@[simp] theorem State.modImg_agenda (s : State) (c : CoreIx) (b : BankIx) (f : Image → Image) : (s.modImg c b f).agenda = s.agenda := rfl
@[simp] theorem State.modImg_focus (s : State) (c : CoreIx) (b : BankIx) (f : Image → Image) : (s.modImg c b f).focus = s.focus := rfl
@[simp] theorem State.modImg_free (s : State) (c : CoreIx) (b : BankIx) (f : Image → Image) : (s.modImg c b f).free = s.free := rfl
@[simp] theorem State.modImg_nextTid (s : State) (c : CoreIx) (b : BankIx) (f : Image → Image) : (s.modImg c b f).nextTid = s.nextTid := rfl
@[simp] theorem State.modImg_cols (s : State) (c : CoreIx) (b : BankIx) (f : Image → Image) : (s.modImg c b f).cols = s.cols := rfl
@[simp] theorem State.modImg_dies (s : State) (c : CoreIx) (b : BankIx) (f : Image → Image) : (s.modImg c b f).dies = s.dies := rfl
@[simp] theorem State.modImg_pkg (s : State) (c : CoreIx) (b : BankIx) (f : Image → Image) : (s.modImg c b f).pkg = s.pkg := rfl
@[simp] theorem State.modImg_mem (s : State) (c : CoreIx) (b : BankIx) (f : Image → Image) : (s.modImg c b f).mem = s.mem := rfl
@[simp] theorem State.modImg_poison (s : State) (c : CoreIx) (b : BankIx) (f : Image → Image) : (s.modImg c b f).poison = s.poison := rfl
@[simp] theorem State.modImg_latent (s : State) (c : CoreIx) (b : BankIx) (f : Image → Image) : (s.modImg c b f).latent = s.latent := rfl

/-! ### `modCur` -/

@[simp] theorem State.modCur_now (s : State) (f : Image → Image) : (s.modCur f).now = s.now := rfl
@[simp] theorem State.modCur_agenda (s : State) (f : Image → Image) : (s.modCur f).agenda = s.agenda := rfl
@[simp] theorem State.modCur_focus (s : State) (f : Image → Image) : (s.modCur f).focus = s.focus := rfl
@[simp] theorem State.modCur_free (s : State) (f : Image → Image) : (s.modCur f).free = s.free := rfl
@[simp] theorem State.modCur_nextTid (s : State) (f : Image → Image) : (s.modCur f).nextTid = s.nextTid := rfl
@[simp] theorem State.modCur_cols (s : State) (f : Image → Image) : (s.modCur f).cols = s.cols := rfl
@[simp] theorem State.modCur_dies (s : State) (f : Image → Image) : (s.modCur f).dies = s.dies := rfl
@[simp] theorem State.modCur_pkg (s : State) (f : Image → Image) : (s.modCur f).pkg = s.pkg := rfl
@[simp] theorem State.modCur_mem (s : State) (f : Image → Image) : (s.modCur f).mem = s.mem := rfl
@[simp] theorem State.modCur_poison (s : State) (f : Image → Image) : (s.modCur f).poison = s.poison := rfl
@[simp] theorem State.modCur_latent (s : State) (f : Image → Image) : (s.modCur f).latent = s.latent := rfl

/-! ### `modCx` -/

@[simp] theorem State.modCx_now (s : State) (f : Context → Context) : (s.modCx f).now = s.now := rfl
@[simp] theorem State.modCx_agenda (s : State) (f : Context → Context) : (s.modCx f).agenda = s.agenda := rfl
@[simp] theorem State.modCx_focus (s : State) (f : Context → Context) : (s.modCx f).focus = s.focus := rfl
@[simp] theorem State.modCx_free (s : State) (f : Context → Context) : (s.modCx f).free = s.free := rfl
@[simp] theorem State.modCx_nextTid (s : State) (f : Context → Context) : (s.modCx f).nextTid = s.nextTid := rfl
@[simp] theorem State.modCx_cols (s : State) (f : Context → Context) : (s.modCx f).cols = s.cols := rfl
@[simp] theorem State.modCx_dies (s : State) (f : Context → Context) : (s.modCx f).dies = s.dies := rfl
@[simp] theorem State.modCx_pkg (s : State) (f : Context → Context) : (s.modCx f).pkg = s.pkg := rfl
@[simp] theorem State.modCx_mem (s : State) (f : Context → Context) : (s.modCx f).mem = s.mem := rfl
@[simp] theorem State.modCx_poison (s : State) (f : Context → Context) : (s.modCx f).poison = s.poison := rfl
@[simp] theorem State.modCx_latent (s : State) (f : Context → Context) : (s.modCx f).latent = s.latent := rfl

/-! ### `modQ` -/

@[simp] theorem State.modQ_now (s : State) (f : EngQueue → EngQueue) : (s.modQ f).now = s.now := rfl
@[simp] theorem State.modQ_agenda (s : State) (f : EngQueue → EngQueue) : (s.modQ f).agenda = s.agenda := rfl
@[simp] theorem State.modQ_focus (s : State) (f : EngQueue → EngQueue) : (s.modQ f).focus = s.focus := rfl
@[simp] theorem State.modQ_free (s : State) (f : EngQueue → EngQueue) : (s.modQ f).free = s.free := rfl
@[simp] theorem State.modQ_nextTid (s : State) (f : EngQueue → EngQueue) : (s.modQ f).nextTid = s.nextTid := rfl
@[simp] theorem State.modQ_cols (s : State) (f : EngQueue → EngQueue) : (s.modQ f).cols = s.cols := rfl
@[simp] theorem State.modQ_dies (s : State) (f : EngQueue → EngQueue) : (s.modQ f).dies = s.dies := rfl
@[simp] theorem State.modQ_pkg (s : State) (f : EngQueue → EngQueue) : (s.modQ f).pkg = s.pkg := rfl
@[simp] theorem State.modQ_mem (s : State) (f : EngQueue → EngQueue) : (s.modQ f).mem = s.mem := rfl
@[simp] theorem State.modQ_poison (s : State) (f : EngQueue → EngQueue) : (s.modQ f).poison = s.poison := rfl
@[simp] theorem State.modQ_latent (s : State) (f : EngQueue → EngQueue) : (s.modQ f).latent = s.latent := rfl

/-! ### `setProg` -/

@[simp] theorem State.setProg_now (s : State) (k : Cur) : (s.setProg k).now = s.now := rfl
@[simp] theorem State.setProg_agenda (s : State) (k : Cur) : (s.setProg k).agenda = s.agenda := rfl
@[simp] theorem State.setProg_focus (s : State) (k : Cur) : (s.setProg k).focus = s.focus := rfl
@[simp] theorem State.setProg_free (s : State) (k : Cur) : (s.setProg k).free = s.free := rfl
@[simp] theorem State.setProg_nextTid (s : State) (k : Cur) : (s.setProg k).nextTid = s.nextTid := rfl
@[simp] theorem State.setProg_cols (s : State) (k : Cur) : (s.setProg k).cols = s.cols := rfl
@[simp] theorem State.setProg_dies (s : State) (k : Cur) : (s.setProg k).dies = s.dies := rfl
@[simp] theorem State.setProg_pkg (s : State) (k : Cur) : (s.setProg k).pkg = s.pkg := rfl
@[simp] theorem State.setProg_mem (s : State) (k : Cur) : (s.setProg k).mem = s.mem := rfl
@[simp] theorem State.setProg_poison (s : State) (k : Cur) : (s.setProg k).poison = s.poison := rfl
@[simp] theorem State.setProg_latent (s : State) (k : Cur) : (s.setProg k).latent = s.latent := rfl

/-! ### `pendWrite` -/

@[simp] theorem State.pendWrite_now (s : State) (file idx : Nat) (v : Word) (l : Nat) (sh : Bool) : (s.pendWrite file idx v l sh).now = s.now := rfl
@[simp] theorem State.pendWrite_agenda (s : State) (file idx : Nat) (v : Word) (l : Nat) (sh : Bool) : (s.pendWrite file idx v l sh).agenda = s.agenda := rfl
@[simp] theorem State.pendWrite_focus (s : State) (file idx : Nat) (v : Word) (l : Nat) (sh : Bool) : (s.pendWrite file idx v l sh).focus = s.focus := rfl
@[simp] theorem State.pendWrite_free (s : State) (file idx : Nat) (v : Word) (l : Nat) (sh : Bool) : (s.pendWrite file idx v l sh).free = s.free := rfl
@[simp] theorem State.pendWrite_nextTid (s : State) (file idx : Nat) (v : Word) (l : Nat) (sh : Bool) : (s.pendWrite file idx v l sh).nextTid = s.nextTid := rfl
@[simp] theorem State.pendWrite_cols (s : State) (file idx : Nat) (v : Word) (l : Nat) (sh : Bool) : (s.pendWrite file idx v l sh).cols = s.cols := rfl
@[simp] theorem State.pendWrite_dies (s : State) (file idx : Nat) (v : Word) (l : Nat) (sh : Bool) : (s.pendWrite file idx v l sh).dies = s.dies := rfl
@[simp] theorem State.pendWrite_pkg (s : State) (file idx : Nat) (v : Word) (l : Nat) (sh : Bool) : (s.pendWrite file idx v l sh).pkg = s.pkg := rfl
@[simp] theorem State.pendWrite_mem (s : State) (file idx : Nat) (v : Word) (l : Nat) (sh : Bool) : (s.pendWrite file idx v l sh).mem = s.mem := rfl
@[simp] theorem State.pendWrite_poison (s : State) (file idx : Nat) (v : Word) (l : Nat) (sh : Bool) : (s.pendWrite file idx v l sh).poison = s.poison := rfl
@[simp] theorem State.pendWrite_latent (s : State) (file idx : Nat) (v : Word) (l : Nat) (sh : Bool) : (s.pendWrite file idx v l sh).latent = s.latent := rfl

/-! ### `advance` -/

@[simp] theorem State.advance_now (s : State) (n : Nat) : (s.advance n).now = s.now := rfl
@[simp] theorem State.advance_agenda (s : State) (n : Nat) : (s.advance n).agenda = s.agenda := rfl
@[simp] theorem State.advance_focus (s : State) (n : Nat) : (s.advance n).focus = s.focus := rfl
@[simp] theorem State.advance_free (s : State) (n : Nat) : (s.advance n).free = s.free := rfl
@[simp] theorem State.advance_nextTid (s : State) (n : Nat) : (s.advance n).nextTid = s.nextTid := rfl
@[simp] theorem State.advance_cols (s : State) (n : Nat) : (s.advance n).cols = s.cols := rfl
@[simp] theorem State.advance_dies (s : State) (n : Nat) : (s.advance n).dies = s.dies := rfl
@[simp] theorem State.advance_pkg (s : State) (n : Nat) : (s.advance n).pkg = s.pkg := rfl
@[simp] theorem State.advance_mem (s : State) (n : Nat) : (s.advance n).mem = s.mem := rfl
@[simp] theorem State.advance_poison (s : State) (n : Nat) : (s.advance n).poison = s.poison := rfl
@[simp] theorem State.advance_latent (s : State) (n : Nat) : (s.advance n).latent = s.latent := rfl

/-! ### `block` -/

@[simp] theorem State.block_now (s : State) : (s.block).now = s.now := rfl
@[simp] theorem State.block_agenda (s : State) : (s.block).agenda = s.agenda := rfl
@[simp] theorem State.block_focus (s : State) : (s.block).focus = s.focus := rfl
@[simp] theorem State.block_free (s : State) : (s.block).free = s.free := rfl
@[simp] theorem State.block_nextTid (s : State) : (s.block).nextTid = s.nextTid := rfl
@[simp] theorem State.block_cols (s : State) : (s.block).cols = s.cols := rfl
@[simp] theorem State.block_dies (s : State) : (s.block).dies = s.dies := rfl
@[simp] theorem State.block_pkg (s : State) : (s.block).pkg = s.pkg := rfl
@[simp] theorem State.block_mem (s : State) : (s.block).mem = s.mem := rfl
@[simp] theorem State.block_poison (s : State) : (s.block).poison = s.poison := rfl
@[simp] theorem State.block_latent (s : State) : (s.block).latent = s.latent := rfl

/-! ### `jump` -/

@[simp] theorem State.jump_now (s : State) (t : Nat) : (s.jump t).now = s.now := rfl
@[simp] theorem State.jump_agenda (s : State) (t : Nat) : (s.jump t).agenda = s.agenda := rfl
@[simp] theorem State.jump_focus (s : State) (t : Nat) : (s.jump t).focus = s.focus := rfl
@[simp] theorem State.jump_free (s : State) (t : Nat) : (s.jump t).free = s.free := rfl
@[simp] theorem State.jump_nextTid (s : State) (t : Nat) : (s.jump t).nextTid = s.nextTid := rfl
@[simp] theorem State.jump_cols (s : State) (t : Nat) : (s.jump t).cols = s.cols := rfl
@[simp] theorem State.jump_dies (s : State) (t : Nat) : (s.jump t).dies = s.dies := rfl
@[simp] theorem State.jump_pkg (s : State) (t : Nat) : (s.jump t).pkg = s.pkg := rfl
@[simp] theorem State.jump_mem (s : State) (t : Nat) : (s.jump t).mem = s.mem := rfl
@[simp] theorem State.jump_poison (s : State) (t : Nat) : (s.jump t).poison = s.poison := rfl
@[simp] theorem State.jump_latent (s : State) (t : Nat) : (s.jump t).latent = s.latent := rfl

/-! ### `finish` -/

@[simp] theorem State.finish_now (s : State) : (s.finish).now = s.now := rfl
@[simp] theorem State.finish_agenda (s : State) : (s.finish).agenda = s.agenda := rfl
@[simp] theorem State.finish_focus (s : State) : (s.finish).focus = s.focus := rfl
@[simp] theorem State.finish_free (s : State) : (s.finish).free = s.free := rfl
@[simp] theorem State.finish_nextTid (s : State) : (s.finish).nextTid = s.nextTid := rfl
@[simp] theorem State.finish_cols (s : State) : (s.finish).cols = s.cols := rfl
@[simp] theorem State.finish_dies (s : State) : (s.finish).dies = s.dies := rfl
@[simp] theorem State.finish_pkg (s : State) : (s.finish).pkg = s.pkg := rfl
@[simp] theorem State.finish_mem (s : State) : (s.finish).mem = s.mem := rfl
@[simp] theorem State.finish_poison (s : State) : (s.finish).poison = s.poison := rfl
@[simp] theorem State.finish_latent (s : State) : (s.finish).latent = s.latent := rfl

/-! ### `freeEngine` -/

@[simp] theorem State.freeEngine_now (s : State) (n : Nat) : (s.freeEngine n).now = s.now := rfl
@[simp] theorem State.freeEngine_agenda (s : State) (n : Nat) : (s.freeEngine n).agenda = s.agenda := rfl
@[simp] theorem State.freeEngine_focus (s : State) (n : Nat) : (s.freeEngine n).focus = s.focus := rfl
@[simp] theorem State.freeEngine_free (s : State) (n : Nat) : (s.freeEngine n).free = s.free := rfl
@[simp] theorem State.freeEngine_nextTid (s : State) (n : Nat) : (s.freeEngine n).nextTid = s.nextTid := rfl
@[simp] theorem State.freeEngine_cols (s : State) (n : Nat) : (s.freeEngine n).cols = s.cols := rfl
@[simp] theorem State.freeEngine_dies (s : State) (n : Nat) : (s.freeEngine n).dies = s.dies := rfl
@[simp] theorem State.freeEngine_pkg (s : State) (n : Nat) : (s.freeEngine n).pkg = s.pkg := rfl
@[simp] theorem State.freeEngine_mem (s : State) (n : Nat) : (s.freeEngine n).mem = s.mem := rfl
@[simp] theorem State.freeEngine_poison (s : State) (n : Nat) : (s.freeEngine n).poison = s.poison := rfl
@[simp] theorem State.freeEngine_latent (s : State) (n : Nat) : (s.freeEngine n).latent = s.latent := rfl

/-! ### `pendElems` -/

@[simp] theorem State.pendElems_now (s : State) (n : Nat) (o : ElemOut) (l : ElemSlot) (b : Bool) : (s.pendElems n o l b).now = s.now := rfl
@[simp] theorem State.pendElems_agenda (s : State) (n : Nat) (o : ElemOut) (l : ElemSlot) (b : Bool) : (s.pendElems n o l b).agenda = s.agenda := rfl
@[simp] theorem State.pendElems_focus (s : State) (n : Nat) (o : ElemOut) (l : ElemSlot) (b : Bool) : (s.pendElems n o l b).focus = s.focus := rfl
@[simp] theorem State.pendElems_free (s : State) (n : Nat) (o : ElemOut) (l : ElemSlot) (b : Bool) : (s.pendElems n o l b).free = s.free := rfl
@[simp] theorem State.pendElems_nextTid (s : State) (n : Nat) (o : ElemOut) (l : ElemSlot) (b : Bool) : (s.pendElems n o l b).nextTid = s.nextTid := rfl
@[simp] theorem State.pendElems_cols (s : State) (n : Nat) (o : ElemOut) (l : ElemSlot) (b : Bool) : (s.pendElems n o l b).cols = s.cols := rfl
@[simp] theorem State.pendElems_dies (s : State) (n : Nat) (o : ElemOut) (l : ElemSlot) (b : Bool) : (s.pendElems n o l b).dies = s.dies := rfl
@[simp] theorem State.pendElems_pkg (s : State) (n : Nat) (o : ElemOut) (l : ElemSlot) (b : Bool) : (s.pendElems n o l b).pkg = s.pkg := rfl
@[simp] theorem State.pendElems_mem (s : State) (n : Nat) (o : ElemOut) (l : ElemSlot) (b : Bool) : (s.pendElems n o l b).mem = s.mem := rfl
@[simp] theorem State.pendElems_poison (s : State) (n : Nat) (o : ElemOut) (l : ElemSlot) (b : Bool) : (s.pendElems n o l b).poison = s.poison := rfl
@[simp] theorem State.pendElems_latent (s : State) (n : Nat) (o : ElemOut) (l : ElemSlot) (b : Bool) : (s.pendElems n o l b).latent = s.latent := rfl

/-! ### `irrev` -/

@[simp] theorem State.irrev_now (s : State) : (s.irrev).now = s.now := rfl
@[simp] theorem State.irrev_agenda (s : State) : (s.irrev).agenda = s.agenda := rfl
@[simp] theorem State.irrev_focus (s : State) : (s.irrev).focus = s.focus := rfl
@[simp] theorem State.irrev_free (s : State) : (s.irrev).free = s.free := rfl
@[simp] theorem State.irrev_nextTid (s : State) : (s.irrev).nextTid = s.nextTid := rfl
@[simp] theorem State.irrev_cols (s : State) : (s.irrev).cols = s.cols := rfl
@[simp] theorem State.irrev_dies (s : State) : (s.irrev).dies = s.dies := rfl
@[simp] theorem State.irrev_pkg (s : State) : (s.irrev).pkg = s.pkg := rfl
@[simp] theorem State.irrev_mem (s : State) : (s.irrev).mem = s.mem := rfl
@[simp] theorem State.irrev_poison (s : State) : (s.irrev).poison = s.poison := rfl
@[simp] theorem State.irrev_latent (s : State) : (s.irrev).latent = s.latent := rfl

/-! ### `setCol` -/

@[simp] theorem State.setCol_now (s : State) (c : ColIx) (v : Column) : (s.setCol c v).now = s.now := rfl
@[simp] theorem State.setCol_agenda (s : State) (c : ColIx) (v : Column) : (s.setCol c v).agenda = s.agenda := rfl
@[simp] theorem State.setCol_focus (s : State) (c : ColIx) (v : Column) : (s.setCol c v).focus = s.focus := rfl
@[simp] theorem State.setCol_free (s : State) (c : ColIx) (v : Column) : (s.setCol c v).free = s.free := rfl
@[simp] theorem State.setCol_nextTid (s : State) (c : ColIx) (v : Column) : (s.setCol c v).nextTid = s.nextTid := rfl
@[simp] theorem State.setCol_cores (s : State) (c : ColIx) (v : Column) : (s.setCol c v).cores = s.cores := rfl
@[simp] theorem State.setCol_dies (s : State) (c : ColIx) (v : Column) : (s.setCol c v).dies = s.dies := rfl
@[simp] theorem State.setCol_pkg (s : State) (c : ColIx) (v : Column) : (s.setCol c v).pkg = s.pkg := rfl
@[simp] theorem State.setCol_mem (s : State) (c : ColIx) (v : Column) : (s.setCol c v).mem = s.mem := rfl
@[simp] theorem State.setCol_poison (s : State) (c : ColIx) (v : Column) : (s.setCol c v).poison = s.poison := rfl
@[simp] theorem State.setCol_latent (s : State) (c : ColIx) (v : Column) : (s.setCol c v).latent = s.latent := rfl

/-! ### `modCol` -/

@[simp] theorem State.modCol_now (s : State) (c : ColIx) (f : Column → Column) : (s.modCol c f).now = s.now := rfl
@[simp] theorem State.modCol_agenda (s : State) (c : ColIx) (f : Column → Column) : (s.modCol c f).agenda = s.agenda := rfl
@[simp] theorem State.modCol_focus (s : State) (c : ColIx) (f : Column → Column) : (s.modCol c f).focus = s.focus := rfl
@[simp] theorem State.modCol_free (s : State) (c : ColIx) (f : Column → Column) : (s.modCol c f).free = s.free := rfl
@[simp] theorem State.modCol_nextTid (s : State) (c : ColIx) (f : Column → Column) : (s.modCol c f).nextTid = s.nextTid := rfl
@[simp] theorem State.modCol_cores (s : State) (c : ColIx) (f : Column → Column) : (s.modCol c f).cores = s.cores := rfl
@[simp] theorem State.modCol_dies (s : State) (c : ColIx) (f : Column → Column) : (s.modCol c f).dies = s.dies := rfl
@[simp] theorem State.modCol_pkg (s : State) (c : ColIx) (f : Column → Column) : (s.modCol c f).pkg = s.pkg := rfl
@[simp] theorem State.modCol_mem (s : State) (c : ColIx) (f : Column → Column) : (s.modCol c f).mem = s.mem := rfl
@[simp] theorem State.modCol_poison (s : State) (c : ColIx) (f : Column → Column) : (s.modCol c f).poison = s.poison := rfl
@[simp] theorem State.modCol_latent (s : State) (c : ColIx) (f : Column → Column) : (s.modCol c f).latent = s.latent := rfl

/-! ### `modDram` -/

@[simp] theorem State.modDram_now (s : State) (c : ColIx) (b : Fin 32) (f : DramBank → DramBank) : (s.modDram c b f).now = s.now := rfl
@[simp] theorem State.modDram_agenda (s : State) (c : ColIx) (b : Fin 32) (f : DramBank → DramBank) : (s.modDram c b f).agenda = s.agenda := rfl
@[simp] theorem State.modDram_focus (s : State) (c : ColIx) (b : Fin 32) (f : DramBank → DramBank) : (s.modDram c b f).focus = s.focus := rfl
@[simp] theorem State.modDram_free (s : State) (c : ColIx) (b : Fin 32) (f : DramBank → DramBank) : (s.modDram c b f).free = s.free := rfl
@[simp] theorem State.modDram_nextTid (s : State) (c : ColIx) (b : Fin 32) (f : DramBank → DramBank) : (s.modDram c b f).nextTid = s.nextTid := rfl
@[simp] theorem State.modDram_cores (s : State) (c : ColIx) (b : Fin 32) (f : DramBank → DramBank) : (s.modDram c b f).cores = s.cores := rfl
@[simp] theorem State.modDram_dies (s : State) (c : ColIx) (b : Fin 32) (f : DramBank → DramBank) : (s.modDram c b f).dies = s.dies := rfl
@[simp] theorem State.modDram_pkg (s : State) (c : ColIx) (b : Fin 32) (f : DramBank → DramBank) : (s.modDram c b f).pkg = s.pkg := rfl
@[simp] theorem State.modDram_mem (s : State) (c : ColIx) (b : Fin 32) (f : DramBank → DramBank) : (s.modDram c b f).mem = s.mem := rfl
@[simp] theorem State.modDram_poison (s : State) (c : ColIx) (b : Fin 32) (f : DramBank → DramBank) : (s.modDram c b f).poison = s.poison := rfl
@[simp] theorem State.modDram_latent (s : State) (c : ColIx) (b : Fin 32) (f : DramBank → DramBank) : (s.modDram c b f).latent = s.latent := rfl

/-! ### `modSlice` -/

@[simp] theorem State.modSlice_now (s : State) (c : ColIx) (l : Fin 4) (f : Slice → Slice) : (s.modSlice c l f).now = s.now := rfl
@[simp] theorem State.modSlice_agenda (s : State) (c : ColIx) (l : Fin 4) (f : Slice → Slice) : (s.modSlice c l f).agenda = s.agenda := rfl
@[simp] theorem State.modSlice_focus (s : State) (c : ColIx) (l : Fin 4) (f : Slice → Slice) : (s.modSlice c l f).focus = s.focus := rfl
@[simp] theorem State.modSlice_free (s : State) (c : ColIx) (l : Fin 4) (f : Slice → Slice) : (s.modSlice c l f).free = s.free := rfl
@[simp] theorem State.modSlice_nextTid (s : State) (c : ColIx) (l : Fin 4) (f : Slice → Slice) : (s.modSlice c l f).nextTid = s.nextTid := rfl
@[simp] theorem State.modSlice_cores (s : State) (c : ColIx) (l : Fin 4) (f : Slice → Slice) : (s.modSlice c l f).cores = s.cores := rfl
@[simp] theorem State.modSlice_dies (s : State) (c : ColIx) (l : Fin 4) (f : Slice → Slice) : (s.modSlice c l f).dies = s.dies := rfl
@[simp] theorem State.modSlice_pkg (s : State) (c : ColIx) (l : Fin 4) (f : Slice → Slice) : (s.modSlice c l f).pkg = s.pkg := rfl
@[simp] theorem State.modSlice_mem (s : State) (c : ColIx) (l : Fin 4) (f : Slice → Slice) : (s.modSlice c l f).mem = s.mem := rfl
@[simp] theorem State.modSlice_poison (s : State) (c : ColIx) (l : Fin 4) (f : Slice → Slice) : (s.modSlice c l f).poison = s.poison := rfl
@[simp] theorem State.modSlice_latent (s : State) (c : ColIx) (l : Fin 4) (f : Slice → Slice) : (s.modSlice c l f).latent = s.latent := rfl

/-! ### `setDie` -/

@[simp] theorem State.setDie_now (s : State) (d : DieIx) (v : Die) : (s.setDie d v).now = s.now := rfl
@[simp] theorem State.setDie_agenda (s : State) (d : DieIx) (v : Die) : (s.setDie d v).agenda = s.agenda := rfl
@[simp] theorem State.setDie_focus (s : State) (d : DieIx) (v : Die) : (s.setDie d v).focus = s.focus := rfl
@[simp] theorem State.setDie_free (s : State) (d : DieIx) (v : Die) : (s.setDie d v).free = s.free := rfl
@[simp] theorem State.setDie_nextTid (s : State) (d : DieIx) (v : Die) : (s.setDie d v).nextTid = s.nextTid := rfl
@[simp] theorem State.setDie_cores (s : State) (d : DieIx) (v : Die) : (s.setDie d v).cores = s.cores := rfl
@[simp] theorem State.setDie_cols (s : State) (d : DieIx) (v : Die) : (s.setDie d v).cols = s.cols := rfl
@[simp] theorem State.setDie_pkg (s : State) (d : DieIx) (v : Die) : (s.setDie d v).pkg = s.pkg := rfl
@[simp] theorem State.setDie_mem (s : State) (d : DieIx) (v : Die) : (s.setDie d v).mem = s.mem := rfl
@[simp] theorem State.setDie_poison (s : State) (d : DieIx) (v : Die) : (s.setDie d v).poison = s.poison := rfl
@[simp] theorem State.setDie_latent (s : State) (d : DieIx) (v : Die) : (s.setDie d v).latent = s.latent := rfl

/-! ### `modDie` -/

@[simp] theorem State.modDie_now (s : State) (d : DieIx) (f : Die → Die) : (s.modDie d f).now = s.now := rfl
@[simp] theorem State.modDie_agenda (s : State) (d : DieIx) (f : Die → Die) : (s.modDie d f).agenda = s.agenda := rfl
@[simp] theorem State.modDie_focus (s : State) (d : DieIx) (f : Die → Die) : (s.modDie d f).focus = s.focus := rfl
@[simp] theorem State.modDie_free (s : State) (d : DieIx) (f : Die → Die) : (s.modDie d f).free = s.free := rfl
@[simp] theorem State.modDie_nextTid (s : State) (d : DieIx) (f : Die → Die) : (s.modDie d f).nextTid = s.nextTid := rfl
@[simp] theorem State.modDie_cores (s : State) (d : DieIx) (f : Die → Die) : (s.modDie d f).cores = s.cores := rfl
@[simp] theorem State.modDie_cols (s : State) (d : DieIx) (f : Die → Die) : (s.modDie d f).cols = s.cols := rfl
@[simp] theorem State.modDie_pkg (s : State) (d : DieIx) (f : Die → Die) : (s.modDie d f).pkg = s.pkg := rfl
@[simp] theorem State.modDie_mem (s : State) (d : DieIx) (f : Die → Die) : (s.modDie d f).mem = s.mem := rfl
@[simp] theorem State.modDie_poison (s : State) (d : DieIx) (f : Die → Die) : (s.modDie d f).poison = s.poison := rfl
@[simp] theorem State.modDie_latent (s : State) (d : DieIx) (f : Die → Die) : (s.modDie d f).latent = s.latent := rfl

/-! ### `modPkg` -/

@[simp] theorem State.modPkg_now (s : State) (f : Package → Package) : (s.modPkg f).now = s.now := rfl
@[simp] theorem State.modPkg_agenda (s : State) (f : Package → Package) : (s.modPkg f).agenda = s.agenda := rfl
@[simp] theorem State.modPkg_focus (s : State) (f : Package → Package) : (s.modPkg f).focus = s.focus := rfl
@[simp] theorem State.modPkg_free (s : State) (f : Package → Package) : (s.modPkg f).free = s.free := rfl
@[simp] theorem State.modPkg_nextTid (s : State) (f : Package → Package) : (s.modPkg f).nextTid = s.nextTid := rfl
@[simp] theorem State.modPkg_cores (s : State) (f : Package → Package) : (s.modPkg f).cores = s.cores := rfl
@[simp] theorem State.modPkg_cols (s : State) (f : Package → Package) : (s.modPkg f).cols = s.cols := rfl
@[simp] theorem State.modPkg_dies (s : State) (f : Package → Package) : (s.modPkg f).dies = s.dies := rfl
@[simp] theorem State.modPkg_mem (s : State) (f : Package → Package) : (s.modPkg f).mem = s.mem := rfl
@[simp] theorem State.modPkg_poison (s : State) (f : Package → Package) : (s.modPkg f).poison = s.poison := rfl
@[simp] theorem State.modPkg_latent (s : State) (f : Package → Package) : (s.modPkg f).latent = s.latent := rfl

/-! ### `modBridge` -/

@[simp] theorem State.modBridge_now (s : State) (f : BridgeBlock → BridgeBlock) : (s.modBridge f).now = s.now := rfl
@[simp] theorem State.modBridge_agenda (s : State) (f : BridgeBlock → BridgeBlock) : (s.modBridge f).agenda = s.agenda := rfl
@[simp] theorem State.modBridge_focus (s : State) (f : BridgeBlock → BridgeBlock) : (s.modBridge f).focus = s.focus := rfl
@[simp] theorem State.modBridge_free (s : State) (f : BridgeBlock → BridgeBlock) : (s.modBridge f).free = s.free := rfl
@[simp] theorem State.modBridge_nextTid (s : State) (f : BridgeBlock → BridgeBlock) : (s.modBridge f).nextTid = s.nextTid := rfl
@[simp] theorem State.modBridge_cores (s : State) (f : BridgeBlock → BridgeBlock) : (s.modBridge f).cores = s.cores := rfl
@[simp] theorem State.modBridge_cols (s : State) (f : BridgeBlock → BridgeBlock) : (s.modBridge f).cols = s.cols := rfl
@[simp] theorem State.modBridge_dies (s : State) (f : BridgeBlock → BridgeBlock) : (s.modBridge f).dies = s.dies := rfl
@[simp] theorem State.modBridge_mem (s : State) (f : BridgeBlock → BridgeBlock) : (s.modBridge f).mem = s.mem := rfl
@[simp] theorem State.modBridge_poison (s : State) (f : BridgeBlock → BridgeBlock) : (s.modBridge f).poison = s.poison := rfl
@[simp] theorem State.modBridge_latent (s : State) (f : BridgeBlock → BridgeBlock) : (s.modBridge f).latent = s.latent := rfl

/-! ### `schedule` -/

@[simp] theorem State.schedule_now (s : State) (n r : Nat) (a : Act) : (s.schedule n r a).now = s.now := rfl
@[simp] theorem State.schedule_focus (s : State) (n r : Nat) (a : Act) : (s.schedule n r a).focus = s.focus := rfl
@[simp] theorem State.schedule_free (s : State) (n r : Nat) (a : Act) : (s.schedule n r a).free = s.free := rfl
@[simp] theorem State.schedule_nextTid (s : State) (n r : Nat) (a : Act) : (s.schedule n r a).nextTid = s.nextTid := rfl
@[simp] theorem State.schedule_cores (s : State) (n r : Nat) (a : Act) : (s.schedule n r a).cores = s.cores := rfl
@[simp] theorem State.schedule_cols (s : State) (n r : Nat) (a : Act) : (s.schedule n r a).cols = s.cols := rfl
@[simp] theorem State.schedule_dies (s : State) (n r : Nat) (a : Act) : (s.schedule n r a).dies = s.dies := rfl
@[simp] theorem State.schedule_pkg (s : State) (n r : Nat) (a : Act) : (s.schedule n r a).pkg = s.pkg := rfl
@[simp] theorem State.schedule_mem (s : State) (n r : Nat) (a : Act) : (s.schedule n r a).mem = s.mem := rfl
@[simp] theorem State.schedule_poison (s : State) (n r : Nat) (a : Act) : (s.schedule n r a).poison = s.poison := rfl
@[simp] theorem State.schedule_latent (s : State) (n r : Nat) (a : Act) : (s.schedule n r a).latent = s.latent := rfl

/-! ### `soon` -/

@[simp] theorem State.soon_now (s : State) (r : Nat) (l : List Act) : (s.soon r l).now = s.now := rfl
@[simp] theorem State.soon_focus (s : State) (r : Nat) (l : List Act) : (s.soon r l).focus = s.focus := rfl
@[simp] theorem State.soon_free (s : State) (r : Nat) (l : List Act) : (s.soon r l).free = s.free := rfl
@[simp] theorem State.soon_nextTid (s : State) (r : Nat) (l : List Act) : (s.soon r l).nextTid = s.nextTid := rfl
@[simp] theorem State.soon_cores (s : State) (r : Nat) (l : List Act) : (s.soon r l).cores = s.cores := rfl
@[simp] theorem State.soon_cols (s : State) (r : Nat) (l : List Act) : (s.soon r l).cols = s.cols := rfl
@[simp] theorem State.soon_dies (s : State) (r : Nat) (l : List Act) : (s.soon r l).dies = s.dies := rfl
@[simp] theorem State.soon_pkg (s : State) (r : Nat) (l : List Act) : (s.soon r l).pkg = s.pkg := rfl
@[simp] theorem State.soon_mem (s : State) (r : Nat) (l : List Act) : (s.soon r l).mem = s.mem := rfl
@[simp] theorem State.soon_poison (s : State) (r : Nat) (l : List Act) : (s.soon r l).poison = s.poison := rfl
@[simp] theorem State.soon_latent (s : State) (r : Nat) (l : List Act) : (s.soon r l).latent = s.latent := rfl

/-! ### `after` -/

@[simp] theorem State.after_now (s : State) (n r : Nat) (e : Event) : (s.after n r e).now = s.now := rfl
@[simp] theorem State.after_focus (s : State) (n r : Nat) (e : Event) : (s.after n r e).focus = s.focus := rfl
@[simp] theorem State.after_free (s : State) (n r : Nat) (e : Event) : (s.after n r e).free = s.free := rfl
@[simp] theorem State.after_nextTid (s : State) (n r : Nat) (e : Event) : (s.after n r e).nextTid = s.nextTid := rfl
@[simp] theorem State.after_cores (s : State) (n r : Nat) (e : Event) : (s.after n r e).cores = s.cores := rfl
@[simp] theorem State.after_cols (s : State) (n r : Nat) (e : Event) : (s.after n r e).cols = s.cols := rfl
@[simp] theorem State.after_dies (s : State) (n r : Nat) (e : Event) : (s.after n r e).dies = s.dies := rfl
@[simp] theorem State.after_pkg (s : State) (n r : Nat) (e : Event) : (s.after n r e).pkg = s.pkg := rfl
@[simp] theorem State.after_mem (s : State) (n r : Nat) (e : Event) : (s.after n r e).mem = s.mem := rfl
@[simp] theorem State.after_poison (s : State) (n r : Nat) (e : Event) : (s.after n r e).poison = s.poison := rfl
@[simp] theorem State.after_latent (s : State) (n r : Nat) (e : Event) : (s.after n r e).latent = s.latent := rfl

/-! ### `withdraw` -/

@[simp] theorem State.withdraw_now (s : State) (p : Act → Bool) : (s.withdraw p).now = s.now := rfl
@[simp] theorem State.withdraw_focus (s : State) (p : Act → Bool) : (s.withdraw p).focus = s.focus := rfl
@[simp] theorem State.withdraw_free (s : State) (p : Act → Bool) : (s.withdraw p).free = s.free := rfl
@[simp] theorem State.withdraw_nextTid (s : State) (p : Act → Bool) : (s.withdraw p).nextTid = s.nextTid := rfl
@[simp] theorem State.withdraw_dies (s : State) (p : Act → Bool) : (s.withdraw p).dies = s.dies := rfl
@[simp] theorem State.withdraw_pkg (s : State) (p : Act → Bool) : (s.withdraw p).pkg = s.pkg := rfl
@[simp] theorem State.withdraw_mem (s : State) (p : Act → Bool) : (s.withdraw p).mem = s.mem := rfl
@[simp] theorem State.withdraw_poison (s : State) (p : Act → Bool) : (s.withdraw p).poison = s.poison := rfl
@[simp] theorem State.withdraw_latent (s : State) (p : Act → Bool) : (s.withdraw p).latent = s.latent := rfl

/-! ### `focusOn` -/

@[simp] theorem State.focusOn_now (s : State) (o : Role) (c : CoreIx) (b : BankIx) (x : Fin 3) (q : Fin 13) : (s.focusOn o c b x q).now = s.now := rfl
@[simp] theorem State.focusOn_agenda (s : State) (o : Role) (c : CoreIx) (b : BankIx) (x : Fin 3) (q : Fin 13) : (s.focusOn o c b x q).agenda = s.agenda := rfl
@[simp] theorem State.focusOn_free (s : State) (o : Role) (c : CoreIx) (b : BankIx) (x : Fin 3) (q : Fin 13) : (s.focusOn o c b x q).free = s.free := rfl
@[simp] theorem State.focusOn_nextTid (s : State) (o : Role) (c : CoreIx) (b : BankIx) (x : Fin 3) (q : Fin 13) : (s.focusOn o c b x q).nextTid = s.nextTid := rfl
@[simp] theorem State.focusOn_cores (s : State) (o : Role) (c : CoreIx) (b : BankIx) (x : Fin 3) (q : Fin 13) : (s.focusOn o c b x q).cores = s.cores := rfl
@[simp] theorem State.focusOn_cols (s : State) (o : Role) (c : CoreIx) (b : BankIx) (x : Fin 3) (q : Fin 13) : (s.focusOn o c b x q).cols = s.cols := rfl
@[simp] theorem State.focusOn_dies (s : State) (o : Role) (c : CoreIx) (b : BankIx) (x : Fin 3) (q : Fin 13) : (s.focusOn o c b x q).dies = s.dies := rfl
@[simp] theorem State.focusOn_pkg (s : State) (o : Role) (c : CoreIx) (b : BankIx) (x : Fin 3) (q : Fin 13) : (s.focusOn o c b x q).pkg = s.pkg := rfl
@[simp] theorem State.focusOn_mem (s : State) (o : Role) (c : CoreIx) (b : BankIx) (x : Fin 3) (q : Fin 13) : (s.focusOn o c b x q).mem = s.mem := rfl
@[simp] theorem State.focusOn_poison (s : State) (o : Role) (c : CoreIx) (b : BankIx) (x : Fin 3) (q : Fin 13) : (s.focusOn o c b x q).poison = s.poison := rfl
@[simp] theorem State.focusOn_latent (s : State) (o : Role) (c : CoreIx) (b : BankIx) (x : Fin 3) (q : Fin 13) : (s.focusOn o c b x q).latent = s.latent := rfl

/-! ### `setBar` -/

@[simp] theorem State.setBar_now (s : State) (c : ColIx) (i : Nat) (b : Barrier) : (s.setBar c i b).now = s.now := rfl
@[simp] theorem State.setBar_agenda (s : State) (c : ColIx) (i : Nat) (b : Barrier) : (s.setBar c i b).agenda = s.agenda := rfl
@[simp] theorem State.setBar_focus (s : State) (c : ColIx) (i : Nat) (b : Barrier) : (s.setBar c i b).focus = s.focus := rfl
@[simp] theorem State.setBar_free (s : State) (c : ColIx) (i : Nat) (b : Barrier) : (s.setBar c i b).free = s.free := rfl
@[simp] theorem State.setBar_nextTid (s : State) (c : ColIx) (i : Nat) (b : Barrier) : (s.setBar c i b).nextTid = s.nextTid := rfl
@[simp] theorem State.setBar_cores (s : State) (c : ColIx) (i : Nat) (b : Barrier) : (s.setBar c i b).cores = s.cores := rfl
@[simp] theorem State.setBar_dies (s : State) (c : ColIx) (i : Nat) (b : Barrier) : (s.setBar c i b).dies = s.dies := rfl
@[simp] theorem State.setBar_pkg (s : State) (c : ColIx) (i : Nat) (b : Barrier) : (s.setBar c i b).pkg = s.pkg := rfl
@[simp] theorem State.setBar_mem (s : State) (c : ColIx) (i : Nat) (b : Barrier) : (s.setBar c i b).mem = s.mem := rfl
@[simp] theorem State.setBar_poison (s : State) (c : ColIx) (i : Nat) (b : Barrier) : (s.setBar c i b).poison = s.poison := rfl
@[simp] theorem State.setBar_latent (s : State) (c : ColIx) (i : Nat) (b : Barrier) : (s.setBar c i b).latent = s.latent := rfl

/-! ### A free value taken, and an address given -/

@[simp] theorem State.nextFree_fst (s : State) : s.nextFree.1 = s.free := rfl
@[simp] theorem State.nextFree_snd_cores (s : State) : s.nextFree.2.cores = s.cores := rfl
@[simp] theorem State.nextFree_snd_mem (s : State) : s.nextFree.2.mem = s.mem := rfl
@[simp] theorem State.nextFree_snd_agenda (s : State) : s.nextFree.2.agenda = s.agenda := rfl

/-! ### Cores, banks and images -/

@[simp] theorem State.core_setCore (s : State) (c : CoreIx) (v : Core) : (s.setCore c v).core c = v :=
  Store.get_put_same _ _ _ _

theorem State.core_setCore_other (s : State) (c k : CoreIx) (v : Core) (h : k ≠ c) : (s.setCore c v).core k = s.core k :=
  Store.get_put_other _ _ _ _ _ fun e => h (Fin.ext e)

@[simp] theorem State.core_modCore (s : State) (c : CoreIx) (f : Core → Core) : (s.modCore c f).core c = f (s.core c) :=
  s.core_setCore c _

theorem State.core_modCore_other (s : State) (c k : CoreIx) (f : Core → Core) (h : k ≠ c) :
    (s.modCore c f).core k = s.core k := s.core_setCore_other c k _ h

@[simp] theorem State.bank_modBank (s : State) (c : CoreIx) (b : BankIx) (f : Bank → Bank) :
    (s.modBank c b f).bank c b = f (s.bank c b) := by
  simp [State.bank, State.modBank]

theorem State.bank_modBank_other (s : State) (c k : CoreIx) (b e : BankIx) (f : Bank → Bank) (h : ¬(k = c ∧ e = b)) :
    (s.modBank c b f).bank k e = s.bank k e := by
  by_cases hk : k = c
  · subst hk
    have hb : b.val ≠ e.val := fun hv => h ⟨rfl, Fin.ext hv.symm⟩
    simp [State.bank, State.modBank, Vector.getElem_set_ne, hb]
  · simp [State.bank, State.modBank, State.core_modCore_other _ _ _ _ hk]

@[simp] theorem State.img_modImg (s : State) (c : CoreIx) (b : BankIx) (f : Image → Image) :
    (s.modImg c b f).img c b = f (s.img c b) := by
  simp [State.img, State.modImg]

theorem State.img_modImg_other (s : State) (c k : CoreIx) (b e : BankIx) (f : Image → Image) (h : ¬(k = c ∧ e = b)) :
    (s.modImg c b f).img k e = s.img k e := by
  simp [State.img, State.modImg, State.bank_modBank_other _ _ _ _ _ _ h]

@[simp] theorem State.cur_modCur (s : State) (f : Image → Image) : (s.modCur f).cur = f s.cur :=
  s.img_modImg _ _ f

@[simp] theorem State.cx_modCx (s : State) (f : Context → Context) : (s.modCx f).cx = f s.cx := by
  simp [State.cx, State.modCx, Image.modCtx]

@[simp] theorem Image.eqAt_modEq (m : Image) (q : Fin 13) (c : Fin 3) (f : EngQueue → EngQueue) :
    (m.modEq q c f).eqAt q c = f (m.eqAt q c) := by
  simp [Image.eqAt, Image.modEq]

@[simp] theorem State.curQ_modQ (s : State) (f : EngQueue → EngQueue) : (s.modQ f).curQ = f s.curQ := by
  simp [State.curQ, State.modQ]

@[simp] theorem State.prog_setProg (s : State) (k : Cur) : (s.setProg k).prog = k := by
  simp [State.prog, State.setProg]

/-! ### Updates of one place after one another -/

@[simp] theorem State.setCore_setCore (s : State) (c : CoreIx) (v w : Core) : (s.setCore c v).setCore c w = s.setCore c w := by
  simp [State.setCore]

theorem State.modCore_modCore (s : State) (c : CoreIx) (f g : Core → Core) :
    (s.modCore c f).modCore c g = s.modCore c fun k => g (f k) := by
  simp [State.modCore]

theorem State.modBank_modBank (s : State) (c : CoreIx) (b : BankIx) (f g : Bank → Bank) :
    (s.modBank c b f).modBank c b g = s.modBank c b fun k => g (f k) := by
  simp [State.modBank, State.modCore_modCore]

theorem State.modImg_modImg (s : State) (c : CoreIx) (b : BankIx) (f g : Image → Image) :
    (s.modImg c b f).modImg c b g = s.modImg c b fun m => g (f m) := by
  simp [State.modImg, State.modBank_modBank]

/-- Two changes of the bank in focus are one. -/
theorem State.modCur_modCur (s : State) (f g : Image → Image) : (s.modCur f).modCur g = s.modCur fun m => g (f m) :=
  s.modImg_modImg _ _ f g

theorem Image.modCtx_modCtx (m : Image) (c : Fin 3) (f g : Context → Context) :
    (m.modCtx c f).modCtx c g = m.modCtx c fun x => g (f x) := by
  simp [Image.modCtx]

theorem State.modCx_modCx (s : State) (f g : Context → Context) : (s.modCx f).modCx g = s.modCx fun x => g (f x) := by
  simp [State.modCx, State.modCur_modCur, Image.modCtx_modCtx]

theorem State.modCx_eq (s : State) (f : Context → Context) : s.modCx f = s.modCur fun m => m.modCtx s.focus.ctx f := rfl

theorem State.modQ_eq (s : State) (f : EngQueue → EngQueue) :
    s.modQ f = s.modCur fun m => m.modEq s.focus.q s.focus.ctx f := rfl

/-- The images, contexts and queues of the bank in focus that a change of one context leaves. -/
@[simp] theorem State.cur_modCx (s : State) (f : Context → Context) : (s.modCx f).cur = s.cur.modCtx s.focus.ctx f :=
  s.cur_modCur _

/-! ### Columns and dies -/

@[simp] theorem State.col_setCol (s : State) (c : ColIx) (v : Column) : (s.setCol c v).col c = v :=
  Store.get_put_same _ _ _ _

theorem State.col_setCol_other (s : State) (c k : ColIx) (v : Column) (h : k ≠ c) : (s.setCol c v).col k = s.col k :=
  Store.get_put_other _ _ _ _ _ fun e => h (Fin.ext e)

@[simp] theorem State.col_modCol (s : State) (c : ColIx) (f : Column → Column) : (s.modCol c f).col c = f (s.col c) :=
  s.col_setCol c _

theorem State.col_modCol_other (s : State) (c k : ColIx) (f : Column → Column) (h : k ≠ c) :
    (s.modCol c f).col k = s.col k := s.col_setCol_other c k _ h

@[simp] theorem State.die_setDie (s : State) (d : DieIx) (v : Die) : (s.setDie d v).die d = v :=
  Store.get_put_same _ _ _ _

@[simp] theorem State.die_modDie (s : State) (d : DieIx) (f : Die → Die) : (s.modDie d f).die d = f (s.die d) :=
  s.die_setDie d _

@[simp] theorem State.dram_modDram (s : State) (c : ColIx) (b : Fin 32) (f : DramBank → DramBank) :
    (s.modDram c b f).dram c b = f (s.dram c b) := by
  simp [State.dram, State.modDram]

@[simp] theorem State.slice_modSlice (s : State) (c : ColIx) (l : Fin 4) (f : Slice → Slice) :
    (s.modSlice c l f).slice c l = f (s.slice c l) := by
  simp [State.slice, State.modSlice]

@[simp] theorem State.bar_setBar (s : State) (c : ColIx) (i : Nat) (b : Barrier) : (s.setBar c i b).bar c i = b := by
  simp [State.bar, State.setBar]

theorem State.bar_setBar_other (s : State) (c : ColIx) (i j : Nat) (b : Barrier) (h : j ≠ i) :
    (s.setBar c i b).bar c j = s.bar c j := by
  simp [State.bar, State.setBar, Store.get_put_other _ _ _ _ _ h]

end Sys2Proof.Machine
end

