-- ==== Sys2Proof/Laws/Ctrl.lean ====
section
/-! SUPPORT. What the shared operations of a CTRL word do (R82, R88, R182): the word whose predicate is 0, the result in
a g register, the result in a predicate. -/

namespace Sys2Proof.Machine

open Sys2Proof

/-! ### What issue leaves -/

/-- The context in focus no longer blocked: what every CTRL word reads is as it was. -/
abbrev State.unblock (s : State) : State := s.modCx fun c => { c with blocked := false }

@[simp] theorem State.unblock_g (s : State) (n : Fin 32) : s.unblock.g n = s.g n := by
  simp [State.g, Context.readG]

@[simp] theorem State.unblock_p (s : State) (n : Fin 16) : s.unblock.p n = s.p n := by
  simp [State.p, Context.readP]

@[simp] theorem State.unblock_predWord (s : State) : s.unblock.predWord = s.predWord := by
  simp [State.predWord]

@[simp] theorem State.unblock_cur_cyc (s : State) : s.unblock.cur.cyc = s.cur.cyc := by
  simp [Image.modCtx]

@[simp] theorem State.unblock_imgLen (s : State) : s.unblock.imgLen = s.imgLen := by
  simp [State.imgLen, Image.modCtx, Image.blk]

@[simp] theorem State.unblock_formIn (s : State) (a : Word) (w : Window) : s.unblock.formIn a w = s.formIn a w := rfl

/-! ### The word that is not performed -/

/-- A CTRL word whose predicate is 0 only advances PC (R82, R182). -/
theorem ctrlWord_false (s : State) (p : Pred) (n : Nat) (body : State → State) (h : s.p p = false) :
    ctrlWord s p n body =
      .next (s.modCx fun c => { c with blocked := false, pc := c.pc + BitVec.ofNat 15 (4 * n) }) := by
  simp [ctrlWord, h, State.advance, State.modCx_modCx]

theorem ctrlWord_true (s : State) (p : Pred) (n : Nat) (body : State → State) (h : s.p p = true) :
    ctrlWord s p n body = .next (body s.unblock) := by
  simp [ctrlWord, h]

/-! ### Results -/

/-- The pending write of `put`, if there is one (R182). -/
def putList (s : State) (d : Fin 32) (v : Word) (l : Nat) : List PendWrite :=
  if d.val = 0 then []
  else [{ ctx := s.focus.ctx, file := 0, idx := (physG s.cx.rot d).val, val := v, due := s.cur.cyc + l
          shadow := s.cx.shadow.isSome && decide (d.val < 16), born := s.now }]

/-- The pending write of `putP`, if there is one (R182). -/
def putPList (s : State) (d : Fin 16) (b : Bool) : List PendWrite :=
  if d.val = 0 then []
  else [{ ctx := s.focus.ctx, file := 1, idx := d.val, val := if b then 1 else 0, due := s.cur.cyc + 1
          shadow := s.cx.shadow.isSome && decide (d.val < 8), born := s.now }]

/-- Writes added to those pending in the bank in focus, and PC past a word of n entries. -/
def State.issued (s : State) (n : Nat) (l : List PendWrite) : State :=
  s.modCur fun m =>
    { m.modCtx s.focus.ctx (fun c => { c with blocked := false, pc := c.pc + BitVec.ofNat 15 (4 * n) }) with
      pend := m.pend ++ l }

/-- A word that pends the writes l and passes on (R182). -/
theorem State.unblock_pend (s : State) (n : Nat) (l : List PendWrite) :
    (s.unblock.modCur fun m => { m with pend := m.pend ++ l }).advance n = s.issued n l := by
  simp only [State.unblock, State.advance, State.modCx_eq, State.modCur_modCur, State.modCur_focus, State.issued]
  congr 1
  funext m
  simp [Image.modCtx]

theorem State.issued_nil (s : State) (n : Nat) : s.unblock.advance n = s.issued n [] := by
  simp only [State.unblock, State.advance, State.modCx_eq, State.modCur_modCur, State.modCur_focus, State.issued,
    List.append_nil]
  congr 1
  funext m
  simp [Image.modCtx]

/-- Only the image in focus decides what a change of it gives. -/
theorem State.modCur_congr (s : State) (f g : Image → Image) (h : f s.cur = g s.cur) : s.modCur f = s.modCur g := by
  simp only [State.modCur, State.modImg, State.modBank, State.modCore]
  have h' : f (s.bank s.focus.core s.focus.bank).img = g (s.bank s.focus.core s.focus.bank).img := h
  simp only [State.bank] at h'
  rw [h']

theorem State.unblock_pendWrite (s : State) (file idx n l : Nat) (v : Word) (sh : Bool) :
    (s.unblock.pendWrite file idx v l sh).advance n =
      s.issued n [{ ctx := s.focus.ctx, file, idx, val := v, due := s.cur.cyc + l, shadow := sh, born := s.now }] := by
  have h : s.unblock.pendWrite file idx v l sh =
      s.unblock.modCur fun m =>
        { m with pend := m.pend ++ [{ ctx := s.focus.ctx, file, idx, val := v, due := m.cyc + l, shadow := sh, born := s.now }] } := rfl
  rw [h, State.modCur_congr _ _
    (fun m => { m with pend := m.pend ++ [{ ctx := s.focus.ctx, file, idx, val := v, due := s.cur.cyc + l, shadow := sh, born := s.now }] })
    (by simp [Image.modCtx]), State.unblock_pend]

/-- A result in a g register: nothing is pending for g0 (R182). -/
theorem ctrlPut_true (s : State) (p : Pred) (d : Fin 32) (l : Nat) (v : State → Word) (h : s.p p = true) :
    ctrlPut s p d l v = .next (s.issued 1 (putList s d (v s.unblock) l)) := by
  rw [ctrlPut, ctrlWord_true _ _ _ _ h]
  by_cases hd : d.val = 0
  · simp [State.put, putList, hd, State.issued_nil]
  · simp [State.put, putList, hd, State.unblock_pendWrite]

/-- A result in a predicate: nothing is pending for p0 (R182). -/
theorem ctrlPutP_true (s : State) (p : Pred) (n : Nat) (d : Fin 16) (b : State → Bool) (h : s.p p = true) :
    ctrlPutP s p n d b = .next (s.issued n (putPList s d (b s.unblock))) := by
  rw [ctrlPutP, ctrlWord_true _ _ _ _ h]
  by_cases hd : d.val = 0
  · simp [State.putP, putPList, hd, State.issued_nil]
  · simp [State.putP, putPList, hd, State.unblock_pendWrite]

end Sys2Proof.Machine
end

