-- ==== Sys2Proof/Laws/Dispatch.lean ====
section
/-! SUPPORT. The arms of the dispatch, one lemma for each instruction. -/

namespace Sys2Proof.Machine

open Sys2Proof

theorem exec_trailerWord (m : BitVec 12) (s : State) : exec (.trailerWord m) s = execTrailerWord m s := rfl
theorem exec_nop (p : Pred) (s : State) : exec (.nop p) s = execNop p s := rfl
theorem exec_add (p : Pred) (d : Fin 32) (a : Fin 32) (b : Fin 32) (s : State) : exec (.add p d a b) s = execAdd p d a b s := rfl
theorem exec_sub (p : Pred) (d : Fin 32) (a : Fin 32) (b : Fin 32) (s : State) : exec (.sub p d a b) s = execSub p d a b s := rfl
theorem exec_mul (p : Pred) (d : Fin 32) (a : Fin 32) (b : Fin 32) (s : State) : exec (.mul p d a b) s = execMul p d a b s := rfl
theorem exec_mulh (p : Pred) (d : Fin 32) (a : Fin 32) (b : Fin 32) (u : Bool) (s : State) : exec (.mulh p d a b u) s = execMulh p d a b u s := rfl
theorem exec_div (p : Pred) (d : Fin 32) (a : Fin 32) (b : Fin 32) (u : Bool) (s : State) : exec (.div p d a b u) s = execDiv p d a b u s := rfl
theorem exec_rem (p : Pred) (d : Fin 32) (a : Fin 32) (b : Fin 32) (u : Bool) (s : State) : exec (.rem p d a b u) s = execRem p d a b u s := rfl
theorem exec_and (p : Pred) (d : Fin 32) (a : Fin 32) (b : Fin 32) (s : State) : exec (.and p d a b) s = execAnd p d a b s := rfl
theorem exec_or (p : Pred) (d : Fin 32) (a : Fin 32) (b : Fin 32) (s : State) : exec (.or p d a b) s = execOr p d a b s := rfl
theorem exec_xor (p : Pred) (d : Fin 32) (a : Fin 32) (b : Fin 32) (s : State) : exec (.xor p d a b) s = execXor p d a b s := rfl
theorem exec_andn (p : Pred) (d : Fin 32) (a : Fin 32) (b : Fin 32) (s : State) : exec (.andn p d a b) s = execAndn p d a b s := rfl
theorem exec_shl (p : Pred) (d : Fin 32) (a : Fin 32) (b : Fin 32) (s : State) : exec (.shl p d a b) s = execShl p d a b s := rfl
theorem exec_shr (p : Pred) (d : Fin 32) (a : Fin 32) (b : Fin 32) (s : State) : exec (.shr p d a b) s = execShr p d a b s := rfl
theorem exec_sra (p : Pred) (d : Fin 32) (a : Fin 32) (b : Fin 32) (s : State) : exec (.sra p d a b) s = execSra p d a b s := rfl
theorem exec_min (p : Pred) (d : Fin 32) (a : Fin 32) (b : Fin 32) (u : Bool) (s : State) : exec (.min p d a b u) s = execMin p d a b u s := rfl
theorem exec_max (p : Pred) (d : Fin 32) (a : Fin 32) (b : Fin 32) (u : Bool) (s : State) : exec (.max p d a b u) s = execMax p d a b u s := rfl
theorem exec_sel (p : Pred) (d : Fin 32) (a : Fin 32) (b : Fin 32) (c : Fin 16) (s : State) : exec (.sel p d a b c) s = execSel p d a b c s := rfl
theorem exec_addi (p : Pred) (d : Fin 32) (a : Fin 32) (im : BitVec 9) (s : State) : exec (.addi p d a im) s = execAddi p d a im s := rfl
theorem exec_andi (p : Pred) (d : Fin 32) (a : Fin 32) (im : BitVec 9) (s : State) : exec (.andi p d a im) s = execAndi p d a im s := rfl
theorem exec_ori (p : Pred) (d : Fin 32) (a : Fin 32) (im : BitVec 9) (s : State) : exec (.ori p d a im) s = execOri p d a im s := rfl
theorem exec_xori (p : Pred) (d : Fin 32) (a : Fin 32) (im : BitVec 9) (s : State) : exec (.xori p d a im) s = execXori p d a im s := rfl
theorem exec_shli (p : Pred) (d : Fin 32) (a : Fin 32) (n : Fin 64) (s : State) : exec (.shli p d a n) s = execShli p d a n s := rfl
theorem exec_shri (p : Pred) (d : Fin 32) (a : Fin 32) (n : Fin 64) (s : State) : exec (.shri p d a n) s = execShri p d a n s := rfl
theorem exec_srai (p : Pred) (d : Fin 32) (a : Fin 32) (n : Fin 64) (s : State) : exec (.srai p d a n) s = execSrai p d a n s := rfl
theorem exec_muli (p : Pred) (d : Fin 32) (a : Fin 32) (im : BitVec 9) (s : State) : exec (.muli p d a im) s = execMuli p d a im s := rfl
theorem exec_cmp (p : Pred) (d : Fin 16) (a : Fin 32) (b : Fin 32) (c : Fin 16) (s : State) : exec (.cmp p d a b c) s = execCmp p d a b c s := rfl
theorem exec_cmpx (p : Pred) (d : Fin 16) (a : Fin 32) (c : Fin 16) (x : BitVec 32) (s : State) : exec (.cmpx p d a c x) s = execCmpx p d a c x s := rfl
theorem exec_pand (p : Pred) (d : Fin 16) (a : Fin 16) (b : Fin 16) (s : State) : exec (.pand p d a b) s = execPand p d a b s := rfl
theorem exec_por (p : Pred) (d : Fin 16) (a : Fin 16) (b : Fin 16) (s : State) : exec (.por p d a b) s = execPor p d a b s := rfl
theorem exec_pxor (p : Pred) (d : Fin 16) (a : Fin 16) (b : Fin 16) (s : State) : exec (.pxor p d a b) s = execPxor p d a b s := rfl
theorem exec_pandn (p : Pred) (d : Fin 16) (a : Fin 16) (b : Fin 16) (s : State) : exec (.pandn p d a b) s = execPandn p d a b s := rfl
theorem exec_pset (p : Pred) (d : Fin 16) (b : Bool) (s : State) : exec (.pset p d b) s = execPset p d b s := rfl
theorem exec_prd (p : Pred) (d : Fin 32) (s : State) : exec (.prd p d) s = execPrd p d s := rfl
theorem exec_pwr (p : Pred) (sc : Fin 32) (s : State) : exec (.pwr p sc) s = execPwr p sc s := rfl
theorem exec_li (p : Pred) (d : Fin 32) (im : BitVec 14) (s : State) : exec (.li p d im) s = execLi p d im s := rfl
theorem exec_lit (p : Pred) (d : Fin 32) (x : BitVec 32) (s : State) : exec (.lit p d x) s = execLit p d x s := rfl
theorem exec_lith (p : Pred) (d : Fin 32) (x : BitVec 32) (s : State) : exec (.lith p d x) s = execLith p d x s := rfl
theorem exec_ld (p : Pred) (d : Fin 32) (a : Fin 32) (im : BitVec 9) (s : State) : exec (.ld p d a im) s = execLd p d a im s := rfl
theorem exec_ldx (p : Pred) (d : Fin 32) (a : Fin 32) (b : Fin 32) (e : Bool) (w : Fin 4) (s : State) : exec (.ldx p d a b e w) s = execLdx p d a b e w s := rfl
theorem exec_st (p : Pred) (sc : Fin 32) (a : Fin 32) (im : BitVec 9) (s : State) : exec (.st p sc a im) s = execSt p sc a im s := rfl
theorem exec_stx (p : Pred) (sc : Fin 32) (a : Fin 32) (b : Fin 32) (e : Bool) (w : Fin 4) (s : State) : exec (.stx p sc a b e w) s = execStx p sc a b e w s := rfl
theorem exec_cvta (p : Pred) (d : Fin 32) (a : Fin 32) (w : Window) (s : State) : exec (.cvta p d a w) s = execCvta p d a w s := rfl
theorem exec_isap (p : Pred) (d : Fin 16) (a : Fin 32) (w : Window) (s : State) : exec (.isap p d a w) s = execIsap p d a w s := rfl
theorem exec_br (p : Pred) (o : BitVec 19) (s : State) : exec (.br p o) s = execBr p o s := rfl
theorem exec_call (p : Pred) (o : BitVec 19) (s : State) : exec (.call p o) s = execCall p o s := rfl
theorem exec_jr (p : Pred) (a : Fin 32) (s : State) : exec (.jr p a) s = execJr p a s := rfl
theorem exec_loopb (p : Pred) (o : BitVec 19) (s : State) : exec (.loopb p o) s = execLoopb p o s := rfl
theorem exec_push (p : Pred) (q : Fin 16) (sc : Fin 32) (s : State) : exec (.push p q sc) s = execPush p q sc s := rfl
theorem exec_pop (p : Pred) (q : Fin 16) (d : Fin 32) (s : State) : exec (.pop p q d) s = execPop p q d s := rfl
theorem exec_peek (p : Pred) (q : Fin 16) (d : Fin 32) (s : State) : exec (.peek p q d) s = execPeek p q d s := rfl
theorem exec_qfence (p : Pred) (m : BitVec 12) (s : State) : exec (.qfence p m) s = execQfence p m s := rfl
theorem exec_mfsr (p : Pred) (d : Fin 32) (n : Fin 16384) (s : State) : exec (.mfsr p d n) s = execMfsr p d n s := rfl
theorem exec_mtsr (p : Pred) (sc : Fin 32) (n : Fin 16384) (s : State) : exec (.mtsr p sc n) s = execMtsr p sc n s := rfl
theorem exec_uret (p : Pred) (s : State) : exec (.uret p) s = execUret p s := rfl
theorem exec_sext (p : Pred) (d : Fin 32) (a : Fin 32) (e : Bool) (w : Fin 4) (s : State) : exec (.sext p d a e w) s = execSext p d a e w s := rfl
theorem exec_zext (p : Pred) (d : Fin 32) (a : Fin 32) (e : Bool) (w : Fin 4) (s : State) : exec (.zext p d a e w) s = execZext p d a e w s := rfl
theorem exec_clz (p : Pred) (d : Fin 32) (a : Fin 32) (s : State) : exec (.clz p d a) s = execClz p d a s := rfl
theorem exec_popc (p : Pred) (d : Fin 32) (a : Fin 32) (s : State) : exec (.popc p d a) s = execPopc p d a s := rfl
theorem exec_setlc (p : Pred) (sc : Fin 32) (im : BitVec 14) (s : State) : exec (.setlc p sc im) s = execSetlc p sc im s := rfl
theorem exec_setec (p : Pred) (sc : Fin 32) (im : BitVec 14) (s : State) : exec (.setec p sc im) s = execSetec p sc im s := rfl
theorem exec_setrot (p : Pred) (sc : Fin 32) (im : BitVec 14) (s : State) : exec (.setrot p sc im) s = execSetrot p sc im s := rfl
theorem exec_vSeta (p : Pred) (q : Fin 16) (d : Fin 16) (s : State) : exec (.vSeta p q d) s = execVSeta p q d s := rfl
theorem exec_vAdd (p : Pred) (t : ElemType) (r : Rounding) (d : Fin 16) (a : Fin 16) (sc : Bool) (b : Fin 16) (s : State) : exec (.vAdd p t r d a sc b) s = execVAdd p t r d a sc b s := rfl
theorem exec_vSub (p : Pred) (t : ElemType) (r : Rounding) (d : Fin 16) (a : Fin 16) (sc : Bool) (b : Fin 16) (s : State) : exec (.vSub p t r d a sc b) s = execVSub p t r d a sc b s := rfl
theorem exec_vMul (p : Pred) (t : ElemType) (r : Rounding) (d : Fin 16) (a : Fin 16) (sc : Bool) (b : Fin 16) (s : State) : exec (.vMul p t r d a sc b) s = execVMul p t r d a sc b s := rfl
theorem exec_vDiv (p : Pred) (t : ElemType) (r : Rounding) (d : Fin 16) (a : Fin 16) (sc : Bool) (b : Fin 16) (s : State) : exec (.vDiv p t r d a sc b) s = execVDiv p t r d a sc b s := rfl
theorem exec_vFma (p : Pred) (t : ElemType) (r : Rounding) (d : Fin 16) (a : Fin 16) (sc : Bool) (b : Fin 16) (s : State) : exec (.vFma p t r d a sc b) s = execVFma p t r d a sc b s := rfl
theorem exec_vFms (p : Pred) (t : ElemType) (r : Rounding) (d : Fin 16) (a : Fin 16) (sc : Bool) (b : Fin 16) (s : State) : exec (.vFms p t r d a sc b) s = execVFms p t r d a sc b s := rfl
theorem exec_vFnma (p : Pred) (t : ElemType) (r : Rounding) (d : Fin 16) (a : Fin 16) (sc : Bool) (b : Fin 16) (s : State) : exec (.vFnma p t r d a sc b) s = execVFnma p t r d a sc b s := rfl
theorem exec_vMin (p : Pred) (t : ElemType) (r : Rounding) (d : Fin 16) (a : Fin 16) (sc : Bool) (b : Fin 16) (s : State) : exec (.vMin p t r d a sc b) s = execVMin p t r d a sc b s := rfl
theorem exec_vMax (p : Pred) (t : ElemType) (r : Rounding) (d : Fin 16) (a : Fin 16) (sc : Bool) (b : Fin 16) (s : State) : exec (.vMax p t r d a sc b) s = execVMax p t r d a sc b s := rfl
theorem exec_vAbs (p : Pred) (t : ElemType) (r : Rounding) (d : Fin 16) (a : Fin 16) (sc : Bool) (s : State) : exec (.vAbs p t r d a sc) s = execVAbs p t r d a sc s := rfl
theorem exec_vNeg (p : Pred) (t : ElemType) (r : Rounding) (d : Fin 16) (a : Fin 16) (sc : Bool) (s : State) : exec (.vNeg p t r d a sc) s = execVNeg p t r d a sc s := rfl
theorem exec_vSqrt (p : Pred) (t : ElemType) (r : Rounding) (d : Fin 16) (a : Fin 16) (s : State) : exec (.vSqrt p t r d a) s = execVSqrt p t r d a s := rfl
theorem exec_vExp2 (p : Pred) (t : ElemType) (r : Rounding) (d : Fin 16) (a : Fin 16) (s : State) : exec (.vExp2 p t r d a) s = execVExp2 p t r d a s := rfl
theorem exec_vLog2 (p : Pred) (t : ElemType) (r : Rounding) (d : Fin 16) (a : Fin 16) (s : State) : exec (.vLog2 p t r d a) s = execVLog2 p t r d a s := rfl
theorem exec_vRecip (p : Pred) (t : ElemType) (r : Rounding) (d : Fin 16) (a : Fin 16) (s : State) : exec (.vRecip p t r d a) s = execVRecip p t r d a s := rfl
theorem exec_vRsqrt (p : Pred) (t : ElemType) (r : Rounding) (d : Fin 16) (a : Fin 16) (s : State) : exec (.vRsqrt p t r d a) s = execVRsqrt p t r d a s := rfl
theorem exec_vTanh (p : Pred) (t : ElemType) (r : Rounding) (d : Fin 16) (a : Fin 16) (s : State) : exec (.vTanh p t r d a) s = execVTanh p t r d a s := rfl
theorem exec_vAnd (p : Pred) (t : ElemType) (d : Fin 16) (a : Fin 16) (b : Fin 16) (s : State) : exec (.vAnd p t d a b) s = execVAnd p t d a b s := rfl
theorem exec_vOr (p : Pred) (t : ElemType) (d : Fin 16) (a : Fin 16) (b : Fin 16) (s : State) : exec (.vOr p t d a b) s = execVOr p t d a b s := rfl
theorem exec_vXor (p : Pred) (t : ElemType) (d : Fin 16) (a : Fin 16) (b : Fin 16) (s : State) : exec (.vXor p t d a b) s = execVXor p t d a b s := rfl
theorem exec_vShl (p : Pred) (t : ElemType) (d : Fin 16) (a : Fin 16) (b : Fin 16) (s : State) : exec (.vShl p t d a b) s = execVShl p t d a b s := rfl
theorem exec_vShr (p : Pred) (t : ElemType) (d : Fin 16) (a : Fin 16) (b : Fin 16) (s : State) : exec (.vShr p t d a b) s = execVShr p t d a b s := rfl
theorem exec_vSra (p : Pred) (t : ElemType) (d : Fin 16) (a : Fin 16) (b : Fin 16) (s : State) : exec (.vSra p t d a b) s = execVSra p t d a b s := rfl
theorem exec_vMulh (p : Pred) (t : ElemType) (d : Fin 16) (a : Fin 16) (b : Fin 16) (s : State) : exec (.vMulh p t d a b) s = execVMulh p t d a b s := rfl
theorem exec_vCmpeq (p : Pred) (t : ElemType) (d : Fin 16) (a : Fin 16) (b : Fin 16) (s : State) : exec (.vCmpeq p t d a b) s = execVCmpeq p t d a b s := rfl
theorem exec_vCmpne (p : Pred) (t : ElemType) (d : Fin 16) (a : Fin 16) (b : Fin 16) (s : State) : exec (.vCmpne p t d a b) s = execVCmpne p t d a b s := rfl
theorem exec_vCmplt (p : Pred) (t : ElemType) (d : Fin 16) (a : Fin 16) (b : Fin 16) (s : State) : exec (.vCmplt p t d a b) s = execVCmplt p t d a b s := rfl
theorem exec_vCmple (p : Pred) (t : ElemType) (d : Fin 16) (a : Fin 16) (b : Fin 16) (s : State) : exec (.vCmple p t d a b) s = execVCmple p t d a b s := rfl
theorem exec_vSel (p : Pred) (t : ElemType) (d : Fin 16) (a : Fin 16) (b : Fin 16) (s : State) : exec (.vSel p t d a b) s = execVSel p t d a b s := rfl
theorem exec_vCvt (p : Pred) (t : ElemType) (r : Rounding) (d : Fin 16) (a : Fin 16) (sc : Bool) (b : Fin 16) (s : State) : exec (.vCvt p t r d a sc b) s = execVCvt p t r d a sc b s := rfl
theorem exec_vRsum (p : Pred) (t : ElemType) (r : Rounding) (d : Fin 16) (a : Fin 16) (sc : Bool) (s : State) : exec (.vRsum p t r d a sc) s = execVRsum p t r d a sc s := rfl
theorem exec_vRmax (p : Pred) (t : ElemType) (d : Fin 16) (a : Fin 16) (s : State) : exec (.vRmax p t d a) s = execVRmax p t d a s := rfl
theorem exec_vRmin (p : Pred) (t : ElemType) (d : Fin 16) (a : Fin 16) (s : State) : exec (.vRmin p t d a) s = execVRmin p t d a s := rfl
theorem exec_vCopy (p : Pred) (t : ElemType) (d : Fin 16) (a : Fin 16) (s : State) : exec (.vCopy p t d a) s = execVCopy p t d a s := rfl
theorem exec_vFill (p : Pred) (q : Fin 16) (d : Fin 16) (s : State) : exec (.vFill p q d) s = execVFill p q d s := rfl
theorem exec_vIota (p : Pred) (q : Fin 16) (r : Rounding) (d : Fin 16) (sc : Bool) (s : State) : exec (.vIota p q r d sc) s = execVIota p q r d sc s := rfl
theorem exec_vClamp (p : Pred) (q : Fin 16) (d : Fin 16) (a : Fin 16) (s : State) : exec (.vClamp p q d a) s = execVClamp p q d a s := rfl
theorem exec_vAddq (p : Pred) (q : Fin 16) (r : Rounding) (d : Fin 16) (a : Fin 16) (sc : Bool) (s : State) : exec (.vAddq p q r d a sc) s = execVAddq p q r d a sc s := rfl
theorem exec_vMulq (p : Pred) (q : Fin 16) (r : Rounding) (d : Fin 16) (a : Fin 16) (sc : Bool) (s : State) : exec (.vMulq p q r d a sc) s = execVMulq p q r d a sc s := rfl
theorem exec_vFmaq (p : Pred) (q : Fin 16) (r : Rounding) (d : Fin 16) (a : Fin 16) (sc : Bool) (s : State) : exec (.vFmaq p q r d a sc) s = execVFmaq p q r d a sc s := rfl
theorem exec_vGather (p : Pred) (t : ElemType) (d : Fin 16) (a : Fin 16) (b : Fin 16) (s : State) : exec (.vGather p t d a b) s = execVGather p t d a b s := rfl
theorem exec_vScatter (p : Pred) (t : ElemType) (d : Fin 16) (a : Fin 16) (b : Fin 16) (s : State) : exec (.vScatter p t d a b) s = execVScatter p t d a b s := rfl
theorem exec_vCnt (p : Pred) (t : ElemType) (d : Fin 16) (a : Fin 16) (s : State) : exec (.vCnt p t d a) s = execVCnt p t d a s := rfl
theorem exec_mSett (p : Pred) (q : Fin 16) (d : Fin 8) (s : State) : exec (.mSett p q d) s = execMSett p q d s := rfl
theorem exec_mMma (p : Pred) (d : Fin 8) (a : Fin 8) (b : Fin 8) (s : State) : exec (.mMma p d a b) s = execMMma p d a b s := rfl
theorem exec_mMmat (p : Pred) (d : Fin 8) (a : Fin 8) (b : Fin 8) (s : State) : exec (.mMmat p d a b) s = execMMmat p d a b s := rfl
theorem exec_mClr (p : Pred) (t : ElemType) (d : Fin 8) (s : State) : exec (.mClr p t d) s = execMClr p t d s := rfl
theorem exec_mCvt (p : Pred) (t : ElemType) (d : Fin 8) (a : Fin 8) (sc : Bool) (s : State) : exec (.mCvt p t d a sc) s = execMCvt p t d a sc s := rfl
theorem exec_mBias (p : Pred) (d : Fin 8) (a : Fin 8) (s : State) : exec (.mBias p d a) s = execMBias p d a s := rfl
theorem exec_mTr (p : Pred) (t : ElemType) (d : Fin 8) (a : Fin 8) (s : State) : exec (.mTr p t d a) s = execMTr p t d a s := rfl
theorem exec_mScl (p : Pred) (q : Fin 16) (d : Fin 8) (s : State) : exec (.mScl p q d) s = execMScl p q d s := rfl
theorem exec_mCopy (p : Pred) (t : ElemType) (d : Fin 8) (a : Fin 8) (s : State) : exec (.mCopy p t d a) s = execMCopy p t d a s := rfl
theorem exec_mDrop (p : Pred) (s : State) : exec (.mDrop p) s = execMDrop p s := rfl
theorem exec_mAdd (p : Pred) (d : Fin 8) (a : Fin 8) (s : State) : exec (.mAdd p d a) s = execMAdd p d a s := rfl
theorem exec_mRelu (p : Pred) (d : Fin 8) (s : State) : exec (.mRelu p d) s = execMRelu p d s := rfl
theorem exec_rowSeta (p : Pred) (q : Fin 16) (d : Fin 8) (s : State) : exec (.rowSeta p q d) s = execRowSeta p q d s := rfl
theorem exec_rowMax (p : Pred) (q : Fin 16) (d : Fin 8) (a : Fin 8) (s : State) : exec (.rowMax p q d a) s = execRowMax p q d a s := rfl
theorem exec_rowExpsum (p : Pred) (q : Fin 16) (d : Fin 8) (a : Fin 8) (b : Fin 8) (s : State) : exec (.rowExpsum p q d a b) s = execRowExpsum p q d a b s := rfl
theorem exec_rowScale (p : Pred) (q : Fin 16) (d : Fin 8) (a : Fin 8) (b : Fin 8) (s : State) : exec (.rowScale p q d a b) s = execRowScale p q d a b s := rfl
theorem exec_rowSoft (p : Pred) (q : Fin 16) (d : Fin 8) (a : Fin 8) (s : State) : exec (.rowSoft p q d a) s = execRowSoft p q d a s := rfl
theorem exec_rowSum (p : Pred) (q : Fin 16) (d : Fin 8) (a : Fin 8) (s : State) : exec (.rowSum p q d a) s = execRowSum p q d a s := rfl
theorem exec_rowNorm (p : Pred) (q : Fin 16) (d : Fin 8) (a : Fin 8) (s : State) : exec (.rowNorm p q d a) s = execRowNorm p q d a s := rfl
theorem exec_rowRms (p : Pred) (q : Fin 16) (d : Fin 8) (a : Fin 8) (b : Fin 8) (s : State) : exec (.rowRms p q d a b) s = execRowRms p q d a b s := rfl
theorem exec_saSeta (p : Pred) (q : Fin 16) (d : Fin 8) (s : State) : exec (.saSeta p q d) s = execSaSeta p q d s := rfl
theorem exec_saAdd (p : Pred) (q : Fin 16) (sc : Fin 8) (e : Bool) (w : Fin 8) (im : BitVec 3) (v : Fin 8) (s : State) : exec (.saAdd p q sc e w im v) s = execSaAdd p q sc e w im v s := rfl
theorem exec_saMin (p : Pred) (q : Fin 16) (sc : Fin 8) (e : Bool) (w : Fin 8) (im : BitVec 3) (v : Fin 8) (s : State) : exec (.saMin p q sc e w im v) s = execSaMin p q sc e w im v s := rfl
theorem exec_saMax (p : Pred) (q : Fin 16) (sc : Fin 8) (e : Bool) (w : Fin 8) (im : BitVec 3) (v : Fin 8) (s : State) : exec (.saMax p q sc e w im v) s = execSaMax p q sc e w im v s := rfl
theorem exec_saAnd (p : Pred) (q : Fin 16) (sc : Fin 8) (e : Bool) (w : Fin 8) (im : BitVec 3) (v : Fin 8) (s : State) : exec (.saAnd p q sc e w im v) s = execSaAnd p q sc e w im v s := rfl
theorem exec_saOr (p : Pred) (q : Fin 16) (sc : Fin 8) (e : Bool) (w : Fin 8) (im : BitVec 3) (v : Fin 8) (s : State) : exec (.saOr p q sc e w im v) s = execSaOr p q sc e w im v s := rfl
theorem exec_saXor (p : Pred) (q : Fin 16) (sc : Fin 8) (e : Bool) (w : Fin 8) (im : BitVec 3) (v : Fin 8) (s : State) : exec (.saXor p q sc e w im v) s = execSaXor p q sc e w im v s := rfl
theorem exec_saSwap (p : Pred) (q : Fin 16) (sc : Fin 8) (e : Bool) (w : Fin 8) (im : BitVec 3) (v : Fin 8) (s : State) : exec (.saSwap p q sc e w im v) s = execSaSwap p q sc e w im v s := rfl
theorem exec_saCas (p : Pred) (q : Fin 16) (sc : Fin 8) (w : Fin 8) (im : BitVec 3) (v : Fin 8) (s : State) : exec (.saCas p q sc w im v) s = execSaCas p q sc w im v s := rfl
theorem exec_saCnt (p : Pred) (q : Fin 16) (sc : Fin 8) (e : Bool) (w : Fin 8) (im : BitVec 3) (s : State) : exec (.saCnt p q sc e w im) s = execSaCnt p q sc e w im s := rfl
theorem exec_saScope (p : Pred) (sc : Fin 8) (s : State) : exec (.saScope p sc) s = execSaScope p sc s := rfl
theorem exec_saFlush (p : Pred) (s : State) : exec (.saFlush p) s = execSaFlush p s := rfl
theorem exec_xLdshape (p : Pred) (q : Fin 16) (sc : Fin 32) (s : State) : exec (.xLdshape p q sc) s = execXLdshape p q sc s := rfl
theorem exec_xEvict (p : Pred) (q : Fin 16) (sc : Fin 32) (s : State) : exec (.xEvict p q sc) s = execXEvict p q sc s := rfl
theorem exec_xLd1 (p : Pred) (q : Fin 16) (sc : Fin 32) (s : State) : exec (.xLd1 p q sc) s = execXLd1 p q sc s := rfl
theorem exec_xSt1 (p : Pred) (q : Fin 16) (sc : Fin 32) (s : State) : exec (.xSt1 p q sc) s = execXSt1 p q sc s := rfl
theorem exec_xCp1 (p : Pred) (q : Fin 16) (s : State) : exec (.xCp1 p q) s = execXCp1 p q s := rfl
theorem exec_xLd2 (p : Pred) (q : Fin 16) (sc : Fin 32) (s : State) : exec (.xLd2 p q sc) s = execXLd2 p q sc s := rfl
theorem exec_xSt2 (p : Pred) (q : Fin 16) (sc : Fin 32) (s : State) : exec (.xSt2 p q sc) s = execXSt2 p q sc s := rfl
theorem exec_xCp2 (p : Pred) (q : Fin 16) (s : State) : exec (.xCp2 p q) s = execXCp2 p q s := rfl
theorem exec_xLd3 (p : Pred) (q : Fin 16) (sc : Fin 32) (s : State) : exec (.xLd3 p q sc) s = execXLd3 p q sc s := rfl
theorem exec_xSt3 (p : Pred) (q : Fin 16) (sc : Fin 32) (s : State) : exec (.xSt3 p q sc) s = execXSt3 p q sc s := rfl
theorem exec_xCp3 (p : Pred) (q : Fin 16) (s : State) : exec (.xCp3 p q) s = execXCp3 p q s := rfl
theorem exec_xLd4 (p : Pred) (q : Fin 16) (sc : Fin 32) (s : State) : exec (.xLd4 p q sc) s = execXLd4 p q sc s := rfl
theorem exec_xSt4 (p : Pred) (q : Fin 16) (sc : Fin 32) (s : State) : exec (.xSt4 p q sc) s = execXSt4 p q sc s := rfl
theorem exec_xCp4 (p : Pred) (q : Fin 16) (s : State) : exec (.xCp4 p q) s = execXCp4 p q s := rfl
theorem exec_xDact (p : Pred) (q : Fin 16) (s : State) : exec (.xDact p q) s = execXDact p q s := rfl
theorem exec_xDpre (p : Pred) (q : Fin 16) (s : State) : exec (.xDpre p q) s = execXDpre p q s := rfl
theorem exec_xDref (p : Pred) (q : Fin 16) (s : State) : exec (.xDref p q) s = execXDref p q s := rfl
theorem exec_xFld (p : Pred) (q : Fin 16) (sc : Fin 32) (c : Fin 8) (k : Fin 32) (s : State) : exec (.xFld p q sc c k) s = execXFld p q sc c k s := rfl
theorem exec_xFst (p : Pred) (q : Fin 16) (sc : Fin 32) (s : State) : exec (.xFst p q sc) s = execXFst p q sc s := rfl
theorem exec_xTrun (p : Pred) (q : Fin 16) (s : State) : exec (.xTrun p q) s = execXTrun p q s := rfl
theorem exec_xTok (p : Pred) (k : Fin 4) (s : State) : exec (.xTok p k) s = execXTok p k s := rfl
theorem exec_xLpow (p : Pred) (l : Fin 32) (u : Bool) (s : State) : exec (.xLpow p l u) s = execXLpow p l u s := rfl
theorem exec_lpLdtab (p : Pred) (q : Fin 16) (s : State) : exec (.lpLdtab p q) s = execLpLdtab p q s := rfl
theorem exec_lpDone (p : Pred) (s : State) : exec (.lpDone p) s = execLpDone p s := rfl
theorem exec_lpSchedw (p : Pred) (q : Fin 16) (s : State) : exec (.lpSchedw p q) s = execLpSchedw p q s := rfl
theorem exec_lpSchedr (p : Pred) (q : Fin 16) (u : Bool) (r : Fin 16) (sc : Bool) (s : State) : exec (.lpSchedr p q u r sc) s = execLpSchedr p q u r sc s := rfl
theorem exec_lpCov (p : Pred) (q : Fin 16) (u : Bool) (r : Fin 16) (s : State) : exec (.lpCov p q u r) s = execLpCov p q u r s := rfl
theorem exec_lpCovrd (p : Pred) (q : Fin 16) (u : Bool) (r : Fin 16) (s : State) : exec (.lpCovrd p q u r) s = execLpCovrd p q u r s := rfl
theorem exec_lpGen (p : Pred) (u : Bool) (r : Fin 16) (s : State) : exec (.lpGen p u r) s = execLpGen p u r s := rfl
theorem exec_lpStat (p : Pred) (u : Bool) (r : Fin 16) (s : State) : exec (.lpStat p u r) s = execLpStat p u r s := rfl
theorem exec_lpAddp (p : Pred) (q : Fin 16) (s : State) : exec (.lpAddp p q) s = execLpAddp p q s := rfl
theorem exec_lpPend (p : Pred) (u : Bool) (r : Fin 16) (s : State) : exec (.lpPend p u r) s = execLpPend p u r s := rfl
theorem exec_lpPos (p : Pred) (q : Fin 16) (u : Bool) (r : Fin 16) (s : State) : exec (.lpPos p q u r) s = execLpPos p q u r s := rfl
theorem exec_lpDrain (p : Pred) (s : State) : exec (.lpDrain p) s = execLpDrain p s := rfl
theorem exec_lpPermits (p : Pred) (u : Bool) (r : Fin 16) (s : State) : exec (.lpPermits p u r) s = execLpPermits p u r s := rfl
theorem exec_lpRec (p : Pred) (u : Bool) (r : Fin 16) (s : State) : exec (.lpRec p u r) s = execLpRec p u r s := rfl
theorem exec_sArm (p : Pred) (q : Fin 16) (f : Bool) (s : State) : exec (.sArm p q f) s = execSArm p q f s := rfl
theorem exec_sArmc (p : Pred) (q : Fin 16) (f : Bool) (s : State) : exec (.sArmc p q f) s = execSArmc p q f s := rfl
theorem exec_sDisarm (p : Pred) (q : Fin 16) (s : State) : exec (.sDisarm p q) s = execSDisarm p q s := rfl
theorem exec_sSig (p : Pred) (q : Fin 16) (s : State) : exec (.sSig p q) s = execSSig p q s := rfl
theorem exec_sWait (p : Pred) (q : Fin 16) (u : Bool) (r : Fin 16) (s : State) : exec (.sWait p q u r) s = execSWait p q u r s := rfl
theorem exec_sWaitn (p : Pred) (q : Fin 16) (s : State) : exec (.sWaitn p q) s = execSWaitn p q s := rfl
theorem exec_sBstat (p : Pred) (q : Fin 16) (u : Bool) (r : Fin 16) (s : State) : exec (.sBstat p q u r) s = execSBstat p q u r s := rfl
theorem exec_sFnew (p : Pred) (q : Fin 16) (s : State) : exec (.sFnew p q) s = execSFnew p q s := rfl
theorem exec_sFjoin (p : Pred) (q : Fin 16) (s : State) : exec (.sFjoin p q) s = execSFjoin p q s := rfl
theorem exec_sFres (p : Pred) (q : Fin 16) (s : State) : exec (.sFres p q) s = execSFres p q s := rfl
theorem exec_sFpeek (p : Pred) (q : Fin 16) (u : Bool) (r : Fin 16) (s : State) : exec (.sFpeek p q u r) s = execSFpeek p q u r s := rfl
theorem exec_sLaunch (p : Pred) (q : Fin 16) (u : Bool) (r : Fin 16) (s : State) : exec (.sLaunch p q u r) s = execSLaunch p q u r s := rfl
theorem exec_sExit (p : Pred) (q : Fin 16) (k : Fin 8) (s : State) : exec (.sExit p q k) s = execSExit p q k s := rfl
theorem exec_sHalt (p : Pred) (s : State) : exec (.sHalt p) s = execSHalt p s := rfl
theorem exec_sPhase (p : Pred) (q : Fin 16) (n : Bool) (s : State) : exec (.sPhase p q n) s = execSPhase p q n s := rfl
theorem exec_sQopen (p : Pred) (sc : Fin 16) (s : State) : exec (.sQopen p sc) s = execSQopen p sc s := rfl
theorem exec_sQsplit (p : Pred) (q : Fin 16) (s : State) : exec (.sQsplit p q) s = execSQsplit p q s := rfl
theorem exec_sQret (p : Pred) (q : Fin 16) (s : State) : exec (.sQret p q) s = execSQret p q s := rfl
theorem exec_sWaitq (p : Pred) (u : Bool) (r : Fin 16) (sc : Fin 16) (s : State) : exec (.sWaitq p u r sc) s = execSWaitq p u r sc s := rfl
theorem exec_sQstat (p : Pred) (u : Bool) (r : Fin 16) (sc : Fin 16) (s : State) : exec (.sQstat p u r sc) s = execSQstat p u r sc s := rfl
theorem exec_sQclose (p : Pred) (sc : Fin 16) (s : State) : exec (.sQclose p sc) s = execSQclose p sc s := rfl
theorem exec_sNpr (p : Pred) (x : BitVec 32) (s : State) : exec (.sNpr p x) s = execSNpr p x s := rfl
theorem exec_sNprend (p : Pred) (s : State) : exec (.sNprend p) s = execSNprend p s := rfl
theorem exec_sUev (p : Pred) (c : Fin 4) (e : Fin 16384) (s : State) : exec (.sUev p c e) s = execSUev p c e s := rfl
theorem exec_sTime (p : Pred) (r : Fin 16) (s : State) : exec (.sTime p r) s = execSTime p r s := rfl
theorem exec_sYield (p : Pred) (s : State) : exec (.sYield p) s = execSYield p s := rfl
theorem exec_tsEnd (s : State) : exec (.tsEnd) s = execTsEnd s := rfl
theorem exec_tsSeti (d : Fin 8) (im : BitVec 19) (s : State) : exec (.tsSeti d im) s = execTsSeti d im s := rfl
theorem exec_tsAddi (d : Fin 8) (a : Fin 8) (im : BitVec 19) (s : State) : exec (.tsAddi d a im) s = execTsAddi d a im s := rfl
theorem exec_tsAdd (d : Fin 8) (a : Fin 8) (b : Fin 8) (s : State) : exec (.tsAdd d a b) s = execTsAdd d a b s := rfl
theorem exec_tsSetc (c : Fin 4) (a : Fin 8) (s : State) : exec (.tsSetc c a) s = execTsSetc c a s := rfl
theorem exec_tsLoop (c : Fin 4) (o : BitVec 19) (s : State) : exec (.tsLoop c o) s = execTsLoop c o s := rfl
theorem exec_tsJmp (o : BitVec 19) (s : State) : exec (.tsJmp o) s = execTsJmp o s := rfl
theorem exec_tsSetb (e : Fin 8) (b : Fin 8) (x : Fin 524288) (s : State) : exec (.tsSetb e b x) s = execTsSetb e b x s := rfl
theorem exec_tsZexp (a : Fin 8) (b : Fin 8) (s : State) : exec (.tsZexp a b) s = execTsZexp a b s := rfl
theorem exec_tsZcmp (d : Fin 8) (a : Fin 8) (b : Fin 8) (s : State) : exec (.tsZcmp d a b) s = execTsZcmp d a b s := rfl
theorem exec_tsMvlo (a : Fin 8) (b : Fin 8) (n : Fin 524288) (s : State) : exec (.tsMvlo a b n) s = execTsMvlo a b n s := rfl
theorem exec_tsMvhi (a : Fin 8) (b : Fin 8) (n : Fin 524288) (s : State) : exec (.tsMvhi a b n) s = execTsMvhi a b n s := rfl
theorem exec_tsWaitt (k : Fin 4) (s : State) : exec (.tsWaitt k) s = execTsWaitt k s := rfl
theorem exec_tsPost (a : Fin 8) (q : Fin 16) (s : State) : exec (.tsPost a q) s = execTsPost a q s := rfl
theorem exec_tsFence (s : State) : exec (.tsFence) s = execTsFence s := rfl
theorem exec_tsBnz (a : Fin 8) (o : BitVec 19) (s : State) : exec (.tsBnz a o) s = execTsBnz a o s := rfl
theorem exec_unassignedWord (w : BitVec 32) (s : State) : exec (.unassignedWord w) s = execUnassignedWord w s := rfl
theorem exec_powerOn (s : State) : exec (.powerOn) s = execPowerOn s := rfl
theorem exec_bridgeClaim (s : State) : exec (.bridgeClaim) s = execBridgeClaim s := rfl
theorem exec_bridgeClaimTimeout (s : State) : exec (.bridgeClaimTimeout) s = execBridgeClaimTimeout s := rfl
theorem exec_reset (s : State) : exec (.reset) s = execReset s := rfl
theorem exec_enabled (s : State) : exec (.enabled) s = execEnabled s := rfl
theorem exec_nonce (s : State) : exec (.nonce) s = execNonce s := rfl
theorem exec_faultact (s : State) : exec (.faultact) s = execFaultact s := rfl
theorem exec_tlbinv (s : State) : exec (.tlbinv) s = execTlbinv s := rfl
theorem exec_refwinWrite (s : State) : exec (.refwinWrite) s = execRefwinWrite s := rfl
theorem exec_bankbudgetWrite (s : State) : exec (.bankbudgetWrite) s = execBankbudgetWrite s := rfl
theorem exec_bustimingWrite (s : State) : exec (.bustimingWrite) s = execBustimingWrite s := rfl
theorem exec_registerWrite (s : State) : exec (.registerWrite) s = execRegisterWrite s := rfl
theorem exec_hostMemoryRead (s : State) : exec (.hostMemoryRead) s = execHostMemoryRead s := rfl
theorem exec_hostMemoryWrite (s : State) : exec (.hostMemoryWrite) s = execHostMemoryWrite s := rfl
theorem exec_hostEnqueueWrite (s : State) : exec (.hostEnqueueWrite) s = execHostEnqueueWrite s := rfl
theorem exec_launchEnqueue (s : State) : exec (.launchEnqueue) s = execLaunchEnqueue s := rfl
theorem exec_dealerChoice (s : State) : exec (.dealerChoice) s = execDealerChoice s := rfl
theorem exec_gangReservation (s : State) : exec (.gangReservation) s = execGangReservation s := rfl
theorem exec_gangStart (s : State) : exec (.gangStart) s = execGangStart s := rfl
theorem exec_taskBoundary (s : State) : exec (.taskBoundary) s = execTaskBoundary s := rfl
theorem exec_taskStart (s : State) : exec (.taskStart) s = execTaskStart s := rfl
theorem exec_launchCompletion (s : State) : exec (.launchCompletion) s = execLaunchCompletion s := rfl
theorem exec_donenextDeferred (s : State) : exec (.donenextDeferred) s = execDonenextDeferred s := rfl
theorem exec_taskStop (s : State) : exec (.taskStop) s = execTaskStop s := rfl
theorem exec_imageSaveComplete (s : State) : exec (.imageSaveComplete) s = execImageSaveComplete s := rfl
theorem exec_taskResume (s : State) : exec (.taskResume) s = execTaskResume s := rfl
theorem exec_waitingTaskReady (s : State) : exec (.waitingTaskReady) s = execWaitingTaskReady s := rfl
theorem exec_fillerCollectiveWait (s : State) : exec (.fillerCollectiveWait) s = execFillerCollectiveWait s := rfl
theorem exec_fillerReturn (s : State) : exec (.fillerReturn) s = execFillerReturn s := rfl
theorem exec_futureCreate (s : State) : exec (.futureCreate) s = execFutureCreate s := rfl
theorem exec_futureJoin (s : State) : exec (.futureJoin) s = execFutureJoin s := rfl
theorem exec_futureResolve (s : State) : exec (.futureResolve) s = execFutureResolve s := rfl
theorem exec_futurePoison (s : State) : exec (.futurePoison) s = execFuturePoison s := rfl
theorem exec_entrySatisfaction (s : State) : exec (.entrySatisfaction) s = execEntrySatisfaction s := rfl
theorem exec_borrowDebit (s : State) : exec (.borrowDebit) s = execBorrowDebit s := rfl
theorem exec_borrowGrant (s : State) : exec (.borrowGrant) s = execBorrowGrant s := rfl
theorem exec_weightReturn (s : State) : exec (.weightReturn) s = execWeightReturn s := rfl
theorem exec_waitqComplete (s : State) : exec (.waitqComplete) s = execWaitqComplete s := rfl
theorem exec_implicitExit (s : State) : exec (.implicitExit) s = execImplicitExit s := rfl
theorem exec_barrierArm (s : State) : exec (.barrierArm) s = execBarrierArm s := rfl
theorem exec_barrierDisarm (s : State) : exec (.barrierDisarm) s = execBarrierDisarm s := rfl
theorem exec_barrierCount (s : State) : exec (.barrierCount) s = execBarrierCount s := rfl
theorem exec_barrierWait (s : State) : exec (.barrierWait) s = execBarrierWait s := rfl
theorem exec_syncAnswer (s : State) : exec (.syncAnswer) s = execSyncAnswer s := rfl
theorem exec_notifyEventArrival (s : State) : exec (.notifyEventArrival) s = execNotifyEventArrival s := rfl
theorem exec_eventTake (s : State) : exec (.eventTake) s = execEventTake s := rfl
theorem exec_phaseBoundary (s : State) : exec (.phaseBoundary) s = execPhaseBoundary s := rfl
theorem exec_columnPowerDown (s : State) : exec (.columnPowerDown) s = execColumnPowerDown s := rfl
theorem exec_columnPowerUp (s : State) : exec (.columnPowerUp) s = execColumnPowerUp s := rfl
theorem exec_columnReset (s : State) : exec (.columnReset) s = execColumnReset s := rfl
theorem exec_lpDealRecord (s : State) : exec (.lpDealRecord) s = execLpDealRecord s := rfl
theorem exec_coverageRegistration (s : State) : exec (.coverageRegistration) s = execCoverageRegistration s := rfl
theorem exec_registrationAnswer (s : State) : exec (.registrationAnswer) s = execRegistrationAnswer s := rfl
theorem exec_coverageClaim (s : State) : exec (.coverageClaim) s = execCoverageClaim s := rfl
theorem exec_claimAnswer (s : State) : exec (.claimAnswer) s = execClaimAnswer s := rfl
theorem exec_rewriteWrite (s : State) : exec (.rewriteWrite) s = execRewriteWrite s := rfl
theorem exec_pendingNotice (s : State) : exec (.pendingNotice) s = execPendingNotice s := rfl
theorem exec_rewriteCommit (s : State) : exec (.rewriteCommit) s = execRewriteCommit s := rfl
theorem exec_commitNotice (s : State) : exec (.commitNotice) s = execCommitNotice s := rfl
theorem exec_dealingComplete (s : State) : exec (.dealingComplete) s = execDealingComplete s := rfl
theorem exec_completionNotice (s : State) : exec (.completionNotice) s = execCompletionNotice s := rfl
theorem exec_endRecordPush (s : State) : exec (.endRecordPush) s = execEndRecordPush s := rfl
theorem exec_copyCompletion (s : State) : exec (.copyCompletion) s = execCopyCompletion s := rfl
theorem exec_passAccumulation (s : State) : exec (.passAccumulation) s = execPassAccumulation s := rfl
theorem exec_saHomeUpdate (s : State) : exec (.saHomeUpdate) s = execSaHomeUpdate s := rfl
theorem exec_tsProgramTurn (s : State) : exec (.tsProgramTurn) s = execTsProgramTurn s := rfl
theorem exec_tsProgramEnd (s : State) : exec (.tsProgramEnd) s = execTsProgramEnd s := rfl
theorem exec_bankPeriodStart (s : State) : exec (.bankPeriodStart) s = execBankPeriodStart s := rfl
theorem exec_forcedRefresh (s : State) : exec (.forcedRefresh) s = execForcedRefresh s := rfl
theorem exec_forcedRefreshEnd (s : State) : exec (.forcedRefreshEnd) s = execForcedRefreshEnd s := rfl
theorem exec_dramSensorReading (s : State) : exec (.dramSensorReading) s = execDramSensorReading s := rfl
theorem exec_layerWakeComplete (s : State) : exec (.layerWakeComplete) s = execLayerWakeComplete s := rfl
theorem exec_layerPowerOff (s : State) : exec (.layerPowerOff) s = execLayerPowerOff s := rfl
theorem exec_migrationService (s : State) : exec (.migrationService) s = execMigrationService s := rfl
theorem exec_migrationComplete (s : State) : exec (.migrationComplete) s = execMigrationComplete s := rfl
theorem exec_walkFill (s : State) : exec (.walkFill) s = execWalkFill s := rfl
theorem exec_correctedRewrite (s : State) : exec (.correctedRewrite) s = execCorrectedRewrite s := rfl
theorem exec_deferredFault (s : State) : exec (.deferredFault) s = execDeferredFault s := rfl
theorem exec_faultHandlerEnd (s : State) : exec (.faultHandlerEnd) s = execFaultHandlerEnd s := rfl
theorem exec_faultTaken (s : State) : exec (.faultTaken) s = execFaultTaken s := rfl
theorem exec_queueDeadlock (s : State) : exec (.queueDeadlock) s = execQueueDeadlock s := rfl
theorem exec_formatUnderflow (s : State) : exec (.formatUnderflow) s = execFormatUnderflow s := rfl
theorem exec_trapStreamTimeout (s : State) : exec (.trapStreamTimeout) s = execTrapStreamTimeout s := rfl
theorem exec_regionOverrun (s : State) : exec (.regionOverrun) s = execRegionOverrun s := rfl
theorem exec_repairWindow (s : State) : exec (.repairWindow) s = execRepairWindow s := rfl
theorem exec_laneReplacement (s : State) : exec (.laneReplacement) s = execLaneReplacement s := rfl
theorem exec_laneReplacementEnd (s : State) : exec (.laneReplacementEnd) s = execLaneReplacementEnd s := rfl
theorem exec_talonReplacement (s : State) : exec (.talonReplacement) s = execTalonReplacement s := rfl
theorem exec_talonReplacementEnd (s : State) : exec (.talonReplacementEnd) s = execTalonReplacementEnd s := rfl
theorem exec_sliceRetired (s : State) : exec (.sliceRetired) s = execSliceRetired s := rfl
theorem exec_coreWithdrawn (s : State) : exec (.coreWithdrawn) s = execCoreWithdrawn s := rfl
theorem exec_governorSample (s : State) : exec (.governorSample) s = execGovernorSample s := rfl
theorem exec_tokenPeriod (s : State) : exec (.tokenPeriod) s = execTokenPeriod s := rfl
theorem exec_thermalManagerAction (s : State) : exec (.thermalManagerAction) s = execThermalManagerAction s := rfl
theorem exec_thermalTrip (s : State) : exec (.thermalTrip) s = execThermalTrip s := rfl
theorem exec_throttleEnd (s : State) : exec (.throttleEnd) s = execThrottleEnd s := rfl
theorem exec_telemetryRecord (s : State) : exec (.telemetryRecord) s = execTelemetryRecord s := rfl
theorem exec_telemetryHostCopy (s : State) : exec (.telemetryHostCopy) s = execTelemetryHostCopy s := rfl
theorem exec_ptpSyncSend (s : State) : exec (.ptpSyncSend) s = execPtpSyncSend s := rfl
theorem exec_ptpSyncArrival (s : State) : exec (.ptpSyncArrival) s = execPtpSyncArrival s := rfl
theorem exec_linkDelayMeasure (s : State) : exec (.linkDelayMeasure) s = execLinkDelayMeasure s := rfl
theorem exec_todMessage (s : State) : exec (.todMessage) s = execTodMessage s := rfl
theorem exec_ppsEdge (s : State) : exec (.ppsEdge) s = execPpsEdge s := rfl
theorem exec_ptmSteer (s : State) : exec (.ptmSteer) s = execPtmSteer s := rfl
theorem exec_timeSourceLoss (s : State) : exec (.timeSourceLoss) s = execTimeSourceLoss s := rfl
theorem exec_flitReceive (s : State) : exec (.flitReceive) s = execFlitReceive s := rfl
theorem exec_portDown (s : State) : exec (.portDown) s = execPortDown s := rfl
theorem exec_portTrained (s : State) : exec (.portTrained) s = execPortTrained s := rfl
theorem exec_routeRecompute (s : State) : exec (.routeRecompute) s = execRouteRecompute s := rfl
theorem exec_engineWordStart (s : State) : exec (.engineWordStart) s = execEngineWordStart s := rfl
theorem exec_resultLanding (s : State) : exec (.resultLanding) s = execResultLanding s := rfl
theorem exec_accessPoint (s : State) : exec (.accessPoint) s = execAccessPoint s := rfl
theorem exec_microStep (s : State) : exec (.microStep) s = execMicroStep s := rfl
theorem exec_elementWriteLands (s : State) : exec (.elementWriteLands) s = execElementWriteLands s := rfl
theorem exec_dramCommandIssue (s : State) : exec (.dramCommandIssue) s = execDramCommandIssue s := rfl
theorem exec_tsDataPosting (s : State) : exec (.tsDataPosting) s = execTsDataPosting s := rfl
theorem exec_pcieLinkLoss (s : State) : exec (.pcieLinkLoss) s = execPcieLinkLoss s := rfl

end Sys2Proof.Machine
end

