-- ==== Sys2Proof/Laws/Engine.lean ====
section
/-! SUPPORT. What the shared operations of an engine word do (R82 to R85, R148): its issue, in each of the three cases,
its leaving of the queue, and the queue that each word's bits steer it to. -/

namespace Sys2Proof.Machine

open Sys2Proof

/-! ### Roles -/

theorem engineWord_issue (s : State) (p : Pred) (i : Instr) (f : State → State) (h : s.focus.role = .issue) :
    engineWord s p i f = .next (s.issueWord p i) := by
  simp [engineWord, h]

theorem engineWord_perform (s : State) (p : Pred) (i : Instr) (f : State → State) (h : s.focus.role = .perform) :
    engineWord s p i f = .next (f s) := by
  simp [engineWord, h]

/-! ### Issue -/

/-- A word of an image's task placed last in an engine queue, PC past it. -/
def Image.takeWord (m : Image) (q : Fin 13) (c : Fin 3) (i : Instr) (n now : Nat) : Image :=
  (m.modEq q c fun e =>
    { e with words := e.words ++
      [{ tid := m.tid, instr := i, pc := m.ctx[c.val].pc, len := n, trap := m.ctx[c.val].shadow.isSome, born := now
         view := m.startedAt, kept := none, item := none, owed := false }] }).modCtx c fun x =>
    { x with blocked := false, pc := x.pc + BitVec.ofNat 15 (4 * n) }

theorem State.enqueueAs_room (s : State) (q : Fin 13) (i : Instr)
    (h : (s.cur.eqAt q s.focus.ctx).room (instrLen i) = true) :
    s.enqueueAs q i = (s.modCur fun m => m.takeWord q s.focus.ctx i (instrLen i) s.now).takeUnit q i := by
  simp only [State.enqueueAs, h, if_true, State.advance, State.modCx_eq, State.modCur_modCur, State.modCur_focus]
  congr 1
  exact State.modCur_congr _ _ _ (by
    simp only [Image.takeWord, Image.modCtx, Image.modEq, State.cx]
    simp)

theorem State.enqueueAs_full (s : State) (q : Fin 13) (i : Instr)
    (h : (s.cur.eqAt q s.focus.ctx).room (instrLen i) = false) : s.enqueueAs q i = s.block := by
  simp [State.enqueueAs, h]

theorem State.issueWord_false (s : State) (p : Pred) (i : Instr) (h : s.p p = false) :
    s.issueWord p i = s.issued (instrLen i) [] := by
  simp only [State.issueWord, h]
  exact State.issued_nil s (instrLen i)

theorem State.issueWord_room (s : State) (p : Pred) (i : Instr) (h : s.p p = true)
    (hr : (s.cur.eqAt (queueOf i) s.focus.ctx).room (instrLen i) = true) :
    s.issueWord p i =
      (s.modCur fun m => m.takeWord (queueOf i) s.focus.ctx i (instrLen i) s.now).takeUnit (queueOf i) i := by
  simp only [State.issueWord, h, if_true]
  exact State.enqueueAs_room s _ i hr

theorem State.issueWord_full (s : State) (p : Pred) (i : Instr) (h : s.p p = true)
    (hr : (s.cur.eqAt (queueOf i) s.focus.ctx).room (instrLen i) = false) : s.issueWord p i = s.block := by
  simp only [State.issueWord, h, if_true]
  exact State.enqueueAs_full s _ i hr

/-- A word that is no detached item takes no unit of weight (R120). -/
theorem State.takeUnit_none (s : State) (q : Fin 13) (i : Instr) (h : itemWord i = false) : s.takeUnit q i = s := by
  simp [State.takeUnit, h]

/-- Nor does any word of a task outside every scope. -/
theorem State.takeUnit_free (s : State) (q : Fin 13) (i : Instr) (h : ∀ t, s.cur.task = some t → t.scope = none) :
    s.takeUnit q i = s := by
  unfold State.takeUnit
  split
  · rfl
  · rename_i t ht
    have hc : s.cur.task = some t := by
      by_cases hi : itemWord i = true
      · simpa [hi] using ht
      · simp [hi] at ht
    simp [h t hc]

/-! ### Leaving -/

/-- The word in focus has left its queue, and its engine is free from the next cycle on. -/
def Image.leaveNow (m : Image) (q : Fin 13) (c : Fin 3) (n : Nat) : Image :=
  { m with
    eq := m.eq.set (eqIx q c).val
      { words := (m.eqAt q c).words.drop 1, cur := (((m.eqAt q c).words.drop 1).head?).bind fun w => w.kept }
    eng := m.eng.set q.val { m.eng[q.val] with free := m.cyc + n, act := none } }

theorem State.freeEngine_finish (s : State) (n : Nat) :
    (s.freeEngine n).finish = s.modCur fun m => m.leaveNow s.focus.q s.focus.ctx n := by
  simp only [State.freeEngine, State.finish, State.modCur_modCur, State.modCur_focus]
  congr 1
  funext m
  simp [Image.finish, Image.leaveNow, Image.modEq, Image.modEng, Image.eqAt]

/-! ### Queues -/

theorem queueOf_at (c n : Nat) (i : Instr) (q : Fin 13) (hh : headWord i = encodeNat i) (he : encodeNat i = n)
    (h : n / 2 ^ 23 = c)
    (hq : (match c / 64 with
      | 5 => xferQueue (c % 64)
      | 6 => 11
      | 7 => 12
      | e => Fin.ofNat 13 e) = q ∧ c < 512) : queueOf i = q := by
  have h1 : fld 31 29 n = c / 64 := by simp only [fld]; omega
  have h2 : fld 28 23 n = c % 64 := by simp only [fld]; omega
  simp only [queueOf, hh, he, h1, h2]
  exact hq.1

theorem queueOf_vSeta (p : Pred) (q : Fin 16) (d : Fin 16) : queueOf (.vSeta p q d) = 1 :=
  queueOf_at 0x40 (0x20000000 + p.val * 0x80000 + q.val * 0x8000 + d.val * 0x400) _ _ rfl rfl (by omega) (by decide)
theorem queueOf_vAdd (p : Pred) (t : ElemType) (r : Rounding) (d : Fin 16) (a : Fin 16) (s : Bool) (b : Fin 16) : queueOf (.vAdd p t r d a s b) = 1 :=
  queueOf_at 0x41 (0x20800000 + p.val * 0x80000 + t.code.val * 0x8000 + r.code.val / 2 % 2 * 0x4000 + r.code.val % 2 * 0x200 + d.val * 0x400 + a.val * 0x20 + s.toNat * 0x10 + b.val) _ _ rfl rfl (by have := Bool.toNat_lt s; omega) (by decide)
theorem queueOf_vSub (p : Pred) (t : ElemType) (r : Rounding) (d : Fin 16) (a : Fin 16) (s : Bool) (b : Fin 16) : queueOf (.vSub p t r d a s b) = 1 :=
  queueOf_at 0x42 (0x21000000 + p.val * 0x80000 + t.code.val * 0x8000 + r.code.val / 2 % 2 * 0x4000 + r.code.val % 2 * 0x200 + d.val * 0x400 + a.val * 0x20 + s.toNat * 0x10 + b.val) _ _ rfl rfl (by have := Bool.toNat_lt s; omega) (by decide)
theorem queueOf_vMul (p : Pred) (t : ElemType) (r : Rounding) (d : Fin 16) (a : Fin 16) (s : Bool) (b : Fin 16) : queueOf (.vMul p t r d a s b) = 1 :=
  queueOf_at 0x43 (0x21800000 + p.val * 0x80000 + t.code.val * 0x8000 + r.code.val / 2 % 2 * 0x4000 + r.code.val % 2 * 0x200 + d.val * 0x400 + a.val * 0x20 + s.toNat * 0x10 + b.val) _ _ rfl rfl (by have := Bool.toNat_lt s; omega) (by decide)
theorem queueOf_vDiv (p : Pred) (t : ElemType) (r : Rounding) (d : Fin 16) (a : Fin 16) (s : Bool) (b : Fin 16) : queueOf (.vDiv p t r d a s b) = 1 :=
  queueOf_at 0x44 (0x22000000 + p.val * 0x80000 + t.code.val * 0x8000 + r.code.val / 2 % 2 * 0x4000 + r.code.val % 2 * 0x200 + d.val * 0x400 + a.val * 0x20 + s.toNat * 0x10 + b.val) _ _ rfl rfl (by have := Bool.toNat_lt s; omega) (by decide)
theorem queueOf_vFma (p : Pred) (t : ElemType) (r : Rounding) (d : Fin 16) (a : Fin 16) (s : Bool) (b : Fin 16) : queueOf (.vFma p t r d a s b) = 1 :=
  queueOf_at 0x45 (0x22800000 + p.val * 0x80000 + t.code.val * 0x8000 + r.code.val / 2 % 2 * 0x4000 + r.code.val % 2 * 0x200 + d.val * 0x400 + a.val * 0x20 + s.toNat * 0x10 + b.val) _ _ rfl rfl (by have := Bool.toNat_lt s; omega) (by decide)
theorem queueOf_vFms (p : Pred) (t : ElemType) (r : Rounding) (d : Fin 16) (a : Fin 16) (s : Bool) (b : Fin 16) : queueOf (.vFms p t r d a s b) = 1 :=
  queueOf_at 0x46 (0x23000000 + p.val * 0x80000 + t.code.val * 0x8000 + r.code.val / 2 % 2 * 0x4000 + r.code.val % 2 * 0x200 + d.val * 0x400 + a.val * 0x20 + s.toNat * 0x10 + b.val) _ _ rfl rfl (by have := Bool.toNat_lt s; omega) (by decide)
theorem queueOf_vFnma (p : Pred) (t : ElemType) (r : Rounding) (d : Fin 16) (a : Fin 16) (s : Bool) (b : Fin 16) : queueOf (.vFnma p t r d a s b) = 1 :=
  queueOf_at 0x47 (0x23800000 + p.val * 0x80000 + t.code.val * 0x8000 + r.code.val / 2 % 2 * 0x4000 + r.code.val % 2 * 0x200 + d.val * 0x400 + a.val * 0x20 + s.toNat * 0x10 + b.val) _ _ rfl rfl (by have := Bool.toNat_lt s; omega) (by decide)
theorem queueOf_vMin (p : Pred) (t : ElemType) (r : Rounding) (d : Fin 16) (a : Fin 16) (s : Bool) (b : Fin 16) : queueOf (.vMin p t r d a s b) = 1 :=
  queueOf_at 0x48 (0x24000000 + p.val * 0x80000 + t.code.val * 0x8000 + r.code.val / 2 % 2 * 0x4000 + r.code.val % 2 * 0x200 + d.val * 0x400 + a.val * 0x20 + s.toNat * 0x10 + b.val) _ _ rfl rfl (by have := Bool.toNat_lt s; omega) (by decide)
theorem queueOf_vMax (p : Pred) (t : ElemType) (r : Rounding) (d : Fin 16) (a : Fin 16) (s : Bool) (b : Fin 16) : queueOf (.vMax p t r d a s b) = 1 :=
  queueOf_at 0x49 (0x24800000 + p.val * 0x80000 + t.code.val * 0x8000 + r.code.val / 2 % 2 * 0x4000 + r.code.val % 2 * 0x200 + d.val * 0x400 + a.val * 0x20 + s.toNat * 0x10 + b.val) _ _ rfl rfl (by have := Bool.toNat_lt s; omega) (by decide)
theorem queueOf_vAbs (p : Pred) (t : ElemType) (r : Rounding) (d : Fin 16) (a : Fin 16) (s : Bool) : queueOf (.vAbs p t r d a s) = 1 :=
  queueOf_at 0x4a (0x25000000 + p.val * 0x80000 + t.code.val * 0x8000 + r.code.val / 2 % 2 * 0x4000 + r.code.val % 2 * 0x200 + d.val * 0x400 + a.val * 0x20 + s.toNat * 0x10) _ _ rfl rfl (by have := Bool.toNat_lt s; omega) (by decide)
theorem queueOf_vNeg (p : Pred) (t : ElemType) (r : Rounding) (d : Fin 16) (a : Fin 16) (s : Bool) : queueOf (.vNeg p t r d a s) = 1 :=
  queueOf_at 0x4b (0x25800000 + p.val * 0x80000 + t.code.val * 0x8000 + r.code.val / 2 % 2 * 0x4000 + r.code.val % 2 * 0x200 + d.val * 0x400 + a.val * 0x20 + s.toNat * 0x10) _ _ rfl rfl (by have := Bool.toNat_lt s; omega) (by decide)
theorem queueOf_vSqrt (p : Pred) (t : ElemType) (r : Rounding) (d : Fin 16) (a : Fin 16) : queueOf (.vSqrt p t r d a) = 1 :=
  queueOf_at 0x4c (0x26000000 + p.val * 0x80000 + t.code.val * 0x8000 + r.code.val / 2 % 2 * 0x4000 + r.code.val % 2 * 0x200 + d.val * 0x400 + a.val * 0x20) _ _ rfl rfl (by omega) (by decide)
theorem queueOf_vExp2 (p : Pred) (t : ElemType) (r : Rounding) (d : Fin 16) (a : Fin 16) : queueOf (.vExp2 p t r d a) = 1 :=
  queueOf_at 0x4d (0x26800000 + p.val * 0x80000 + t.code.val * 0x8000 + r.code.val / 2 % 2 * 0x4000 + r.code.val % 2 * 0x200 + d.val * 0x400 + a.val * 0x20) _ _ rfl rfl (by omega) (by decide)
theorem queueOf_vLog2 (p : Pred) (t : ElemType) (r : Rounding) (d : Fin 16) (a : Fin 16) : queueOf (.vLog2 p t r d a) = 1 :=
  queueOf_at 0x4e (0x27000000 + p.val * 0x80000 + t.code.val * 0x8000 + r.code.val / 2 % 2 * 0x4000 + r.code.val % 2 * 0x200 + d.val * 0x400 + a.val * 0x20) _ _ rfl rfl (by omega) (by decide)
theorem queueOf_vRecip (p : Pred) (t : ElemType) (r : Rounding) (d : Fin 16) (a : Fin 16) : queueOf (.vRecip p t r d a) = 1 :=
  queueOf_at 0x4f (0x27800000 + p.val * 0x80000 + t.code.val * 0x8000 + r.code.val / 2 % 2 * 0x4000 + r.code.val % 2 * 0x200 + d.val * 0x400 + a.val * 0x20) _ _ rfl rfl (by omega) (by decide)
theorem queueOf_vRsqrt (p : Pred) (t : ElemType) (r : Rounding) (d : Fin 16) (a : Fin 16) : queueOf (.vRsqrt p t r d a) = 1 :=
  queueOf_at 0x50 (0x28000000 + p.val * 0x80000 + t.code.val * 0x8000 + r.code.val / 2 % 2 * 0x4000 + r.code.val % 2 * 0x200 + d.val * 0x400 + a.val * 0x20) _ _ rfl rfl (by omega) (by decide)
theorem queueOf_vTanh (p : Pred) (t : ElemType) (r : Rounding) (d : Fin 16) (a : Fin 16) : queueOf (.vTanh p t r d a) = 1 :=
  queueOf_at 0x51 (0x28800000 + p.val * 0x80000 + t.code.val * 0x8000 + r.code.val / 2 % 2 * 0x4000 + r.code.val % 2 * 0x200 + d.val * 0x400 + a.val * 0x20) _ _ rfl rfl (by omega) (by decide)
theorem queueOf_vAnd (p : Pred) (t : ElemType) (d : Fin 16) (a : Fin 16) (b : Fin 16) : queueOf (.vAnd p t d a b) = 1 :=
  queueOf_at 0x52 (0x29000000 + p.val * 0x80000 + t.code.val * 0x8000 + d.val * 0x400 + a.val * 0x20 + b.val) _ _ rfl rfl (by omega) (by decide)
theorem queueOf_vOr (p : Pred) (t : ElemType) (d : Fin 16) (a : Fin 16) (b : Fin 16) : queueOf (.vOr p t d a b) = 1 :=
  queueOf_at 0x53 (0x29800000 + p.val * 0x80000 + t.code.val * 0x8000 + d.val * 0x400 + a.val * 0x20 + b.val) _ _ rfl rfl (by omega) (by decide)
theorem queueOf_vXor (p : Pred) (t : ElemType) (d : Fin 16) (a : Fin 16) (b : Fin 16) : queueOf (.vXor p t d a b) = 1 :=
  queueOf_at 0x54 (0x2A000000 + p.val * 0x80000 + t.code.val * 0x8000 + d.val * 0x400 + a.val * 0x20 + b.val) _ _ rfl rfl (by omega) (by decide)
theorem queueOf_vShl (p : Pred) (t : ElemType) (d : Fin 16) (a : Fin 16) (b : Fin 16) : queueOf (.vShl p t d a b) = 1 :=
  queueOf_at 0x55 (0x2A800000 + p.val * 0x80000 + t.code.val * 0x8000 + d.val * 0x400 + a.val * 0x20 + b.val) _ _ rfl rfl (by omega) (by decide)
theorem queueOf_vShr (p : Pred) (t : ElemType) (d : Fin 16) (a : Fin 16) (b : Fin 16) : queueOf (.vShr p t d a b) = 1 :=
  queueOf_at 0x56 (0x2B000000 + p.val * 0x80000 + t.code.val * 0x8000 + d.val * 0x400 + a.val * 0x20 + b.val) _ _ rfl rfl (by omega) (by decide)
theorem queueOf_vSra (p : Pred) (t : ElemType) (d : Fin 16) (a : Fin 16) (b : Fin 16) : queueOf (.vSra p t d a b) = 1 :=
  queueOf_at 0x57 (0x2B800000 + p.val * 0x80000 + t.code.val * 0x8000 + d.val * 0x400 + a.val * 0x20 + b.val) _ _ rfl rfl (by omega) (by decide)
theorem queueOf_vMulh (p : Pred) (t : ElemType) (d : Fin 16) (a : Fin 16) (b : Fin 16) : queueOf (.vMulh p t d a b) = 1 :=
  queueOf_at 0x58 (0x2C000000 + p.val * 0x80000 + t.code.val * 0x8000 + d.val * 0x400 + a.val * 0x20 + b.val) _ _ rfl rfl (by omega) (by decide)
theorem queueOf_vCmpeq (p : Pred) (t : ElemType) (d : Fin 16) (a : Fin 16) (b : Fin 16) : queueOf (.vCmpeq p t d a b) = 1 :=
  queueOf_at 0x59 (0x2C800000 + p.val * 0x80000 + t.code.val * 0x8000 + d.val * 0x400 + a.val * 0x20 + b.val) _ _ rfl rfl (by omega) (by decide)
theorem queueOf_vCmpne (p : Pred) (t : ElemType) (d : Fin 16) (a : Fin 16) (b : Fin 16) : queueOf (.vCmpne p t d a b) = 1 :=
  queueOf_at 0x5a (0x2D000000 + p.val * 0x80000 + t.code.val * 0x8000 + d.val * 0x400 + a.val * 0x20 + b.val) _ _ rfl rfl (by omega) (by decide)
theorem queueOf_vCmplt (p : Pred) (t : ElemType) (d : Fin 16) (a : Fin 16) (b : Fin 16) : queueOf (.vCmplt p t d a b) = 1 :=
  queueOf_at 0x5b (0x2D800000 + p.val * 0x80000 + t.code.val * 0x8000 + d.val * 0x400 + a.val * 0x20 + b.val) _ _ rfl rfl (by omega) (by decide)
theorem queueOf_vCmple (p : Pred) (t : ElemType) (d : Fin 16) (a : Fin 16) (b : Fin 16) : queueOf (.vCmple p t d a b) = 1 :=
  queueOf_at 0x5c (0x2E000000 + p.val * 0x80000 + t.code.val * 0x8000 + d.val * 0x400 + a.val * 0x20 + b.val) _ _ rfl rfl (by omega) (by decide)
theorem queueOf_vSel (p : Pred) (t : ElemType) (d : Fin 16) (a : Fin 16) (b : Fin 16) : queueOf (.vSel p t d a b) = 1 :=
  queueOf_at 0x5d (0x2E800000 + p.val * 0x80000 + t.code.val * 0x8000 + d.val * 0x400 + a.val * 0x20 + b.val) _ _ rfl rfl (by omega) (by decide)
theorem queueOf_vCvt (p : Pred) (t : ElemType) (r : Rounding) (d : Fin 16) (a : Fin 16) (s : Bool) (b : Fin 16) : queueOf (.vCvt p t r d a s b) = 1 :=
  queueOf_at 0x5e (0x2F000000 + p.val * 0x80000 + t.code.val * 0x8000 + r.code.val / 2 % 2 * 0x4000 + r.code.val % 2 * 0x200 + d.val * 0x400 + a.val * 0x20 + s.toNat * 0x10 + b.val) _ _ rfl rfl (by have := Bool.toNat_lt s; omega) (by decide)
theorem queueOf_vRsum (p : Pred) (t : ElemType) (r : Rounding) (d : Fin 16) (a : Fin 16) (s : Bool) : queueOf (.vRsum p t r d a s) = 1 :=
  queueOf_at 0x5f (0x2F800000 + p.val * 0x80000 + t.code.val * 0x8000 + r.code.val / 2 % 2 * 0x4000 + r.code.val % 2 * 0x200 + d.val * 0x400 + a.val * 0x20 + s.toNat * 0x10) _ _ rfl rfl (by have := Bool.toNat_lt s; omega) (by decide)
theorem queueOf_vRmax (p : Pred) (t : ElemType) (d : Fin 16) (a : Fin 16) : queueOf (.vRmax p t d a) = 1 :=
  queueOf_at 0x60 (0x30000000 + p.val * 0x80000 + t.code.val * 0x8000 + d.val * 0x400 + a.val * 0x20) _ _ rfl rfl (by omega) (by decide)
theorem queueOf_vRmin (p : Pred) (t : ElemType) (d : Fin 16) (a : Fin 16) : queueOf (.vRmin p t d a) = 1 :=
  queueOf_at 0x61 (0x30800000 + p.val * 0x80000 + t.code.val * 0x8000 + d.val * 0x400 + a.val * 0x20) _ _ rfl rfl (by omega) (by decide)
theorem queueOf_vCopy (p : Pred) (t : ElemType) (d : Fin 16) (a : Fin 16) : queueOf (.vCopy p t d a) = 1 :=
  queueOf_at 0x62 (0x31000000 + p.val * 0x80000 + t.code.val * 0x8000 + d.val * 0x400 + a.val * 0x20) _ _ rfl rfl (by omega) (by decide)
theorem queueOf_vFill (p : Pred) (q : Fin 16) (d : Fin 16) : queueOf (.vFill p q d) = 1 :=
  queueOf_at 0x63 (0x31800000 + p.val * 0x80000 + q.val * 0x8000 + d.val * 0x400) _ _ rfl rfl (by omega) (by decide)
theorem queueOf_vIota (p : Pred) (q : Fin 16) (r : Rounding) (d : Fin 16) (s : Bool) : queueOf (.vIota p q r d s) = 1 :=
  queueOf_at 0x64 (0x32000000 + p.val * 0x80000 + q.val * 0x8000 + r.code.val / 2 % 2 * 0x4000 + r.code.val % 2 * 0x200 + d.val * 0x400 + s.toNat * 0x10) _ _ rfl rfl (by have := Bool.toNat_lt s; omega) (by decide)
theorem queueOf_vClamp (p : Pred) (q : Fin 16) (d : Fin 16) (a : Fin 16) : queueOf (.vClamp p q d a) = 1 :=
  queueOf_at 0x65 (0x32800000 + p.val * 0x80000 + q.val * 0x8000 + d.val * 0x400 + a.val * 0x20) _ _ rfl rfl (by omega) (by decide)
theorem queueOf_vAddq (p : Pred) (q : Fin 16) (r : Rounding) (d : Fin 16) (a : Fin 16) (s : Bool) : queueOf (.vAddq p q r d a s) = 1 :=
  queueOf_at 0x66 (0x33000000 + p.val * 0x80000 + q.val * 0x8000 + r.code.val / 2 % 2 * 0x4000 + r.code.val % 2 * 0x200 + d.val * 0x400 + a.val * 0x20 + s.toNat * 0x10) _ _ rfl rfl (by have := Bool.toNat_lt s; omega) (by decide)
theorem queueOf_vMulq (p : Pred) (q : Fin 16) (r : Rounding) (d : Fin 16) (a : Fin 16) (s : Bool) : queueOf (.vMulq p q r d a s) = 1 :=
  queueOf_at 0x67 (0x33800000 + p.val * 0x80000 + q.val * 0x8000 + r.code.val / 2 % 2 * 0x4000 + r.code.val % 2 * 0x200 + d.val * 0x400 + a.val * 0x20 + s.toNat * 0x10) _ _ rfl rfl (by have := Bool.toNat_lt s; omega) (by decide)
theorem queueOf_vFmaq (p : Pred) (q : Fin 16) (r : Rounding) (d : Fin 16) (a : Fin 16) (s : Bool) : queueOf (.vFmaq p q r d a s) = 1 :=
  queueOf_at 0x68 (0x34000000 + p.val * 0x80000 + q.val * 0x8000 + r.code.val / 2 % 2 * 0x4000 + r.code.val % 2 * 0x200 + d.val * 0x400 + a.val * 0x20 + s.toNat * 0x10) _ _ rfl rfl (by have := Bool.toNat_lt s; omega) (by decide)
theorem queueOf_vGather (p : Pred) (t : ElemType) (d : Fin 16) (a : Fin 16) (b : Fin 16) : queueOf (.vGather p t d a b) = 1 :=
  queueOf_at 0x69 (0x34800000 + p.val * 0x80000 + t.code.val * 0x8000 + d.val * 0x400 + a.val * 0x20 + b.val) _ _ rfl rfl (by omega) (by decide)
theorem queueOf_vScatter (p : Pred) (t : ElemType) (d : Fin 16) (a : Fin 16) (b : Fin 16) : queueOf (.vScatter p t d a b) = 1 :=
  queueOf_at 0x6a (0x35000000 + p.val * 0x80000 + t.code.val * 0x8000 + d.val * 0x400 + a.val * 0x20 + b.val) _ _ rfl rfl (by omega) (by decide)
theorem queueOf_vCnt (p : Pred) (t : ElemType) (d : Fin 16) (a : Fin 16) : queueOf (.vCnt p t d a) = 1 :=
  queueOf_at 0x6b (0x35800000 + p.val * 0x80000 + t.code.val * 0x8000 + d.val * 0x400 + a.val * 0x20) _ _ rfl rfl (by omega) (by decide)
theorem queueOf_mSett (p : Pred) (q : Fin 16) (d : Fin 8) : queueOf (.mSett p q d) = 2 :=
  queueOf_at 0x80 (0x40000000 + p.val * 0x80000 + q.val * 0x8000 + d.val * 0x400) _ _ rfl rfl (by omega) (by decide)
theorem queueOf_mMma (p : Pred) (d : Fin 8) (a : Fin 8) (b : Fin 8) : queueOf (.mMma p d a b) = 2 :=
  queueOf_at 0x81 (0x40800000 + p.val * 0x80000 + d.val * 0x400 + a.val * 0x20 + b.val) _ _ rfl rfl (by omega) (by decide)
theorem queueOf_mMmat (p : Pred) (d : Fin 8) (a : Fin 8) (b : Fin 8) : queueOf (.mMmat p d a b) = 2 :=
  queueOf_at 0x82 (0x41000000 + p.val * 0x80000 + d.val * 0x400 + a.val * 0x20 + b.val) _ _ rfl rfl (by omega) (by decide)
theorem queueOf_mClr (p : Pred) (t : ElemType) (d : Fin 8) : queueOf (.mClr p t d) = 2 :=
  queueOf_at 0x83 (0x41800000 + p.val * 0x80000 + t.code.val * 0x8000 + d.val * 0x400) _ _ rfl rfl (by omega) (by decide)
theorem queueOf_mCvt (p : Pred) (t : ElemType) (d : Fin 8) (a : Fin 8) (s : Bool) : queueOf (.mCvt p t d a s) = 2 :=
  queueOf_at 0x84 (0x42000000 + p.val * 0x80000 + t.code.val * 0x8000 + d.val * 0x400 + a.val * 0x20 + s.toNat * 0x10) _ _ rfl rfl (by have := Bool.toNat_lt s; omega) (by decide)
theorem queueOf_mBias (p : Pred) (d : Fin 8) (a : Fin 8) : queueOf (.mBias p d a) = 2 :=
  queueOf_at 0x85 (0x42800000 + p.val * 0x80000 + d.val * 0x400 + a.val * 0x20) _ _ rfl rfl (by omega) (by decide)
theorem queueOf_mTr (p : Pred) (t : ElemType) (d : Fin 8) (a : Fin 8) : queueOf (.mTr p t d a) = 2 :=
  queueOf_at 0x86 (0x43000000 + p.val * 0x80000 + t.code.val * 0x8000 + d.val * 0x400 + a.val * 0x20) _ _ rfl rfl (by omega) (by decide)
theorem queueOf_mScl (p : Pred) (q : Fin 16) (d : Fin 8) : queueOf (.mScl p q d) = 2 :=
  queueOf_at 0x87 (0x43800000 + p.val * 0x80000 + q.val * 0x8000 + d.val * 0x400) _ _ rfl rfl (by omega) (by decide)
theorem queueOf_mCopy (p : Pred) (t : ElemType) (d : Fin 8) (a : Fin 8) : queueOf (.mCopy p t d a) = 2 :=
  queueOf_at 0x88 (0x44000000 + p.val * 0x80000 + t.code.val * 0x8000 + d.val * 0x400 + a.val * 0x20) _ _ rfl rfl (by omega) (by decide)
theorem queueOf_mDrop (p : Pred) : queueOf (.mDrop p) = 2 :=
  queueOf_at 0x89 (0x44800000 + p.val * 0x80000) _ _ rfl rfl (by omega) (by decide)
theorem queueOf_mAdd (p : Pred) (d : Fin 8) (a : Fin 8) : queueOf (.mAdd p d a) = 2 :=
  queueOf_at 0x8a (0x45000000 + p.val * 0x80000 + d.val * 0x400 + a.val * 0x20) _ _ rfl rfl (by omega) (by decide)
theorem queueOf_mRelu (p : Pred) (d : Fin 8) : queueOf (.mRelu p d) = 2 :=
  queueOf_at 0x8b (0x45800000 + p.val * 0x80000 + d.val * 0x400) _ _ rfl rfl (by omega) (by decide)
theorem queueOf_rowSeta (p : Pred) (q : Fin 16) (d : Fin 8) : queueOf (.rowSeta p q d) = 3 :=
  queueOf_at 0xc0 (0x60000000 + p.val * 0x80000 + q.val * 0x8000 + d.val * 0x400) _ _ rfl rfl (by omega) (by decide)
theorem queueOf_rowMax (p : Pred) (q : Fin 16) (d : Fin 8) (a : Fin 8) : queueOf (.rowMax p q d a) = 3 :=
  queueOf_at 0xc1 (0x60800000 + p.val * 0x80000 + q.val * 0x8000 + d.val * 0x400 + a.val * 0x20) _ _ rfl rfl (by omega) (by decide)
theorem queueOf_rowExpsum (p : Pred) (q : Fin 16) (d : Fin 8) (a : Fin 8) (b : Fin 8) : queueOf (.rowExpsum p q d a b) = 3 :=
  queueOf_at 0xc2 (0x61000000 + p.val * 0x80000 + q.val * 0x8000 + d.val * 0x400 + a.val * 0x20 + b.val) _ _ rfl rfl (by omega) (by decide)
theorem queueOf_rowScale (p : Pred) (q : Fin 16) (d : Fin 8) (a : Fin 8) (b : Fin 8) : queueOf (.rowScale p q d a b) = 3 :=
  queueOf_at 0xc3 (0x61800000 + p.val * 0x80000 + q.val * 0x8000 + d.val * 0x400 + a.val * 0x20 + b.val) _ _ rfl rfl (by omega) (by decide)
theorem queueOf_rowSoft (p : Pred) (q : Fin 16) (d : Fin 8) (a : Fin 8) : queueOf (.rowSoft p q d a) = 3 :=
  queueOf_at 0xc4 (0x62000000 + p.val * 0x80000 + q.val * 0x8000 + d.val * 0x400 + a.val * 0x20) _ _ rfl rfl (by omega) (by decide)
theorem queueOf_rowSum (p : Pred) (q : Fin 16) (d : Fin 8) (a : Fin 8) : queueOf (.rowSum p q d a) = 3 :=
  queueOf_at 0xc5 (0x62800000 + p.val * 0x80000 + q.val * 0x8000 + d.val * 0x400 + a.val * 0x20) _ _ rfl rfl (by omega) (by decide)
theorem queueOf_rowNorm (p : Pred) (q : Fin 16) (d : Fin 8) (a : Fin 8) : queueOf (.rowNorm p q d a) = 3 :=
  queueOf_at 0xc6 (0x63000000 + p.val * 0x80000 + q.val * 0x8000 + d.val * 0x400 + a.val * 0x20) _ _ rfl rfl (by omega) (by decide)
theorem queueOf_rowRms (p : Pred) (q : Fin 16) (d : Fin 8) (a : Fin 8) (b : Fin 8) : queueOf (.rowRms p q d a b) = 3 :=
  queueOf_at 0xc7 (0x63800000 + p.val * 0x80000 + q.val * 0x8000 + d.val * 0x400 + a.val * 0x20 + b.val) _ _ rfl rfl (by omega) (by decide)
theorem queueOf_saSeta (p : Pred) (q : Fin 16) (d : Fin 8) : queueOf (.saSeta p q d) = 4 :=
  queueOf_at 0x100 (0x80000000 + p.val * 0x80000 + q.val * 0x8000 + d.val * 0x400) _ _ rfl rfl (by omega) (by decide)
theorem queueOf_saAdd (p : Pred) (q : Fin 16) (s : Fin 8) (e : Bool) (w : Fin 8) (i : BitVec 3) (v : Fin 8) : queueOf (.saAdd p q s e w i v) = 4 :=
  queueOf_at 0x101 (0x80800000 + p.val * 0x80000 + q.val * 0x8000 + s.val / 4 % 2 * 0x4000 + s.val / 2 % 2 * 0x200 + s.val % 2 * 0x10 + e.toNat * 0x2000 + w.val * 0x400 + i.toNat * 0x20 + v.val) _ _ rfl rfl (by have := Bool.toNat_lt e; omega) (by decide)
theorem queueOf_saMin (p : Pred) (q : Fin 16) (s : Fin 8) (e : Bool) (w : Fin 8) (i : BitVec 3) (v : Fin 8) : queueOf (.saMin p q s e w i v) = 4 :=
  queueOf_at 0x102 (0x81000000 + p.val * 0x80000 + q.val * 0x8000 + s.val / 4 % 2 * 0x4000 + s.val / 2 % 2 * 0x200 + s.val % 2 * 0x10 + e.toNat * 0x2000 + w.val * 0x400 + i.toNat * 0x20 + v.val) _ _ rfl rfl (by have := Bool.toNat_lt e; omega) (by decide)
theorem queueOf_saMax (p : Pred) (q : Fin 16) (s : Fin 8) (e : Bool) (w : Fin 8) (i : BitVec 3) (v : Fin 8) : queueOf (.saMax p q s e w i v) = 4 :=
  queueOf_at 0x103 (0x81800000 + p.val * 0x80000 + q.val * 0x8000 + s.val / 4 % 2 * 0x4000 + s.val / 2 % 2 * 0x200 + s.val % 2 * 0x10 + e.toNat * 0x2000 + w.val * 0x400 + i.toNat * 0x20 + v.val) _ _ rfl rfl (by have := Bool.toNat_lt e; omega) (by decide)
theorem queueOf_saAnd (p : Pred) (q : Fin 16) (s : Fin 8) (e : Bool) (w : Fin 8) (i : BitVec 3) (v : Fin 8) : queueOf (.saAnd p q s e w i v) = 4 :=
  queueOf_at 0x104 (0x82000000 + p.val * 0x80000 + q.val * 0x8000 + s.val / 4 % 2 * 0x4000 + s.val / 2 % 2 * 0x200 + s.val % 2 * 0x10 + e.toNat * 0x2000 + w.val * 0x400 + i.toNat * 0x20 + v.val) _ _ rfl rfl (by have := Bool.toNat_lt e; omega) (by decide)
theorem queueOf_saOr (p : Pred) (q : Fin 16) (s : Fin 8) (e : Bool) (w : Fin 8) (i : BitVec 3) (v : Fin 8) : queueOf (.saOr p q s e w i v) = 4 :=
  queueOf_at 0x105 (0x82800000 + p.val * 0x80000 + q.val * 0x8000 + s.val / 4 % 2 * 0x4000 + s.val / 2 % 2 * 0x200 + s.val % 2 * 0x10 + e.toNat * 0x2000 + w.val * 0x400 + i.toNat * 0x20 + v.val) _ _ rfl rfl (by have := Bool.toNat_lt e; omega) (by decide)
theorem queueOf_saXor (p : Pred) (q : Fin 16) (s : Fin 8) (e : Bool) (w : Fin 8) (i : BitVec 3) (v : Fin 8) : queueOf (.saXor p q s e w i v) = 4 :=
  queueOf_at 0x106 (0x83000000 + p.val * 0x80000 + q.val * 0x8000 + s.val / 4 % 2 * 0x4000 + s.val / 2 % 2 * 0x200 + s.val % 2 * 0x10 + e.toNat * 0x2000 + w.val * 0x400 + i.toNat * 0x20 + v.val) _ _ rfl rfl (by have := Bool.toNat_lt e; omega) (by decide)
theorem queueOf_saSwap (p : Pred) (q : Fin 16) (s : Fin 8) (e : Bool) (w : Fin 8) (i : BitVec 3) (v : Fin 8) : queueOf (.saSwap p q s e w i v) = 4 :=
  queueOf_at 0x107 (0x83800000 + p.val * 0x80000 + q.val * 0x8000 + s.val / 4 % 2 * 0x4000 + s.val / 2 % 2 * 0x200 + s.val % 2 * 0x10 + e.toNat * 0x2000 + w.val * 0x400 + i.toNat * 0x20 + v.val) _ _ rfl rfl (by have := Bool.toNat_lt e; omega) (by decide)
theorem queueOf_saCas (p : Pred) (q : Fin 16) (s : Fin 8) (w : Fin 8) (i : BitVec 3) (v : Fin 8) : queueOf (.saCas p q s w i v) = 4 :=
  queueOf_at 0x108 (0x84002000 + p.val * 0x80000 + q.val * 0x8000 + s.val / 4 % 2 * 0x4000 + s.val / 2 % 2 * 0x200 + s.val % 2 * 0x10 + w.val * 0x400 + i.toNat * 0x20 + v.val) _ _ rfl rfl (by omega) (by decide)
theorem queueOf_saCnt (p : Pred) (q : Fin 16) (s : Fin 8) (e : Bool) (w : Fin 8) (i : BitVec 3) : queueOf (.saCnt p q s e w i) = 4 :=
  queueOf_at 0x109 (0x84800000 + p.val * 0x80000 + q.val * 0x8000 + s.val / 4 % 2 * 0x4000 + s.val / 2 % 2 * 0x200 + s.val % 2 * 0x10 + e.toNat * 0x2000 + w.val * 0x400 + i.toNat * 0x20) _ _ rfl rfl (by have := Bool.toNat_lt e; omega) (by decide)
theorem queueOf_saScope (p : Pred) (s : Fin 8) : queueOf (.saScope p s) = 4 :=
  queueOf_at 0x10a (0x85000000 + p.val * 0x80000 + s.val / 4 % 2 * 0x4000 + s.val / 2 % 2 * 0x200 + s.val % 2 * 0x10) _ _ rfl rfl (by omega) (by decide)
theorem queueOf_saFlush (p : Pred) : queueOf (.saFlush p) = 4 :=
  queueOf_at 0x10b (0x85800000 + p.val * 0x80000) _ _ rfl rfl (by omega) (by decide)
theorem queueOf_xLdshape (p : Pred) (q : Fin 16) (s : Fin 32) : queueOf (.xLdshape p q s) = 5 :=
  queueOf_at 0x140 (0xA0000000 + p.val * 0x80000 + q.val * 0x8000 + s.val * 0x400) _ _ rfl rfl (by omega) (by decide)
theorem queueOf_xEvict (p : Pred) (q : Fin 16) (s : Fin 32) : queueOf (.xEvict p q s) = 5 :=
  queueOf_at 0x141 (0xA0800000 + p.val * 0x80000 + q.val * 0x8000 + s.val * 0x400) _ _ rfl rfl (by omega) (by decide)
theorem queueOf_xLd1 (p : Pred) (q : Fin 16) (s : Fin 32) : queueOf (.xLd1 p q s) = 5 :=
  queueOf_at 0x142 (0xA1000000 + p.val * 0x80000 + q.val * 0x8000 + s.val * 0x400) _ _ rfl rfl (by omega) (by decide)
theorem queueOf_xSt1 (p : Pred) (q : Fin 16) (s : Fin 32) : queueOf (.xSt1 p q s) = 5 :=
  queueOf_at 0x143 (0xA1800000 + p.val * 0x80000 + q.val * 0x8000 + s.val * 0x400) _ _ rfl rfl (by omega) (by decide)
theorem queueOf_xCp1 (p : Pred) (q : Fin 16) : queueOf (.xCp1 p q) = 5 :=
  queueOf_at 0x144 (0xA2000000 + p.val * 0x80000 + q.val * 0x8000) _ _ rfl rfl (by omega) (by decide)
theorem queueOf_xLd2 (p : Pred) (q : Fin 16) (s : Fin 32) : queueOf (.xLd2 p q s) = 6 :=
  queueOf_at 0x145 (0xA2800000 + p.val * 0x80000 + q.val * 0x8000 + s.val * 0x400) _ _ rfl rfl (by omega) (by decide)
theorem queueOf_xSt2 (p : Pred) (q : Fin 16) (s : Fin 32) : queueOf (.xSt2 p q s) = 6 :=
  queueOf_at 0x146 (0xA3000000 + p.val * 0x80000 + q.val * 0x8000 + s.val * 0x400) _ _ rfl rfl (by omega) (by decide)
theorem queueOf_xCp2 (p : Pred) (q : Fin 16) : queueOf (.xCp2 p q) = 6 :=
  queueOf_at 0x147 (0xA3800000 + p.val * 0x80000 + q.val * 0x8000) _ _ rfl rfl (by omega) (by decide)
theorem queueOf_xLd3 (p : Pred) (q : Fin 16) (s : Fin 32) : queueOf (.xLd3 p q s) = 7 :=
  queueOf_at 0x148 (0xA4000000 + p.val * 0x80000 + q.val * 0x8000 + s.val * 0x400) _ _ rfl rfl (by omega) (by decide)
theorem queueOf_xSt3 (p : Pred) (q : Fin 16) (s : Fin 32) : queueOf (.xSt3 p q s) = 7 :=
  queueOf_at 0x149 (0xA4800000 + p.val * 0x80000 + q.val * 0x8000 + s.val * 0x400) _ _ rfl rfl (by omega) (by decide)
theorem queueOf_xCp3 (p : Pred) (q : Fin 16) : queueOf (.xCp3 p q) = 7 :=
  queueOf_at 0x14a (0xA5000000 + p.val * 0x80000 + q.val * 0x8000) _ _ rfl rfl (by omega) (by decide)
theorem queueOf_xLd4 (p : Pred) (q : Fin 16) (s : Fin 32) : queueOf (.xLd4 p q s) = 8 :=
  queueOf_at 0x14b (0xA5800000 + p.val * 0x80000 + q.val * 0x8000 + s.val * 0x400) _ _ rfl rfl (by omega) (by decide)
theorem queueOf_xSt4 (p : Pred) (q : Fin 16) (s : Fin 32) : queueOf (.xSt4 p q s) = 8 :=
  queueOf_at 0x14c (0xA6000000 + p.val * 0x80000 + q.val * 0x8000 + s.val * 0x400) _ _ rfl rfl (by omega) (by decide)
theorem queueOf_xCp4 (p : Pred) (q : Fin 16) : queueOf (.xCp4 p q) = 8 :=
  queueOf_at 0x14d (0xA6800000 + p.val * 0x80000 + q.val * 0x8000) _ _ rfl rfl (by omega) (by decide)
theorem queueOf_xDact (p : Pred) (q : Fin 16) : queueOf (.xDact p q) = 8 :=
  queueOf_at 0x14e (0xA7000000 + p.val * 0x80000 + q.val * 0x8000) _ _ rfl rfl (by omega) (by decide)
theorem queueOf_xDpre (p : Pred) (q : Fin 16) : queueOf (.xDpre p q) = 8 :=
  queueOf_at 0x14f (0xA7800000 + p.val * 0x80000 + q.val * 0x8000) _ _ rfl rfl (by omega) (by decide)
theorem queueOf_xDref (p : Pred) (q : Fin 16) : queueOf (.xDref p q) = 8 :=
  queueOf_at 0x150 (0xA8000000 + p.val * 0x80000 + q.val * 0x8000) _ _ rfl rfl (by omega) (by decide)
theorem queueOf_xFld (p : Pred) (q : Fin 16) (s : Fin 32) (c : Fin 8) (k : Fin 32) : queueOf (.xFld p q s c k) = 9 :=
  queueOf_at 0x151 (0xA8800000 + p.val * 0x80000 + q.val * 0x8000 + s.val * 0x400 + c.val * 0x20 + k.val) _ _ rfl rfl (by omega) (by decide)
theorem queueOf_xFst (p : Pred) (q : Fin 16) (s : Fin 32) : queueOf (.xFst p q s) = 9 :=
  queueOf_at 0x152 (0xA9000000 + p.val * 0x80000 + q.val * 0x8000 + s.val * 0x400) _ _ rfl rfl (by omega) (by decide)
theorem queueOf_xTrun (p : Pred) (q : Fin 16) : queueOf (.xTrun p q) = 10 :=
  queueOf_at 0x153 (0xA9800000 + p.val * 0x80000 + q.val * 0x8000) _ _ rfl rfl (by omega) (by decide)
theorem queueOf_xTok (p : Pred) (k : Fin 4) : queueOf (.xTok p k) = 10 :=
  queueOf_at 0x154 (0xAA000000 + p.val * 0x80000 + k.val * 0x400) _ _ rfl rfl (by omega) (by decide)
theorem queueOf_xLpow (p : Pred) (l : Fin 32) (u : Bool) : queueOf (.xLpow p l u) = 10 :=
  queueOf_at 0x155 (0xAA800000 + p.val * 0x80000 + l.val * 0x400 + u.toNat * 0x20) _ _ rfl rfl (by have := Bool.toNat_lt u; omega) (by decide)
theorem queueOf_lpLdtab (p : Pred) (q : Fin 16) : queueOf (.lpLdtab p q) = 11 :=
  queueOf_at 0x180 (0xC0000000 + p.val * 0x80000 + q.val * 0x8000) _ _ rfl rfl (by omega) (by decide)
theorem queueOf_lpDone (p : Pred) : queueOf (.lpDone p) = 11 :=
  queueOf_at 0x181 (0xC0800000 + p.val * 0x80000) _ _ rfl rfl (by omega) (by decide)
theorem queueOf_lpSchedw (p : Pred) (q : Fin 16) : queueOf (.lpSchedw p q) = 11 :=
  queueOf_at 0x182 (0xC1000000 + p.val * 0x80000 + q.val * 0x8000) _ _ rfl rfl (by omega) (by decide)
theorem queueOf_lpSchedr (p : Pred) (q : Fin 16) (u : Bool) (r : Fin 16) (s : Bool) : queueOf (.lpSchedr p q u r s) = 11 :=
  queueOf_at 0x183 (0xC1800000 + p.val * 0x80000 + q.val * 0x8000 + u.toNat * 0x4000 + r.val * 0x400 + s.toNat * 0x20) _ _ rfl rfl (by have := Bool.toNat_lt u; have := Bool.toNat_lt s; omega) (by decide)
theorem queueOf_lpCov (p : Pred) (q : Fin 16) (u : Bool) (r : Fin 16) : queueOf (.lpCov p q u r) = 11 :=
  queueOf_at 0x184 (0xC2000000 + p.val * 0x80000 + q.val * 0x8000 + u.toNat * 0x4000 + r.val * 0x400) _ _ rfl rfl (by have := Bool.toNat_lt u; omega) (by decide)
theorem queueOf_lpCovrd (p : Pred) (q : Fin 16) (u : Bool) (r : Fin 16) : queueOf (.lpCovrd p q u r) = 11 :=
  queueOf_at 0x185 (0xC2800000 + p.val * 0x80000 + q.val * 0x8000 + u.toNat * 0x4000 + r.val * 0x400) _ _ rfl rfl (by have := Bool.toNat_lt u; omega) (by decide)
theorem queueOf_lpGen (p : Pred) (u : Bool) (r : Fin 16) : queueOf (.lpGen p u r) = 11 :=
  queueOf_at 0x186 (0xC3000000 + p.val * 0x80000 + u.toNat * 0x4000 + r.val * 0x400) _ _ rfl rfl (by have := Bool.toNat_lt u; omega) (by decide)
theorem queueOf_lpStat (p : Pred) (u : Bool) (r : Fin 16) : queueOf (.lpStat p u r) = 11 :=
  queueOf_at 0x187 (0xC3800000 + p.val * 0x80000 + u.toNat * 0x4000 + r.val * 0x400) _ _ rfl rfl (by have := Bool.toNat_lt u; omega) (by decide)
theorem queueOf_lpAddp (p : Pred) (q : Fin 16) : queueOf (.lpAddp p q) = 11 :=
  queueOf_at 0x188 (0xC4000000 + p.val * 0x80000 + q.val * 0x8000) _ _ rfl rfl (by omega) (by decide)
theorem queueOf_lpPend (p : Pred) (u : Bool) (r : Fin 16) : queueOf (.lpPend p u r) = 11 :=
  queueOf_at 0x189 (0xC4800000 + p.val * 0x80000 + u.toNat * 0x4000 + r.val * 0x400) _ _ rfl rfl (by have := Bool.toNat_lt u; omega) (by decide)
theorem queueOf_lpPos (p : Pred) (q : Fin 16) (u : Bool) (r : Fin 16) : queueOf (.lpPos p q u r) = 11 :=
  queueOf_at 0x18a (0xC5000000 + p.val * 0x80000 + q.val * 0x8000 + u.toNat * 0x4000 + r.val * 0x400) _ _ rfl rfl (by have := Bool.toNat_lt u; omega) (by decide)
theorem queueOf_lpDrain (p : Pred) : queueOf (.lpDrain p) = 11 :=
  queueOf_at 0x18b (0xC5800000 + p.val * 0x80000) _ _ rfl rfl (by omega) (by decide)
theorem queueOf_lpPermits (p : Pred) (u : Bool) (r : Fin 16) : queueOf (.lpPermits p u r) = 11 :=
  queueOf_at 0x18c (0xC6000000 + p.val * 0x80000 + u.toNat * 0x4000 + r.val * 0x400) _ _ rfl rfl (by have := Bool.toNat_lt u; omega) (by decide)
theorem queueOf_lpRec (p : Pred) (u : Bool) (r : Fin 16) : queueOf (.lpRec p u r) = 11 :=
  queueOf_at 0x18d (0xC6800000 + p.val * 0x80000 + u.toNat * 0x4000 + r.val * 0x400) _ _ rfl rfl (by have := Bool.toNat_lt u; omega) (by decide)
theorem queueOf_sArm (p : Pred) (q : Fin 16) (f : Bool) : queueOf (.sArm p q f) = 12 :=
  queueOf_at 0x1c0 (0xE0000000 + p.val * 0x80000 + q.val * 0x8000 + f.toNat * 0x20) _ _ rfl rfl (by have := Bool.toNat_lt f; omega) (by decide)
theorem queueOf_sArmc (p : Pred) (q : Fin 16) (f : Bool) : queueOf (.sArmc p q f) = 12 :=
  queueOf_at 0x1c1 (0xE0800000 + p.val * 0x80000 + q.val * 0x8000 + f.toNat * 0x20) _ _ rfl rfl (by have := Bool.toNat_lt f; omega) (by decide)
theorem queueOf_sDisarm (p : Pred) (q : Fin 16) : queueOf (.sDisarm p q) = 12 :=
  queueOf_at 0x1c2 (0xE1000000 + p.val * 0x80000 + q.val * 0x8000) _ _ rfl rfl (by omega) (by decide)
theorem queueOf_sSig (p : Pred) (q : Fin 16) : queueOf (.sSig p q) = 12 :=
  queueOf_at 0x1c3 (0xE1800000 + p.val * 0x80000 + q.val * 0x8000) _ _ rfl rfl (by omega) (by decide)
theorem queueOf_sWait (p : Pred) (q : Fin 16) (u : Bool) (r : Fin 16) : queueOf (.sWait p q u r) = 12 :=
  queueOf_at 0x1c4 (0xE2000000 + p.val * 0x80000 + q.val * 0x8000 + u.toNat * 0x4000 + r.val * 0x400) _ _ rfl rfl (by have := Bool.toNat_lt u; omega) (by decide)
theorem queueOf_sWaitn (p : Pred) (q : Fin 16) : queueOf (.sWaitn p q) = 12 :=
  queueOf_at 0x1c5 (0xE2800000 + p.val * 0x80000 + q.val * 0x8000) _ _ rfl rfl (by omega) (by decide)
theorem queueOf_sBstat (p : Pred) (q : Fin 16) (u : Bool) (r : Fin 16) : queueOf (.sBstat p q u r) = 12 :=
  queueOf_at 0x1c6 (0xE3000000 + p.val * 0x80000 + q.val * 0x8000 + u.toNat * 0x4000 + r.val * 0x400) _ _ rfl rfl (by have := Bool.toNat_lt u; omega) (by decide)
theorem queueOf_sFnew (p : Pred) (q : Fin 16) : queueOf (.sFnew p q) = 12 :=
  queueOf_at 0x1c7 (0xE3800000 + p.val * 0x80000 + q.val * 0x8000) _ _ rfl rfl (by omega) (by decide)
theorem queueOf_sFjoin (p : Pred) (q : Fin 16) : queueOf (.sFjoin p q) = 12 :=
  queueOf_at 0x1c8 (0xE4000000 + p.val * 0x80000 + q.val * 0x8000) _ _ rfl rfl (by omega) (by decide)
theorem queueOf_sFres (p : Pred) (q : Fin 16) : queueOf (.sFres p q) = 12 :=
  queueOf_at 0x1c9 (0xE4800000 + p.val * 0x80000 + q.val * 0x8000) _ _ rfl rfl (by omega) (by decide)
theorem queueOf_sFpeek (p : Pred) (q : Fin 16) (u : Bool) (r : Fin 16) : queueOf (.sFpeek p q u r) = 12 :=
  queueOf_at 0x1ca (0xE5000000 + p.val * 0x80000 + q.val * 0x8000 + u.toNat * 0x4000 + r.val * 0x400) _ _ rfl rfl (by have := Bool.toNat_lt u; omega) (by decide)
theorem queueOf_sLaunch (p : Pred) (q : Fin 16) (u : Bool) (r : Fin 16) : queueOf (.sLaunch p q u r) = 12 :=
  queueOf_at 0x1cb (0xE5800000 + p.val * 0x80000 + q.val * 0x8000 + u.toNat * 0x4000 + r.val * 0x400) _ _ rfl rfl (by have := Bool.toNat_lt u; omega) (by decide)
theorem queueOf_sExit (p : Pred) (q : Fin 16) (k : Fin 8) : queueOf (.sExit p q k) = 12 :=
  queueOf_at 0x1cc (0xE6000000 + p.val * 0x80000 + q.val * 0x8000 + k.val * 0x400) _ _ rfl rfl (by omega) (by decide)
theorem queueOf_sHalt (p : Pred) : queueOf (.sHalt p) = 12 :=
  queueOf_at 0x1cd (0xE6800000 + p.val * 0x80000) _ _ rfl rfl (by omega) (by decide)
theorem queueOf_sPhase (p : Pred) (q : Fin 16) (n : Bool) : queueOf (.sPhase p q n) = 12 :=
  queueOf_at 0x1ce (0xE7000000 + p.val * 0x80000 + q.val * 0x8000 + n.toNat * 0x20) _ _ rfl rfl (by have := Bool.toNat_lt n; omega) (by decide)
theorem queueOf_sQopen (p : Pred) (s : Fin 16) : queueOf (.sQopen p s) = 12 :=
  queueOf_at 0x1cf (0xE7800000 + p.val * 0x80000 + s.val * 0x20) _ _ rfl rfl (by omega) (by decide)
theorem queueOf_sQsplit (p : Pred) (q : Fin 16) : queueOf (.sQsplit p q) = 12 :=
  queueOf_at 0x1d0 (0xE8000000 + p.val * 0x80000 + q.val * 0x8000) _ _ rfl rfl (by omega) (by decide)
theorem queueOf_sQret (p : Pred) (q : Fin 16) : queueOf (.sQret p q) = 12 :=
  queueOf_at 0x1d1 (0xE8800000 + p.val * 0x80000 + q.val * 0x8000) _ _ rfl rfl (by omega) (by decide)
theorem queueOf_sWaitq (p : Pred) (u : Bool) (r : Fin 16) (s : Fin 16) : queueOf (.sWaitq p u r s) = 12 :=
  queueOf_at 0x1d2 (0xE9000000 + p.val * 0x80000 + u.toNat * 0x4000 + r.val * 0x400 + s.val * 0x20) _ _ rfl rfl (by have := Bool.toNat_lt u; omega) (by decide)
theorem queueOf_sQstat (p : Pred) (u : Bool) (r : Fin 16) (s : Fin 16) : queueOf (.sQstat p u r s) = 12 :=
  queueOf_at 0x1d3 (0xE9800000 + p.val * 0x80000 + u.toNat * 0x4000 + r.val * 0x400 + s.val * 0x20) _ _ rfl rfl (by have := Bool.toNat_lt u; omega) (by decide)
theorem queueOf_sQclose (p : Pred) (s : Fin 16) : queueOf (.sQclose p s) = 12 :=
  queueOf_at 0x1d4 (0xEA000000 + p.val * 0x80000 + s.val * 0x20) _ _ rfl rfl (by omega) (by decide)
theorem queueOf_sNprend (p : Pred) : queueOf (.sNprend p) = 12 :=
  queueOf_at 0x1d6 (0xEB000000 + p.val * 0x80000) _ _ rfl rfl (by omega) (by decide)
theorem queueOf_sUev (p : Pred) (c : Fin 4) (e : Fin 16384) : queueOf (.sUev p c e) = 12 :=
  queueOf_at 0x1d7 (0xEB800000 + p.val * 0x80000 + c.val * 0x4000 + e.val) _ _ rfl rfl (by omega) (by decide)
theorem queueOf_sTime (p : Pred) (r : Fin 16) : queueOf (.sTime p r) = 12 :=
  queueOf_at 0x1d8 (0xEC004000 + p.val * 0x80000 + r.val * 0x400) _ _ rfl rfl (by omega) (by decide)
theorem queueOf_sYield (p : Pred) : queueOf (.sYield p) = 12 :=
  queueOf_at 0x1d9 (0xEC800000 + p.val * 0x80000) _ _ rfl rfl (by omega) (by decide)
theorem queueOf_sNpr (p : Pred) (x : BitVec 32) : queueOf (.sNpr p x) = 12 :=
  queueOf_at 0x1d5 (0xEA800000 + p.val * 0x80000) _ _ rfl rfl (by omega) (by decide)

end Sys2Proof.Machine
end

