-- ==== Sys2Proof/Laws/Memory.lean ====
section
/-! SUPPORT. The laws of memory: a read after a write, and that every operation on memory keeps its canonical form. -/

namespace Sys2Proof.Machine

open Sys2Proof

/-! ### The canonical form -/

theorem memWfFrom_le {m : List Host.Cell} {lo hi : Nat} (h : memWfFrom hi m = true) (hl : lo ≤ hi) :
    memWfFrom lo m = true := by
  cases m with
  | nil => rfl
  | cons x rest =>
    simp only [memWfFrom, Bool.and_eq_true, decide_eq_true_eq] at h ⊢
    exact ⟨⟨by omega, h.1.2⟩, h.2⟩

/-- A byte below every listed key reads zero. -/
theorem memGet_below {m : List Host.Cell} {lo j : Nat} (h : memWfFrom lo m = true) (hj : j < lo) : memGet m j = 0 := by
  cases m with
  | nil => rfl
  | cons x rest =>
    simp only [memWfFrom, Bool.and_eq_true, decide_eq_true_eq] at h
    have h1 : ¬ x.1 = j := by omega
    have h2 : j < x.1 := by omega
    simp [memGet, h1, h2]

/-- One byte written keeps the form. -/
theorem memPut_wfFrom {m : List Host.Cell} {lo k : Nat} (v : Byte) (h : memWfFrom lo m = true) (hk : lo ≤ k) :
    memWfFrom lo (memPut m k v) = true := by
  induction m generalizing lo with
  | nil =>
    by_cases hv : v = 0#8 <;> simp [memPut, memWfFrom, hv, hk]
  | cons x rest ih =>
    obtain ⟨k', v'⟩ := x
    simp only [memWfFrom, Bool.and_eq_true, decide_eq_true_eq] at h
    rcases Nat.lt_trichotomy k k' with hlt | heq | hgt
    · by_cases hv : v = 0
      · simp only [memPut, hlt, hv, if_true, memWfFrom, Bool.and_eq_true, decide_eq_true_eq]
        exact h
      · simp only [memPut, hlt, hv, if_true, if_false, memWfFrom, Bool.and_eq_true, decide_eq_true_eq]
        exact ⟨⟨hk, hv⟩, ⟨by omega, h.1.2⟩, h.2⟩
    · subst heq
      by_cases hv : v = 0
      · simp only [memPut, hv, if_true, Nat.lt_irrefl, if_false]
        exact memWfFrom_le h.2 (by omega)
      · simp only [memPut, hv, if_true, Nat.lt_irrefl, if_false, memWfFrom, Bool.and_eq_true, decide_eq_true_eq]
        exact ⟨⟨hk, hv⟩, h.2⟩
    · have h1 : ¬ k < k' := by omega
      have h2 : k ≠ k' := by omega
      simp only [memPut, h1, h2, if_false, memWfFrom, Bool.and_eq_true, decide_eq_true_eq]
      exact ⟨h.1, ih h.2 (by omega)⟩

theorem memPut_wf {m : List Host.Cell} (k : Nat) (v : Byte) (h : Memory.wf m = true) : Memory.wf (memPut m k v) = true :=
  memPut_wfFrom v h (Nat.zero_le k)

theorem memWrite_wf {m : List Host.Cell} (k n v : Nat) (h : Memory.wf m = true) : Memory.wf (memWrite m k n v) = true := by
  induction n generalizing m k v with
  | zero => exact h
  | succ n ih => exact ih _ _ (memPut_wf _ _ h)

theorem memPutBytes_wf {m : List Host.Cell} (k : Nat) (l : List Byte) (h : Memory.wf m = true) :
    Memory.wf (memPutBytes m k l) = true := by
  induction l generalizing m k with
  | nil => exact h
  | cons b rest ih => exact ih _ (memPut_wf _ _ h)

/-- Writes one after another keep the form, whatever they write. -/
theorem memFold_wf {α : Type} (l : List α) (f : List Host.Cell → α → List Host.Cell)
    (hf : ∀ m x, Memory.wf m = true → Memory.wf (f m x) = true) {m : List Host.Cell} (h : Memory.wf m = true) :
    Memory.wf (l.foldl f m) = true := by
  induction l generalizing m with
  | nil => exact h
  | cons x rest ih => exact ih (hf m x h)

/-! ### Reads after writes -/

theorem memGet_put_from {m : List Host.Cell} {lo : Nat} (k j : Nat) (v : Byte) (h : memWfFrom lo m = true) :
    memGet (memPut m k v) j = if j = k then v else memGet m j := by
  induction m generalizing lo with
  | nil =>
    by_cases hv : v = 0#8
    · simp [memPut, memGet, hv]
    · by_cases hj : j = k
      · simp [memPut, memGet, hv, hj]
      · simp [memPut, memGet, hv, hj, Ne.symm hj]
  | cons x rest ih =>
    obtain ⟨k', v'⟩ := x
    simp only [memWfFrom, Bool.and_eq_true, decide_eq_true_eq] at h
    rcases Nat.lt_trichotomy k k' with hlt | heq | hgt
    · by_cases hv : v = 0#8
      · by_cases hj : j = k
        · have h1 : ¬ k' = k := by omega
          simp [memPut, hlt, hv, memGet, hj, h1]
        · simp [memPut, hlt, hv, hj]
      · by_cases hj : j = k
        · simp [memPut, hlt, hv, memGet, hj]
        · by_cases hl : j < k
          · have h1 : ¬ k' = j := by omega
            have h2 : j < k' := by omega
            simp [memPut, hlt, hv, memGet, hj, Ne.symm hj, hl, h1, h2]
          · simp [memPut, hlt, hv, memGet, hj, Ne.symm hj, hl]
    · subst heq
      by_cases hv : v = 0#8
      · by_cases hj : j = k
        · subst hj
          simp [memPut, hv, memGet_below h.2 (Nat.lt_succ_self j)]
        · by_cases hl : j < k
          · simp [memPut, hv, memGet, hj, Ne.symm hj, hl, memGet_below h.2 (Nat.lt_succ_of_lt hl)]
          · simp [memPut, hv, memGet, hj, Ne.symm hj, hl]
      · by_cases hj : j = k
        · simp [memPut, hv, memGet, hj]
        · simp [memPut, hv, memGet, hj, Ne.symm hj]
    · have h1 : ¬ k < k' := by omega
      have h2 : k ≠ k' := by omega
      simp only [memPut, h1, h2, if_false, memGet, ih h.2]
      by_cases hj : j = k
      · have h3 : ¬ k' = j := by omega
        have h4 : ¬ j < k' := by omega
        simp [hj, h2.symm, h1]
      · simp [hj]

/-- A byte read after a byte written. -/
theorem memGet_put {m : List Host.Cell} (k j : Nat) (v : Byte) (h : Memory.wf m = true) :
    memGet (memPut m k v) j = if j = k then v else memGet m j := memGet_put_from k j v h

/-- A write of n bytes leaves every other byte. -/
theorem memGet_write_other {m : List Host.Cell} (k n v j : Nat) (h : Memory.wf m = true) (hj : j < k ∨ k + n ≤ j) :
    memGet (memWrite m k n v) j = memGet m j := by
  induction n generalizing m k v with
  | zero => rfl
  | succ n ih =>
    rw [memWrite, ih _ _ (memPut_wf _ _ h) (by omega), memGet_put _ _ _ h, if_neg (by omega)]

/-- Byte i of n bytes written. -/
theorem memGet_write_in {m : List Host.Cell} (k n v i : Nat) (h : Memory.wf m = true) (hi : i < n) :
    memGet (memWrite m k n v) (k + i) = BitVec.ofNat 8 (v / 256 ^ i) := by
  induction n generalizing m k v i with
  | zero => omega
  | succ n ih =>
    cases i with
    | zero =>
      rw [memWrite, memGet_write_other _ _ _ _ (memPut_wf _ _ h) (by omega), memGet_put _ _ _ h]
      simp
    | succ i =>
      rw [memWrite, show k + (i + 1) = k + 1 + i by omega, ih _ _ _ (memPut_wf _ _ h) (by omega), Nat.div_div_eq_div_mul,
        Nat.pow_succ, Nat.mul_comm]

/-- n bytes read after they were written: the low n bytes of the value. -/
theorem memRead_write {m : List Host.Cell} (k n v : Nat) (h : Memory.wf m = true) :
    memRead (memWrite m k n v) k n = v % 256 ^ n := by
  induction n generalizing m k v with
  | zero => simp [memRead, Nat.mod_one]
  | succ n ih =>
    rw [memRead, memWrite, ih _ _ (memPut_wf _ _ h), memGet_write_other _ _ _ _ (memPut_wf _ _ h) (by omega),
      memGet_put _ _ _ h, if_pos rfl, BitVec.toNat_ofNat]
    have h1 : 256 ^ (n + 1) = 256 * 256 ^ n := by rw [Nat.pow_succ, Nat.mul_comm]
    rw [h1, Nat.mod_mul]

/-- n bytes read are those that were there when no byte of them was written. -/
theorem memRead_congr {m m' : List Host.Cell} (k n : Nat) (h : ∀ j, k ≤ j → j < k + n → memGet m' j = memGet m j) :
    memRead m' k n = memRead m k n := by
  induction n generalizing k with
  | zero => rfl
  | succ n ih =>
    rw [memRead, memRead, h k (by omega) (by omega), ih (k + 1) fun j h1 h2 => h j (by omega) (by omega)]

/-- Memories in canonical form that read the same are the same. -/
theorem mem_ext {a b : List Host.Cell} (ha : Memory.wf a = true) (hb : Memory.wf b = true)
    (h : ∀ k, memGet a k = memGet b k) : a = b := by
  have gen : ∀ (a b : List Host.Cell) (lo hi : Nat), memWfFrom lo a = true → memWfFrom hi b = true →
      (∀ k, memGet a k = memGet b k) → a = b := by
    intro a
    induction a with
    | nil =>
      intro b lo hi _ hb h
      cases b with
      | nil => rfl
      | cons y rest =>
        simp only [memWfFrom, Bool.and_eq_true, decide_eq_true_eq] at hb
        have := h y.1
        simp [memGet] at this
        exact absurd this.symm hb.1.2
    | cons x rest ih =>
      intro b lo hi ha hb h
      have ha0 := ha
      simp only [memWfFrom, Bool.and_eq_true, decide_eq_true_eq] at ha
      cases b with
      | nil =>
        have := h x.1
        simp [memGet] at this
        exact absurd this ha.1.2
      | cons y rest' =>
        have hb0 := hb
        simp only [memWfFrom, Bool.and_eq_true, decide_eq_true_eq] at hb
        obtain ⟨k, v⟩ := x
        obtain ⟨k', v'⟩ := y
        have hx := h k
        have hy := h k'
        simp only [memGet, if_true] at hx hy
        have hk : k' = k := by
          by_contra hne
          rcases Nat.lt_or_gt_of_ne hne with hlt | hgt
          · have h1 : ¬ k = k' := fun e => hne e.symm
            simp only [h1, if_false, hlt, if_true] at hy
            exact hb.1.2 hy.symm
          · simp only [hne, if_false, hgt, if_true] at hx
            exact ha.1.2 hx
        subst hk
        simp only [if_true] at hx
        subst hx
        refine congrArg _ (ih rest' (k' + 1) (k' + 1) ha.2 hb.2 fun j => ?_)
        have hj := h j
        by_cases h1 : j < k' + 1
        · rw [memGet_below ha.2 h1, memGet_below hb.2 h1]
        · have h2 : ¬ k' = j := by omega
          have h3 : ¬ j < k' := by omega
          simpa only [memGet, h2, if_false, h3] using hj
  exact gen a b 0 0 ha hb h

/-! ### The state's writes -/

@[simp] theorem State.clearErrors_mem (s : State) (k n : Nat) : (s.clearErrors k n).mem = s.mem := by
  unfold State.clearErrors; split <;> rfl

theorem State.write_mem (s : State) (k n v : Nat) : (s.write k n v).mem = memWrite s.mem k n v := by
  simp [State.write]

theorem State.write_wf (s : State) (k n v : Nat) (h : Memory.wf s.mem = true) : Memory.wf (s.write k n v).mem = true := by
  rw [State.write_mem]; exact memWrite_wf _ _ _ h

theorem State.writeBytes_mem (s : State) (k : Nat) (l : List Byte) : (s.writeBytes k l).mem = memPutBytes s.mem k l := by
  simp [State.writeBytes]

theorem State.writeBytes_wf (s : State) (k : Nat) (l : List Byte) (h : Memory.wf s.mem = true) :
    Memory.wf (s.writeBytes k l).mem = true := by
  rw [State.writeBytes_mem]; exact memPutBytes_wf _ _ h

theorem State.writeCells_mem (s : State) (l : List (Nat × Byte × Bool)) :
    (s.writeCells l).mem = l.foldl (fun m c => memPut m c.1 c.2.1) s.mem := by
  simp only [State.writeCells]; split <;> rfl

theorem State.writeCells_wf (s : State) (l : List (Nat × Byte × Bool)) (h : Memory.wf s.mem = true) :
    Memory.wf (s.writeCells l).mem = true := by
  rw [State.writeCells_mem]; exact memFold_wf _ _ (fun m x hm => memPut_wf _ _ hm) h

theorem State.writeL0_wf (s : State) (c : CoreIx) (l : List ByteWrite) (h : Memory.wf s.mem = true) :
    Memory.wf (s.writeL0 c l).mem = true := by
  have key := memFold_wf l (fun m w =>
    let k := keyL0 c.val w.off
    let old := (memGet m k).toNat
    memPut m k (BitVec.ofNat 8 ((old &&& (255 - w.mask)) ||| (w.val &&& w.mask)))) (fun m x hm => memPut_wf _ _ hm) h
  simp only [State.writeL0]
  split <;> exact key

/-- A write that the store sees, and what it reads then. -/
theorem State.read_write (s : State) (k n v : Nat) (h : Memory.wf s.mem = true) :
    (s.write k n v).read k n = v % 256 ^ n := by
  rw [State.read, State.write_mem]; exact memRead_write _ _ _ h

/-- A write leaves every byte outside it. -/
theorem State.write_other (s : State) (k n v j : Nat) (h : Memory.wf s.mem = true) (hj : j < k ∨ k + n ≤ j) :
    memGet (s.write k n v).mem j = memGet s.mem j := by
  rw [State.write_mem]; exact memGet_write_other _ _ _ _ h hj

/-- After reset memory is in its canonical form. -/
theorem reset_mem_wf : Memory.wf State.reset.mem = true := rfl

end Sys2Proof.Machine
end

