-- ==== Sys2Proof/Laws/PerInstr.lean ====
section
/-! SUPPORT. What holds of every instruction as syntax, one lemma for each row of the opcode table: a well-formed
instruction's own words decode to it, with every operand (R164 to R170, R262). -/

open Sys2Proof

/-- The words of a well-formed instruction, whatever follows them, decode to it: those of a core's program with the
decoder of the eight engines, those of a transform program with that of the sequencer. -/
def Sys2Proof.Laws.Encoding.Statement (i : Instr) : Prop :=
  (i.wellFormed = true → i.isCoreWord = true → ∀ rest : List Word32, decode (encode i ++ rest) = .ok (i, rest)) ∧
  (i.wellFormed = true → i.isTsWord = true → decodeTs (BitVec.ofNat 32 (encodeNat i)) = .ok i)

namespace Sys2Proof.Laws

/-- The slot of a word whose bits [31:23] are c. -/
def slotAt (c n : Nat) (x : Word32) : Option Slot :=
  match c / 64 with
  | 0 => decodeCtrl (c % 64) n x
  | 1 => decodeVec (c % 64) n
  | 2 => decodeMat (c % 64) n
  | 3 => decodeRow (c % 64) n
  | 4 => decodeSacc (c % 64) n
  | 5 => decodeXfer (c % 64) n
  | 6 => decodeLoop (c % 64) n
  | _ => decodeSync (c % 64) n x

theorem slotOf_at (c n : Nat) (x : Word32) (h : n / 2 ^ 23 = c) (hc : c < 512) : slotOf n x = slotAt c n x := by
  have h1 : fld 31 29 n = c / 64 := by simp only [fld]; omega
  have h2 : fld 28 23 n = c % 64 := by simp only [fld]; omega
  unfold slotOf slotAt
  rw [h1, h2]
  all_goals rfl

/-- The slots with an extension word, by bits [31:23]. -/
def extAt (c : Nat) : Bool := c == 0x1B || c == 0x24 || c == 0x25 || c == 0x1D5

theorem toNat_word (n : Nat) (h : n < 2 ^ 32) : (BitVec.ofNat 32 n).toNat = n := by
  simp only [BitVec.toNat_ofNat]; omega

theorem takesExt_at (c n : Nat) (h : n / 2 ^ 23 = c) (hc : c < 512) : takesExt (BitVec.ofNat 32 n) = extAt c := by
  have h1 : fld 31 29 n = c / 64 := by simp only [fld]; omega
  have h2 : fld 28 23 n = c % 64 := by simp only [fld]; omega
  simp only [takesExt, toNat_word n (by omega), h1, h2, extAt]
  rw [Bool.eq_iff_iff]
  simp only [Bool.or_eq_true, Bool.and_eq_true, beq_iff_eq]
  omega

theorem decodeWord_of (c n : Nat) (x : Word32) {i : Instr} (h : n / 2 ^ 23 = c) (hc : c < 512)
    (hs : slotAt c n x = some ⟨true, true, i⟩) (hw : i.wellFormed = true) : decodeWord (BitVec.ofNat 32 n) x = .ok i := by
  rw [← slotOf_at c n x h hc] at hs
  simp only [Instr.wellFormed, Bool.and_eq_true] at hw
  simp only [decodeWord, toNat_word n (by omega), hs, Slot.check, hw.1, hw.2]
  rfl

/-- An instruction of one word. -/
theorem roundOne {i : Instr} (c n : Nat) (h : n / 2 ^ 23 = c) (hc : c < 512 ∧ extAt c = false)
    (he : encode i = [BitVec.ofNat 32 n]) (hs : slotAt c n 0 = some ⟨true, true, i⟩) (rest : List Word32)
    (hw : i.wellFormed = true) : decode (encode i ++ rest) = .ok (i, rest) := by
  have hx := (takesExt_at c n h hc.1).trans hc.2
  simp only [he, decode, List.cons_append, hx, decodeWord_of c n 0 h hc.1 hs hw]
  rfl

/-- An instruction of two words. -/
theorem roundTwo {i : Instr} (c n : Nat) (x : Word32) (h : n / 2 ^ 23 = c) (hc : c < 512 ∧ extAt c = true)
    (he : encode i = [BitVec.ofNat 32 n, x]) (hs : slotAt c n x = some ⟨true, true, i⟩) (rest : List Word32)
    (hw : i.wellFormed = true) : decode (encode i ++ rest) = .ok (i, rest) := by
  have hx := (takesExt_at c n h hc.1).trans hc.2
  simp only [he, decode, List.cons_append, hx, decodeWord_of c n x h hc.1 hs hw]
  rfl

/-- The slot of a transform-sequencer word whose OPC is c. -/
theorem roundTs {i : Instr} (c n : Nat) (h : n / 2 ^ 28 = c) (hc : c < 16) (he : encodeNat i = n)
    (hs : slotOfTs n = some ⟨true, true, i⟩) (hw : i.wellFormed = true) :
    decodeTs (BitVec.ofNat 32 (encodeNat i)) = .ok i := by
  simp only [Instr.wellFormed, Bool.and_eq_true] at hw
  simp only [he, decodeTs, toNat_word n (by omega), hs, Slot.check, hw.1, hw.2]
  rfl

theorem finOf {n m : Nat} [NeZero n] (f : Fin n) (h : m = f.val) : Fin.ofNat n m = f := by
  subst h; ext; simp

theorem bvOf {n m : Nat} (b : BitVec n) (h : m = b.toNat) : BitVec.ofNat n m = b := by
  subst h; simp

theorem boolOf {m : Nat} (u : Bool) (h : m = u.toNat) : (m == 1) = u := by
  subst h; cases u <;> rfl

theorem tyOf {m : Nat} (t : ElemType) (h : m = t.code.val) : ElemType.ofCode m = t := by
  subst h; cases t <;> rfl

theorem rndOf {m : Nat} (r : Rounding) (h : m = r.code.val) : Rounding.ofCode m = r := by
  subst h; cases r <;> rfl

theorem winOf {m : Nat} (w : Window) (h : m = w.code.val) : Window.ofCode m = w := by
  subst h; cases w <;> rfl

theorem beqOf {a b : Nat} (h : a = b) : (a == b) = true := by simp [h]

theorem andOf {a b : Bool} (ha : a = true) (hb : b = true) : (a && b) = true := by simp [ha, hb]

theorem slotIs {z f : Bool} {i j : Instr} (hz : z = true) (hf : f = true) (hi : i = j) :
    (⟨z, f, i⟩ : Slot) = ⟨true, true, j⟩ := by
  subst hz hf hi; rfl

/-- An equation between a field and its pieces. -/
def Joined (a b : Nat) : Prop := a = b

theorem joined {a b m : Nat} (h : Joined a b) (hm : m = b) : m = a := hm.trans h.symm

theorem split2 (n : Nat) (h : n < 4) :
    ∃ b a, n / 2 % 2 = b ∧ n % 2 = a ∧ b < 2 ∧ a < 2 ∧ Joined n (b * 2 + a) :=
  ⟨_, _, rfl, rfl, by omega, by omega, show n = _ by omega⟩

theorem split3 (n : Nat) (h : n < 8) :
    ∃ c b a, n / 4 % 2 = c ∧ n / 2 % 2 = b ∧ n % 2 = a ∧ c < 2 ∧ b < 2 ∧ a < 2 ∧ Joined n (c * 4 + b * 2 + a) :=
  ⟨_, _, _, rfl, rfl, rfl, by omega, by omega, by omega, show n = _ by omega⟩

end Sys2Proof.Laws

open Sys2Proof.Laws

theorem Sys2Proof.Laws.Encoding.trailerWord (m : BitVec 12) : Sys2Proof.Laws.Encoding.Statement (.trailerWord m) := by
  have := m.isLt
  refine ⟨fun hw _ rest => ?_, fun _ h => (Bool.false_ne_true h).elim⟩
  exact roundOne 0 (m.toNat) (by omega) (by decide) rfl (congrArg some (slotIs (beqOf (by simp only [fld]; omega)) rfl (by rw [Sys2Proof.Instr.trailerWord.injEq]; exact bvOf _ (by simp only [fld]; omega)))) rest hw

theorem Sys2Proof.Laws.Encoding.nop (p : Pred) : Sys2Proof.Laws.Encoding.Statement (.nop p) := by
  refine ⟨fun hw _ rest => ?_, fun _ h => (Bool.false_ne_true h).elim⟩
  exact roundOne 1 (0x00800000 + p.val * 0x80000) (by omega) (by decide) rfl (congrArg some (slotIs (beqOf (by simp only [fld]; omega)) rfl (by rw [Sys2Proof.Instr.nop.injEq]; exact finOf _ (by simp only [fld]; omega)))) rest hw

theorem Sys2Proof.Laws.Encoding.add (p : Pred) (d : Fin 32) (a : Fin 32) (b : Fin 32) : Sys2Proof.Laws.Encoding.Statement (.add p d a b) := by
  refine ⟨fun hw _ rest => ?_, fun _ h => (Bool.false_ne_true h).elim⟩
  exact roundOne 2 (0x01000000 + p.val * 0x80000 + d.val * 0x4000 + a.val * 0x200 + b.val * 0x10) (by omega) (by decide) rfl (congrArg some (slotIs (beqOf (by simp only [fld]; omega)) rfl (by rw [Sys2Proof.Instr.add.injEq]; exact ⟨finOf _ (by simp only [fld]; omega), finOf _ (by simp only [fld]; omega), finOf _ (by simp only [fld]; omega), finOf _ (by simp only [fld]; omega)⟩))) rest hw

theorem Sys2Proof.Laws.Encoding.sub (p : Pred) (d : Fin 32) (a : Fin 32) (b : Fin 32) : Sys2Proof.Laws.Encoding.Statement (.sub p d a b) := by
  refine ⟨fun hw _ rest => ?_, fun _ h => (Bool.false_ne_true h).elim⟩
  exact roundOne 3 (0x01800000 + p.val * 0x80000 + d.val * 0x4000 + a.val * 0x200 + b.val * 0x10) (by omega) (by decide) rfl (congrArg some (slotIs (beqOf (by simp only [fld]; omega)) rfl (by rw [Sys2Proof.Instr.sub.injEq]; exact ⟨finOf _ (by simp only [fld]; omega), finOf _ (by simp only [fld]; omega), finOf _ (by simp only [fld]; omega), finOf _ (by simp only [fld]; omega)⟩))) rest hw

theorem Sys2Proof.Laws.Encoding.mul (p : Pred) (d : Fin 32) (a : Fin 32) (b : Fin 32) : Sys2Proof.Laws.Encoding.Statement (.mul p d a b) := by
  refine ⟨fun hw _ rest => ?_, fun _ h => (Bool.false_ne_true h).elim⟩
  exact roundOne 4 (0x02000000 + p.val * 0x80000 + d.val * 0x4000 + a.val * 0x200 + b.val * 0x10) (by omega) (by decide) rfl (congrArg some (slotIs (beqOf (by simp only [fld]; omega)) rfl (by rw [Sys2Proof.Instr.mul.injEq]; exact ⟨finOf _ (by simp only [fld]; omega), finOf _ (by simp only [fld]; omega), finOf _ (by simp only [fld]; omega), finOf _ (by simp only [fld]; omega)⟩))) rest hw

theorem Sys2Proof.Laws.Encoding.mulh (p : Pred) (d : Fin 32) (a : Fin 32) (b : Fin 32) (u : Bool) : Sys2Proof.Laws.Encoding.Statement (.mulh p d a b u) := by
  have := Bool.toNat_lt u
  refine ⟨fun hw _ rest => ?_, fun _ h => (Bool.false_ne_true h).elim⟩
  exact roundOne 5 (0x02800000 + p.val * 0x80000 + d.val * 0x4000 + a.val * 0x200 + b.val * 0x10 + u.toNat) (by omega) (by decide) rfl (congrArg some (slotIs (beqOf (by simp only [fld]; omega)) rfl (by rw [Sys2Proof.Instr.mulh.injEq]; exact ⟨finOf _ (by simp only [fld]; omega), finOf _ (by simp only [fld]; omega), finOf _ (by simp only [fld]; omega), finOf _ (by simp only [fld]; omega), boolOf _ (by simp only [fld]; omega)⟩))) rest hw

theorem Sys2Proof.Laws.Encoding.div (p : Pred) (d : Fin 32) (a : Fin 32) (b : Fin 32) (u : Bool) : Sys2Proof.Laws.Encoding.Statement (.div p d a b u) := by
  have := Bool.toNat_lt u
  refine ⟨fun hw _ rest => ?_, fun _ h => (Bool.false_ne_true h).elim⟩
  exact roundOne 6 (0x03000000 + p.val * 0x80000 + d.val * 0x4000 + a.val * 0x200 + b.val * 0x10 + u.toNat) (by omega) (by decide) rfl (congrArg some (slotIs (beqOf (by simp only [fld]; omega)) rfl (by rw [Sys2Proof.Instr.div.injEq]; exact ⟨finOf _ (by simp only [fld]; omega), finOf _ (by simp only [fld]; omega), finOf _ (by simp only [fld]; omega), finOf _ (by simp only [fld]; omega), boolOf _ (by simp only [fld]; omega)⟩))) rest hw

theorem Sys2Proof.Laws.Encoding.rem (p : Pred) (d : Fin 32) (a : Fin 32) (b : Fin 32) (u : Bool) : Sys2Proof.Laws.Encoding.Statement (.rem p d a b u) := by
  have := Bool.toNat_lt u
  refine ⟨fun hw _ rest => ?_, fun _ h => (Bool.false_ne_true h).elim⟩
  exact roundOne 7 (0x03800000 + p.val * 0x80000 + d.val * 0x4000 + a.val * 0x200 + b.val * 0x10 + u.toNat) (by omega) (by decide) rfl (congrArg some (slotIs (beqOf (by simp only [fld]; omega)) rfl (by rw [Sys2Proof.Instr.rem.injEq]; exact ⟨finOf _ (by simp only [fld]; omega), finOf _ (by simp only [fld]; omega), finOf _ (by simp only [fld]; omega), finOf _ (by simp only [fld]; omega), boolOf _ (by simp only [fld]; omega)⟩))) rest hw

theorem Sys2Proof.Laws.Encoding.and (p : Pred) (d : Fin 32) (a : Fin 32) (b : Fin 32) : Sys2Proof.Laws.Encoding.Statement (.and p d a b) := by
  refine ⟨fun hw _ rest => ?_, fun _ h => (Bool.false_ne_true h).elim⟩
  exact roundOne 8 (0x04000000 + p.val * 0x80000 + d.val * 0x4000 + a.val * 0x200 + b.val * 0x10) (by omega) (by decide) rfl (congrArg some (slotIs (beqOf (by simp only [fld]; omega)) rfl (by rw [Sys2Proof.Instr.and.injEq]; exact ⟨finOf _ (by simp only [fld]; omega), finOf _ (by simp only [fld]; omega), finOf _ (by simp only [fld]; omega), finOf _ (by simp only [fld]; omega)⟩))) rest hw

theorem Sys2Proof.Laws.Encoding.or (p : Pred) (d : Fin 32) (a : Fin 32) (b : Fin 32) : Sys2Proof.Laws.Encoding.Statement (.or p d a b) := by
  refine ⟨fun hw _ rest => ?_, fun _ h => (Bool.false_ne_true h).elim⟩
  exact roundOne 9 (0x04800000 + p.val * 0x80000 + d.val * 0x4000 + a.val * 0x200 + b.val * 0x10) (by omega) (by decide) rfl (congrArg some (slotIs (beqOf (by simp only [fld]; omega)) rfl (by rw [Sys2Proof.Instr.or.injEq]; exact ⟨finOf _ (by simp only [fld]; omega), finOf _ (by simp only [fld]; omega), finOf _ (by simp only [fld]; omega), finOf _ (by simp only [fld]; omega)⟩))) rest hw

theorem Sys2Proof.Laws.Encoding.xor (p : Pred) (d : Fin 32) (a : Fin 32) (b : Fin 32) : Sys2Proof.Laws.Encoding.Statement (.xor p d a b) := by
  refine ⟨fun hw _ rest => ?_, fun _ h => (Bool.false_ne_true h).elim⟩
  exact roundOne 10 (0x05000000 + p.val * 0x80000 + d.val * 0x4000 + a.val * 0x200 + b.val * 0x10) (by omega) (by decide) rfl (congrArg some (slotIs (beqOf (by simp only [fld]; omega)) rfl (by rw [Sys2Proof.Instr.xor.injEq]; exact ⟨finOf _ (by simp only [fld]; omega), finOf _ (by simp only [fld]; omega), finOf _ (by simp only [fld]; omega), finOf _ (by simp only [fld]; omega)⟩))) rest hw

theorem Sys2Proof.Laws.Encoding.andn (p : Pred) (d : Fin 32) (a : Fin 32) (b : Fin 32) : Sys2Proof.Laws.Encoding.Statement (.andn p d a b) := by
  refine ⟨fun hw _ rest => ?_, fun _ h => (Bool.false_ne_true h).elim⟩
  exact roundOne 11 (0x05800000 + p.val * 0x80000 + d.val * 0x4000 + a.val * 0x200 + b.val * 0x10) (by omega) (by decide) rfl (congrArg some (slotIs (beqOf (by simp only [fld]; omega)) rfl (by rw [Sys2Proof.Instr.andn.injEq]; exact ⟨finOf _ (by simp only [fld]; omega), finOf _ (by simp only [fld]; omega), finOf _ (by simp only [fld]; omega), finOf _ (by simp only [fld]; omega)⟩))) rest hw

theorem Sys2Proof.Laws.Encoding.shl (p : Pred) (d : Fin 32) (a : Fin 32) (b : Fin 32) : Sys2Proof.Laws.Encoding.Statement (.shl p d a b) := by
  refine ⟨fun hw _ rest => ?_, fun _ h => (Bool.false_ne_true h).elim⟩
  exact roundOne 12 (0x06000000 + p.val * 0x80000 + d.val * 0x4000 + a.val * 0x200 + b.val * 0x10) (by omega) (by decide) rfl (congrArg some (slotIs (beqOf (by simp only [fld]; omega)) rfl (by rw [Sys2Proof.Instr.shl.injEq]; exact ⟨finOf _ (by simp only [fld]; omega), finOf _ (by simp only [fld]; omega), finOf _ (by simp only [fld]; omega), finOf _ (by simp only [fld]; omega)⟩))) rest hw

theorem Sys2Proof.Laws.Encoding.shr (p : Pred) (d : Fin 32) (a : Fin 32) (b : Fin 32) : Sys2Proof.Laws.Encoding.Statement (.shr p d a b) := by
  refine ⟨fun hw _ rest => ?_, fun _ h => (Bool.false_ne_true h).elim⟩
  exact roundOne 13 (0x06800000 + p.val * 0x80000 + d.val * 0x4000 + a.val * 0x200 + b.val * 0x10) (by omega) (by decide) rfl (congrArg some (slotIs (beqOf (by simp only [fld]; omega)) rfl (by rw [Sys2Proof.Instr.shr.injEq]; exact ⟨finOf _ (by simp only [fld]; omega), finOf _ (by simp only [fld]; omega), finOf _ (by simp only [fld]; omega), finOf _ (by simp only [fld]; omega)⟩))) rest hw

theorem Sys2Proof.Laws.Encoding.sra (p : Pred) (d : Fin 32) (a : Fin 32) (b : Fin 32) : Sys2Proof.Laws.Encoding.Statement (.sra p d a b) := by
  refine ⟨fun hw _ rest => ?_, fun _ h => (Bool.false_ne_true h).elim⟩
  exact roundOne 14 (0x07000000 + p.val * 0x80000 + d.val * 0x4000 + a.val * 0x200 + b.val * 0x10) (by omega) (by decide) rfl (congrArg some (slotIs (beqOf (by simp only [fld]; omega)) rfl (by rw [Sys2Proof.Instr.sra.injEq]; exact ⟨finOf _ (by simp only [fld]; omega), finOf _ (by simp only [fld]; omega), finOf _ (by simp only [fld]; omega), finOf _ (by simp only [fld]; omega)⟩))) rest hw

theorem Sys2Proof.Laws.Encoding.min (p : Pred) (d : Fin 32) (a : Fin 32) (b : Fin 32) (u : Bool) : Sys2Proof.Laws.Encoding.Statement (.min p d a b u) := by
  have := Bool.toNat_lt u
  refine ⟨fun hw _ rest => ?_, fun _ h => (Bool.false_ne_true h).elim⟩
  exact roundOne 15 (0x07800000 + p.val * 0x80000 + d.val * 0x4000 + a.val * 0x200 + b.val * 0x10 + u.toNat) (by omega) (by decide) rfl (congrArg some (slotIs (beqOf (by simp only [fld]; omega)) rfl (by rw [Sys2Proof.Instr.min.injEq]; exact ⟨finOf _ (by simp only [fld]; omega), finOf _ (by simp only [fld]; omega), finOf _ (by simp only [fld]; omega), finOf _ (by simp only [fld]; omega), boolOf _ (by simp only [fld]; omega)⟩))) rest hw

theorem Sys2Proof.Laws.Encoding.max (p : Pred) (d : Fin 32) (a : Fin 32) (b : Fin 32) (u : Bool) : Sys2Proof.Laws.Encoding.Statement (.max p d a b u) := by
  have := Bool.toNat_lt u
  refine ⟨fun hw _ rest => ?_, fun _ h => (Bool.false_ne_true h).elim⟩
  exact roundOne 16 (0x08000000 + p.val * 0x80000 + d.val * 0x4000 + a.val * 0x200 + b.val * 0x10 + u.toNat) (by omega) (by decide) rfl (congrArg some (slotIs (beqOf (by simp only [fld]; omega)) rfl (by rw [Sys2Proof.Instr.max.injEq]; exact ⟨finOf _ (by simp only [fld]; omega), finOf _ (by simp only [fld]; omega), finOf _ (by simp only [fld]; omega), finOf _ (by simp only [fld]; omega), boolOf _ (by simp only [fld]; omega)⟩))) rest hw

theorem Sys2Proof.Laws.Encoding.sel (p : Pred) (d : Fin 32) (a : Fin 32) (b : Fin 32) (c : Fin 16) : Sys2Proof.Laws.Encoding.Statement (.sel p d a b c) := by
  refine ⟨fun hw _ rest => ?_, fun _ h => (Bool.false_ne_true h).elim⟩
  exact roundOne 17 (0x08800000 + p.val * 0x80000 + d.val * 0x4000 + a.val * 0x200 + b.val * 0x10 + c.val) (by omega) (by decide) rfl (congrArg some (slotIs rfl rfl (by rw [Sys2Proof.Instr.sel.injEq]; exact ⟨finOf _ (by simp only [fld]; omega), finOf _ (by simp only [fld]; omega), finOf _ (by simp only [fld]; omega), finOf _ (by simp only [fld]; omega), finOf _ (by simp only [fld]; omega)⟩))) rest hw

theorem Sys2Proof.Laws.Encoding.addi (p : Pred) (d : Fin 32) (a : Fin 32) (i : BitVec 9) : Sys2Proof.Laws.Encoding.Statement (.addi p d a i) := by
  have := i.isLt
  refine ⟨fun hw _ rest => ?_, fun _ h => (Bool.false_ne_true h).elim⟩
  exact roundOne 18 (0x09000000 + p.val * 0x80000 + d.val * 0x4000 + a.val * 0x200 + i.toNat) (by omega) (by decide) rfl (congrArg some (slotIs rfl rfl (by rw [Sys2Proof.Instr.addi.injEq]; exact ⟨finOf _ (by simp only [fld]; omega), finOf _ (by simp only [fld]; omega), finOf _ (by simp only [fld]; omega), bvOf _ (by simp only [fld]; omega)⟩))) rest hw

theorem Sys2Proof.Laws.Encoding.andi (p : Pred) (d : Fin 32) (a : Fin 32) (i : BitVec 9) : Sys2Proof.Laws.Encoding.Statement (.andi p d a i) := by
  have := i.isLt
  refine ⟨fun hw _ rest => ?_, fun _ h => (Bool.false_ne_true h).elim⟩
  exact roundOne 19 (0x09800000 + p.val * 0x80000 + d.val * 0x4000 + a.val * 0x200 + i.toNat) (by omega) (by decide) rfl (congrArg some (slotIs rfl rfl (by rw [Sys2Proof.Instr.andi.injEq]; exact ⟨finOf _ (by simp only [fld]; omega), finOf _ (by simp only [fld]; omega), finOf _ (by simp only [fld]; omega), bvOf _ (by simp only [fld]; omega)⟩))) rest hw

theorem Sys2Proof.Laws.Encoding.ori (p : Pred) (d : Fin 32) (a : Fin 32) (i : BitVec 9) : Sys2Proof.Laws.Encoding.Statement (.ori p d a i) := by
  have := i.isLt
  refine ⟨fun hw _ rest => ?_, fun _ h => (Bool.false_ne_true h).elim⟩
  exact roundOne 20 (0x0A000000 + p.val * 0x80000 + d.val * 0x4000 + a.val * 0x200 + i.toNat) (by omega) (by decide) rfl (congrArg some (slotIs rfl rfl (by rw [Sys2Proof.Instr.ori.injEq]; exact ⟨finOf _ (by simp only [fld]; omega), finOf _ (by simp only [fld]; omega), finOf _ (by simp only [fld]; omega), bvOf _ (by simp only [fld]; omega)⟩))) rest hw

theorem Sys2Proof.Laws.Encoding.xori (p : Pred) (d : Fin 32) (a : Fin 32) (i : BitVec 9) : Sys2Proof.Laws.Encoding.Statement (.xori p d a i) := by
  have := i.isLt
  refine ⟨fun hw _ rest => ?_, fun _ h => (Bool.false_ne_true h).elim⟩
  exact roundOne 21 (0x0A800000 + p.val * 0x80000 + d.val * 0x4000 + a.val * 0x200 + i.toNat) (by omega) (by decide) rfl (congrArg some (slotIs rfl rfl (by rw [Sys2Proof.Instr.xori.injEq]; exact ⟨finOf _ (by simp only [fld]; omega), finOf _ (by simp only [fld]; omega), finOf _ (by simp only [fld]; omega), bvOf _ (by simp only [fld]; omega)⟩))) rest hw

theorem Sys2Proof.Laws.Encoding.shli (p : Pred) (d : Fin 32) (a : Fin 32) (n : Fin 64) : Sys2Proof.Laws.Encoding.Statement (.shli p d a n) := by
  refine ⟨fun hw _ rest => ?_, fun _ h => (Bool.false_ne_true h).elim⟩
  exact roundOne 22 (0x0B000000 + p.val * 0x80000 + d.val * 0x4000 + a.val * 0x200 + n.val) (by omega) (by decide) rfl (congrArg some (slotIs (beqOf (by simp only [fld]; omega)) rfl (by rw [Sys2Proof.Instr.shli.injEq]; exact ⟨finOf _ (by simp only [fld]; omega), finOf _ (by simp only [fld]; omega), finOf _ (by simp only [fld]; omega), finOf _ (by simp only [fld]; omega)⟩))) rest hw

theorem Sys2Proof.Laws.Encoding.shri (p : Pred) (d : Fin 32) (a : Fin 32) (n : Fin 64) : Sys2Proof.Laws.Encoding.Statement (.shri p d a n) := by
  refine ⟨fun hw _ rest => ?_, fun _ h => (Bool.false_ne_true h).elim⟩
  exact roundOne 23 (0x0B800000 + p.val * 0x80000 + d.val * 0x4000 + a.val * 0x200 + n.val) (by omega) (by decide) rfl (congrArg some (slotIs (beqOf (by simp only [fld]; omega)) rfl (by rw [Sys2Proof.Instr.shri.injEq]; exact ⟨finOf _ (by simp only [fld]; omega), finOf _ (by simp only [fld]; omega), finOf _ (by simp only [fld]; omega), finOf _ (by simp only [fld]; omega)⟩))) rest hw

theorem Sys2Proof.Laws.Encoding.srai (p : Pred) (d : Fin 32) (a : Fin 32) (n : Fin 64) : Sys2Proof.Laws.Encoding.Statement (.srai p d a n) := by
  refine ⟨fun hw _ rest => ?_, fun _ h => (Bool.false_ne_true h).elim⟩
  exact roundOne 24 (0x0C000000 + p.val * 0x80000 + d.val * 0x4000 + a.val * 0x200 + n.val) (by omega) (by decide) rfl (congrArg some (slotIs (beqOf (by simp only [fld]; omega)) rfl (by rw [Sys2Proof.Instr.srai.injEq]; exact ⟨finOf _ (by simp only [fld]; omega), finOf _ (by simp only [fld]; omega), finOf _ (by simp only [fld]; omega), finOf _ (by simp only [fld]; omega)⟩))) rest hw

theorem Sys2Proof.Laws.Encoding.muli (p : Pred) (d : Fin 32) (a : Fin 32) (i : BitVec 9) : Sys2Proof.Laws.Encoding.Statement (.muli p d a i) := by
  have := i.isLt
  refine ⟨fun hw _ rest => ?_, fun _ h => (Bool.false_ne_true h).elim⟩
  exact roundOne 25 (0x0C800000 + p.val * 0x80000 + d.val * 0x4000 + a.val * 0x200 + i.toNat) (by omega) (by decide) rfl (congrArg some (slotIs rfl rfl (by rw [Sys2Proof.Instr.muli.injEq]; exact ⟨finOf _ (by simp only [fld]; omega), finOf _ (by simp only [fld]; omega), finOf _ (by simp only [fld]; omega), bvOf _ (by simp only [fld]; omega)⟩))) rest hw

theorem Sys2Proof.Laws.Encoding.cmp (p : Pred) (d : Fin 16) (a : Fin 32) (b : Fin 32) (c : Fin 16) : Sys2Proof.Laws.Encoding.Statement (.cmp p d a b c) := by
  refine ⟨fun hw _ rest => ?_, fun _ h => (Bool.false_ne_true h).elim⟩
  exact roundOne 26 (0x0D000000 + p.val * 0x80000 + d.val * 0x4000 + a.val * 0x200 + b.val * 0x10 + c.val) (by omega) (by decide) rfl (congrArg some (slotIs (beqOf (by simp only [fld]; omega)) rfl (by rw [Sys2Proof.Instr.cmp.injEq]; exact ⟨finOf _ (by simp only [fld]; omega), finOf _ (by simp only [fld]; omega), finOf _ (by simp only [fld]; omega), finOf _ (by simp only [fld]; omega), finOf _ (by simp only [fld]; omega)⟩))) rest hw

theorem Sys2Proof.Laws.Encoding.cmpx (p : Pred) (d : Fin 16) (a : Fin 32) (c : Fin 16) (x : BitVec 32) : Sys2Proof.Laws.Encoding.Statement (.cmpx p d a c x) := by
  refine ⟨fun hw _ rest => ?_, fun _ h => (Bool.false_ne_true h).elim⟩
  exact roundTwo 27 (0x0D800000 + p.val * 0x80000 + d.val * 0x4000 + a.val * 0x200 + c.val) _ (by omega) (by decide) rfl (congrArg some (slotIs (andOf (beqOf (by simp only [fld]; omega)) (beqOf (by simp only [fld]; omega))) rfl (by rw [Sys2Proof.Instr.cmpx.injEq]; exact ⟨finOf _ (by simp only [fld]; omega), finOf _ (by simp only [fld]; omega), finOf _ (by simp only [fld]; omega), finOf _ (by simp only [fld]; omega), rfl⟩))) rest hw

theorem Sys2Proof.Laws.Encoding.pand (p : Pred) (d : Fin 16) (a : Fin 16) (b : Fin 16) : Sys2Proof.Laws.Encoding.Statement (.pand p d a b) := by
  refine ⟨fun hw _ rest => ?_, fun _ h => (Bool.false_ne_true h).elim⟩
  exact roundOne 28 (0x0E000000 + p.val * 0x80000 + d.val * 0x4000 + a.val * 0x200 + b.val * 0x10) (by omega) (by decide) rfl (congrArg some (slotIs (andOf (andOf (andOf (beqOf (by simp only [fld]; omega)) (beqOf (by simp only [fld]; omega))) (beqOf (by simp only [fld]; omega))) (beqOf (by simp only [fld]; omega))) rfl (by rw [Sys2Proof.Instr.pand.injEq]; exact ⟨finOf _ (by simp only [fld]; omega), finOf _ (by simp only [fld]; omega), finOf _ (by simp only [fld]; omega), finOf _ (by simp only [fld]; omega)⟩))) rest hw

theorem Sys2Proof.Laws.Encoding.por (p : Pred) (d : Fin 16) (a : Fin 16) (b : Fin 16) : Sys2Proof.Laws.Encoding.Statement (.por p d a b) := by
  refine ⟨fun hw _ rest => ?_, fun _ h => (Bool.false_ne_true h).elim⟩
  exact roundOne 29 (0x0E800000 + p.val * 0x80000 + d.val * 0x4000 + a.val * 0x200 + b.val * 0x10) (by omega) (by decide) rfl (congrArg some (slotIs (andOf (andOf (andOf (beqOf (by simp only [fld]; omega)) (beqOf (by simp only [fld]; omega))) (beqOf (by simp only [fld]; omega))) (beqOf (by simp only [fld]; omega))) rfl (by rw [Sys2Proof.Instr.por.injEq]; exact ⟨finOf _ (by simp only [fld]; omega), finOf _ (by simp only [fld]; omega), finOf _ (by simp only [fld]; omega), finOf _ (by simp only [fld]; omega)⟩))) rest hw

theorem Sys2Proof.Laws.Encoding.pxor (p : Pred) (d : Fin 16) (a : Fin 16) (b : Fin 16) : Sys2Proof.Laws.Encoding.Statement (.pxor p d a b) := by
  refine ⟨fun hw _ rest => ?_, fun _ h => (Bool.false_ne_true h).elim⟩
  exact roundOne 30 (0x0F000000 + p.val * 0x80000 + d.val * 0x4000 + a.val * 0x200 + b.val * 0x10) (by omega) (by decide) rfl (congrArg some (slotIs (andOf (andOf (andOf (beqOf (by simp only [fld]; omega)) (beqOf (by simp only [fld]; omega))) (beqOf (by simp only [fld]; omega))) (beqOf (by simp only [fld]; omega))) rfl (by rw [Sys2Proof.Instr.pxor.injEq]; exact ⟨finOf _ (by simp only [fld]; omega), finOf _ (by simp only [fld]; omega), finOf _ (by simp only [fld]; omega), finOf _ (by simp only [fld]; omega)⟩))) rest hw

theorem Sys2Proof.Laws.Encoding.pandn (p : Pred) (d : Fin 16) (a : Fin 16) (b : Fin 16) : Sys2Proof.Laws.Encoding.Statement (.pandn p d a b) := by
  refine ⟨fun hw _ rest => ?_, fun _ h => (Bool.false_ne_true h).elim⟩
  exact roundOne 31 (0x0F800000 + p.val * 0x80000 + d.val * 0x4000 + a.val * 0x200 + b.val * 0x10) (by omega) (by decide) rfl (congrArg some (slotIs (andOf (andOf (andOf (beqOf (by simp only [fld]; omega)) (beqOf (by simp only [fld]; omega))) (beqOf (by simp only [fld]; omega))) (beqOf (by simp only [fld]; omega))) rfl (by rw [Sys2Proof.Instr.pandn.injEq]; exact ⟨finOf _ (by simp only [fld]; omega), finOf _ (by simp only [fld]; omega), finOf _ (by simp only [fld]; omega), finOf _ (by simp only [fld]; omega)⟩))) rest hw

theorem Sys2Proof.Laws.Encoding.pset (p : Pred) (d : Fin 16) (b : Bool) : Sys2Proof.Laws.Encoding.Statement (.pset p d b) := by
  have := Bool.toNat_lt b
  refine ⟨fun hw _ rest => ?_, fun _ h => (Bool.false_ne_true h).elim⟩
  exact roundOne 32 (0x10000000 + p.val * 0x80000 + d.val * 0x4000 + b.toNat) (by omega) (by decide) rfl (congrArg some (slotIs (beqOf (by simp only [fld]; omega)) (beqOf (by simp only [fld]; omega)) (by rw [Sys2Proof.Instr.pset.injEq]; exact ⟨finOf _ (by simp only [fld]; omega), finOf _ (by simp only [fld]; omega), boolOf _ (by simp only [fld]; omega)⟩))) rest hw

theorem Sys2Proof.Laws.Encoding.prd (p : Pred) (d : Fin 32) : Sys2Proof.Laws.Encoding.Statement (.prd p d) := by
  refine ⟨fun hw _ rest => ?_, fun _ h => (Bool.false_ne_true h).elim⟩
  exact roundOne 33 (0x10800000 + p.val * 0x80000 + d.val * 0x4000) (by omega) (by decide) rfl (congrArg some (slotIs (beqOf (by simp only [fld]; omega)) rfl (by rw [Sys2Proof.Instr.prd.injEq]; exact ⟨finOf _ (by simp only [fld]; omega), finOf _ (by simp only [fld]; omega)⟩))) rest hw

theorem Sys2Proof.Laws.Encoding.pwr (p : Pred) (s : Fin 32) : Sys2Proof.Laws.Encoding.Statement (.pwr p s) := by
  refine ⟨fun hw _ rest => ?_, fun _ h => (Bool.false_ne_true h).elim⟩
  exact roundOne 34 (0x11000000 + p.val * 0x80000 + s.val * 0x4000) (by omega) (by decide) rfl (congrArg some (slotIs (beqOf (by simp only [fld]; omega)) rfl (by rw [Sys2Proof.Instr.pwr.injEq]; exact ⟨finOf _ (by simp only [fld]; omega), finOf _ (by simp only [fld]; omega)⟩))) rest hw

theorem Sys2Proof.Laws.Encoding.li (p : Pred) (d : Fin 32) (i : BitVec 14) : Sys2Proof.Laws.Encoding.Statement (.li p d i) := by
  have := i.isLt
  refine ⟨fun hw _ rest => ?_, fun _ h => (Bool.false_ne_true h).elim⟩
  exact roundOne 35 (0x11800000 + p.val * 0x80000 + d.val * 0x4000 + i.toNat) (by omega) (by decide) rfl (congrArg some (slotIs rfl rfl (by rw [Sys2Proof.Instr.li.injEq]; exact ⟨finOf _ (by simp only [fld]; omega), finOf _ (by simp only [fld]; omega), bvOf _ (by simp only [fld]; omega)⟩))) rest hw

theorem Sys2Proof.Laws.Encoding.lit (p : Pred) (d : Fin 32) (x : BitVec 32) : Sys2Proof.Laws.Encoding.Statement (.lit p d x) := by
  refine ⟨fun hw _ rest => ?_, fun _ h => (Bool.false_ne_true h).elim⟩
  exact roundTwo 36 (0x12000000 + p.val * 0x80000 + d.val * 0x4000) _ (by omega) (by decide) rfl (congrArg some (slotIs (beqOf (by simp only [fld]; omega)) rfl (by rw [Sys2Proof.Instr.lit.injEq]; exact ⟨finOf _ (by simp only [fld]; omega), finOf _ (by simp only [fld]; omega), rfl⟩))) rest hw

theorem Sys2Proof.Laws.Encoding.lith (p : Pred) (d : Fin 32) (x : BitVec 32) : Sys2Proof.Laws.Encoding.Statement (.lith p d x) := by
  refine ⟨fun hw _ rest => ?_, fun _ h => (Bool.false_ne_true h).elim⟩
  exact roundTwo 37 (0x12800000 + p.val * 0x80000 + d.val * 0x4000) _ (by omega) (by decide) rfl (congrArg some (slotIs (beqOf (by simp only [fld]; omega)) rfl (by rw [Sys2Proof.Instr.lith.injEq]; exact ⟨finOf _ (by simp only [fld]; omega), finOf _ (by simp only [fld]; omega), rfl⟩))) rest hw

theorem Sys2Proof.Laws.Encoding.ld (p : Pred) (d : Fin 32) (a : Fin 32) (i : BitVec 9) : Sys2Proof.Laws.Encoding.Statement (.ld p d a i) := by
  have := i.isLt
  refine ⟨fun hw _ rest => ?_, fun _ h => (Bool.false_ne_true h).elim⟩
  exact roundOne 38 (0x13000000 + p.val * 0x80000 + d.val * 0x4000 + a.val * 0x200 + i.toNat) (by omega) (by decide) rfl (congrArg some (slotIs rfl rfl (by rw [Sys2Proof.Instr.ld.injEq]; exact ⟨finOf _ (by simp only [fld]; omega), finOf _ (by simp only [fld]; omega), finOf _ (by simp only [fld]; omega), bvOf _ (by simp only [fld]; omega)⟩))) rest hw

theorem Sys2Proof.Laws.Encoding.ldx (p : Pred) (d : Fin 32) (a : Fin 32) (b : Fin 32) (e : Bool) (w : Fin 4) : Sys2Proof.Laws.Encoding.Statement (.ldx p d a b e w) := by
  have := Bool.toNat_lt e
  refine ⟨fun hw _ rest => ?_, fun _ h => (Bool.false_ne_true h).elim⟩
  exact roundOne 39 (0x13800000 + p.val * 0x80000 + d.val * 0x4000 + a.val * 0x200 + b.val * 0x10 + e.toNat * 0x4 + w.val) (by omega) (by decide) rfl (congrArg some (slotIs (beqOf (by simp only [fld]; omega)) rfl (by rw [Sys2Proof.Instr.ldx.injEq]; exact ⟨finOf _ (by simp only [fld]; omega), finOf _ (by simp only [fld]; omega), finOf _ (by simp only [fld]; omega), finOf _ (by simp only [fld]; omega), boolOf _ (by simp only [fld]; omega), finOf _ (by simp only [fld]; omega)⟩))) rest hw

theorem Sys2Proof.Laws.Encoding.st (p : Pred) (s : Fin 32) (a : Fin 32) (i : BitVec 9) : Sys2Proof.Laws.Encoding.Statement (.st p s a i) := by
  have := i.isLt
  refine ⟨fun hw _ rest => ?_, fun _ h => (Bool.false_ne_true h).elim⟩
  exact roundOne 40 (0x14000000 + p.val * 0x80000 + s.val * 0x4000 + a.val * 0x200 + i.toNat) (by omega) (by decide) rfl (congrArg some (slotIs rfl rfl (by rw [Sys2Proof.Instr.st.injEq]; exact ⟨finOf _ (by simp only [fld]; omega), finOf _ (by simp only [fld]; omega), finOf _ (by simp only [fld]; omega), bvOf _ (by simp only [fld]; omega)⟩))) rest hw

theorem Sys2Proof.Laws.Encoding.stx (p : Pred) (s : Fin 32) (a : Fin 32) (b : Fin 32) (e : Bool) (w : Fin 4) : Sys2Proof.Laws.Encoding.Statement (.stx p s a b e w) := by
  have := Bool.toNat_lt e
  refine ⟨fun hw _ rest => ?_, fun _ h => (Bool.false_ne_true h).elim⟩
  exact roundOne 41 (0x14800000 + p.val * 0x80000 + s.val * 0x4000 + a.val * 0x200 + b.val * 0x10 + e.toNat * 0x4 + w.val) (by omega) (by decide) rfl (congrArg some (slotIs (beqOf (by simp only [fld]; omega)) rfl (by rw [Sys2Proof.Instr.stx.injEq]; exact ⟨finOf _ (by simp only [fld]; omega), finOf _ (by simp only [fld]; omega), finOf _ (by simp only [fld]; omega), finOf _ (by simp only [fld]; omega), boolOf _ (by simp only [fld]; omega), finOf _ (by simp only [fld]; omega)⟩))) rest hw

theorem Sys2Proof.Laws.Encoding.cvta (p : Pred) (d : Fin 32) (a : Fin 32) (w : Window) : Sys2Proof.Laws.Encoding.Statement (.cvta p d a w) := by
  refine ⟨fun hw _ rest => ?_, fun _ h => (Bool.false_ne_true h).elim⟩
  exact roundOne 42 (0x15000000 + p.val * 0x80000 + d.val * 0x4000 + a.val * 0x200 + w.code.val) (by omega) (by decide) rfl (congrArg some (slotIs (beqOf (by simp only [fld]; omega)) rfl (by rw [Sys2Proof.Instr.cvta.injEq]; exact ⟨finOf _ (by simp only [fld]; omega), finOf _ (by simp only [fld]; omega), finOf _ (by simp only [fld]; omega), winOf _ (by simp only [fld]; omega)⟩))) rest hw

theorem Sys2Proof.Laws.Encoding.isap (p : Pred) (d : Fin 16) (a : Fin 32) (w : Window) : Sys2Proof.Laws.Encoding.Statement (.isap p d a w) := by
  refine ⟨fun hw _ rest => ?_, fun _ h => (Bool.false_ne_true h).elim⟩
  exact roundOne 43 (0x15800000 + p.val * 0x80000 + d.val * 0x4000 + a.val * 0x200 + w.code.val) (by omega) (by decide) rfl (congrArg some (slotIs (andOf (beqOf (by simp only [fld]; omega)) (beqOf (by simp only [fld]; omega))) rfl (by rw [Sys2Proof.Instr.isap.injEq]; exact ⟨finOf _ (by simp only [fld]; omega), finOf _ (by simp only [fld]; omega), finOf _ (by simp only [fld]; omega), winOf _ (by simp only [fld]; omega)⟩))) rest hw

theorem Sys2Proof.Laws.Encoding.br (p : Pred) (o : BitVec 19) : Sys2Proof.Laws.Encoding.Statement (.br p o) := by
  have := o.isLt
  refine ⟨fun hw _ rest => ?_, fun _ h => (Bool.false_ne_true h).elim⟩
  exact roundOne 44 (0x16000000 + p.val * 0x80000 + o.toNat) (by omega) (by decide) rfl (congrArg some (slotIs rfl rfl (by rw [Sys2Proof.Instr.br.injEq]; exact ⟨finOf _ (by simp only [fld]; omega), bvOf _ (by simp only [fld]; omega)⟩))) rest hw

theorem Sys2Proof.Laws.Encoding.call (p : Pred) (o : BitVec 19) : Sys2Proof.Laws.Encoding.Statement (.call p o) := by
  have := o.isLt
  refine ⟨fun hw _ rest => ?_, fun _ h => (Bool.false_ne_true h).elim⟩
  exact roundOne 45 (0x16800000 + p.val * 0x80000 + o.toNat) (by omega) (by decide) rfl (congrArg some (slotIs rfl rfl (by rw [Sys2Proof.Instr.call.injEq]; exact ⟨finOf _ (by simp only [fld]; omega), bvOf _ (by simp only [fld]; omega)⟩))) rest hw

theorem Sys2Proof.Laws.Encoding.jr (p : Pred) (a : Fin 32) : Sys2Proof.Laws.Encoding.Statement (.jr p a) := by
  refine ⟨fun hw _ rest => ?_, fun _ h => (Bool.false_ne_true h).elim⟩
  exact roundOne 46 (0x17000000 + p.val * 0x80000 + a.val * 0x200) (by omega) (by decide) rfl (congrArg some (slotIs (andOf (beqOf (by simp only [fld]; omega)) (beqOf (by simp only [fld]; omega))) rfl (by rw [Sys2Proof.Instr.jr.injEq]; exact ⟨finOf _ (by simp only [fld]; omega), finOf _ (by simp only [fld]; omega)⟩))) rest hw

theorem Sys2Proof.Laws.Encoding.loopb (p : Pred) (o : BitVec 19) : Sys2Proof.Laws.Encoding.Statement (.loopb p o) := by
  have := o.isLt
  refine ⟨fun hw _ rest => ?_, fun _ h => (Bool.false_ne_true h).elim⟩
  exact roundOne 47 (0x17800000 + p.val * 0x80000 + o.toNat) (by omega) (by decide) rfl (congrArg some (slotIs rfl rfl (by rw [Sys2Proof.Instr.loopb.injEq]; exact ⟨finOf _ (by simp only [fld]; omega), bvOf _ (by simp only [fld]; omega)⟩))) rest hw

theorem Sys2Proof.Laws.Encoding.push (p : Pred) (q : Fin 16) (s : Fin 32) : Sys2Proof.Laws.Encoding.Statement (.push p q s) := by
  refine ⟨fun hw _ rest => ?_, fun _ h => (Bool.false_ne_true h).elim⟩
  exact roundOne 48 (0x18000000 + p.val * 0x80000 + q.val * 0x8000 + s.val * 0x400) (by omega) (by decide) rfl (congrArg some (slotIs (beqOf (by simp only [fld]; omega)) rfl (by rw [Sys2Proof.Instr.push.injEq]; exact ⟨finOf _ (by simp only [fld]; omega), finOf _ (by simp only [fld]; omega), finOf _ (by simp only [fld]; omega)⟩))) rest hw

theorem Sys2Proof.Laws.Encoding.pop (p : Pred) (q : Fin 16) (d : Fin 32) : Sys2Proof.Laws.Encoding.Statement (.pop p q d) := by
  refine ⟨fun hw _ rest => ?_, fun _ h => (Bool.false_ne_true h).elim⟩
  exact roundOne 49 (0x18800000 + p.val * 0x80000 + q.val * 0x8000 + d.val * 0x400) (by omega) (by decide) rfl (congrArg some (slotIs (beqOf (by simp only [fld]; omega)) rfl (by rw [Sys2Proof.Instr.pop.injEq]; exact ⟨finOf _ (by simp only [fld]; omega), finOf _ (by simp only [fld]; omega), finOf _ (by simp only [fld]; omega)⟩))) rest hw

theorem Sys2Proof.Laws.Encoding.peek (p : Pred) (q : Fin 16) (d : Fin 32) : Sys2Proof.Laws.Encoding.Statement (.peek p q d) := by
  refine ⟨fun hw _ rest => ?_, fun _ h => (Bool.false_ne_true h).elim⟩
  exact roundOne 50 (0x19000000 + p.val * 0x80000 + q.val * 0x8000 + d.val * 0x400) (by omega) (by decide) rfl (congrArg some (slotIs (beqOf (by simp only [fld]; omega)) rfl (by rw [Sys2Proof.Instr.peek.injEq]; exact ⟨finOf _ (by simp only [fld]; omega), finOf _ (by simp only [fld]; omega), finOf _ (by simp only [fld]; omega)⟩))) rest hw

theorem Sys2Proof.Laws.Encoding.qfence (p : Pred) (m : BitVec 12) : Sys2Proof.Laws.Encoding.Statement (.qfence p m) := by
  have := m.isLt
  refine ⟨fun hw _ rest => ?_, fun _ h => (Bool.false_ne_true h).elim⟩
  exact roundOne 51 (0x19800000 + p.val * 0x80000 + m.toNat) (by omega) (by decide) rfl (congrArg some (slotIs (beqOf (by simp only [fld]; omega)) rfl (by rw [Sys2Proof.Instr.qfence.injEq]; exact ⟨finOf _ (by simp only [fld]; omega), bvOf _ (by simp only [fld]; omega)⟩))) rest hw

theorem Sys2Proof.Laws.Encoding.mfsr (p : Pred) (d : Fin 32) (n : Fin 16384) : Sys2Proof.Laws.Encoding.Statement (.mfsr p d n) := by
  refine ⟨fun hw _ rest => ?_, fun _ h => (Bool.false_ne_true h).elim⟩
  exact roundOne 52 (0x1A000000 + p.val * 0x80000 + d.val * 0x4000 + n.val) (by omega) (by decide) rfl (congrArg some (slotIs rfl rfl (by rw [Sys2Proof.Instr.mfsr.injEq]; exact ⟨finOf _ (by simp only [fld]; omega), finOf _ (by simp only [fld]; omega), finOf _ (by simp only [fld]; omega)⟩))) rest hw

theorem Sys2Proof.Laws.Encoding.mtsr (p : Pred) (s : Fin 32) (n : Fin 16384) : Sys2Proof.Laws.Encoding.Statement (.mtsr p s n) := by
  refine ⟨fun hw _ rest => ?_, fun _ h => (Bool.false_ne_true h).elim⟩
  exact roundOne 53 (0x1A800000 + p.val * 0x80000 + s.val * 0x4000 + n.val) (by omega) (by decide) rfl (congrArg some (slotIs rfl rfl (by rw [Sys2Proof.Instr.mtsr.injEq]; exact ⟨finOf _ (by simp only [fld]; omega), finOf _ (by simp only [fld]; omega), finOf _ (by simp only [fld]; omega)⟩))) rest hw

theorem Sys2Proof.Laws.Encoding.uret (p : Pred) : Sys2Proof.Laws.Encoding.Statement (.uret p) := by
  refine ⟨fun hw _ rest => ?_, fun _ h => (Bool.false_ne_true h).elim⟩
  exact roundOne 54 (0x1B000000 + p.val * 0x80000) (by omega) (by decide) rfl (congrArg some (slotIs (beqOf (by simp only [fld]; omega)) rfl (by rw [Sys2Proof.Instr.uret.injEq]; exact finOf _ (by simp only [fld]; omega)))) rest hw

theorem Sys2Proof.Laws.Encoding.sext (p : Pred) (d : Fin 32) (a : Fin 32) (e : Bool) (w : Fin 4) : Sys2Proof.Laws.Encoding.Statement (.sext p d a e w) := by
  have := Bool.toNat_lt e
  refine ⟨fun hw _ rest => ?_, fun _ h => (Bool.false_ne_true h).elim⟩
  exact roundOne 55 (0x1B800000 + p.val * 0x80000 + d.val * 0x4000 + a.val * 0x200 + e.toNat * 0x4 + w.val) (by omega) (by decide) rfl (congrArg some (slotIs (beqOf (by simp only [fld]; omega)) rfl (by rw [Sys2Proof.Instr.sext.injEq]; exact ⟨finOf _ (by simp only [fld]; omega), finOf _ (by simp only [fld]; omega), finOf _ (by simp only [fld]; omega), boolOf _ (by simp only [fld]; omega), finOf _ (by simp only [fld]; omega)⟩))) rest hw

theorem Sys2Proof.Laws.Encoding.zext (p : Pred) (d : Fin 32) (a : Fin 32) (e : Bool) (w : Fin 4) : Sys2Proof.Laws.Encoding.Statement (.zext p d a e w) := by
  have := Bool.toNat_lt e
  refine ⟨fun hw _ rest => ?_, fun _ h => (Bool.false_ne_true h).elim⟩
  exact roundOne 56 (0x1C000000 + p.val * 0x80000 + d.val * 0x4000 + a.val * 0x200 + e.toNat * 0x4 + w.val) (by omega) (by decide) rfl (congrArg some (slotIs (beqOf (by simp only [fld]; omega)) rfl (by rw [Sys2Proof.Instr.zext.injEq]; exact ⟨finOf _ (by simp only [fld]; omega), finOf _ (by simp only [fld]; omega), finOf _ (by simp only [fld]; omega), boolOf _ (by simp only [fld]; omega), finOf _ (by simp only [fld]; omega)⟩))) rest hw

theorem Sys2Proof.Laws.Encoding.clz (p : Pred) (d : Fin 32) (a : Fin 32) : Sys2Proof.Laws.Encoding.Statement (.clz p d a) := by
  refine ⟨fun hw _ rest => ?_, fun _ h => (Bool.false_ne_true h).elim⟩
  exact roundOne 57 (0x1C800000 + p.val * 0x80000 + d.val * 0x4000 + a.val * 0x200) (by omega) (by decide) rfl (congrArg some (slotIs (beqOf (by simp only [fld]; omega)) rfl (by rw [Sys2Proof.Instr.clz.injEq]; exact ⟨finOf _ (by simp only [fld]; omega), finOf _ (by simp only [fld]; omega), finOf _ (by simp only [fld]; omega)⟩))) rest hw

theorem Sys2Proof.Laws.Encoding.popc (p : Pred) (d : Fin 32) (a : Fin 32) : Sys2Proof.Laws.Encoding.Statement (.popc p d a) := by
  refine ⟨fun hw _ rest => ?_, fun _ h => (Bool.false_ne_true h).elim⟩
  exact roundOne 58 (0x1D000000 + p.val * 0x80000 + d.val * 0x4000 + a.val * 0x200) (by omega) (by decide) rfl (congrArg some (slotIs (beqOf (by simp only [fld]; omega)) rfl (by rw [Sys2Proof.Instr.popc.injEq]; exact ⟨finOf _ (by simp only [fld]; omega), finOf _ (by simp only [fld]; omega), finOf _ (by simp only [fld]; omega)⟩))) rest hw

theorem Sys2Proof.Laws.Encoding.setlc (p : Pred) (s : Fin 32) (i : BitVec 14) : Sys2Proof.Laws.Encoding.Statement (.setlc p s i) := by
  have := i.isLt
  refine ⟨fun hw _ rest => ?_, fun _ h => (Bool.false_ne_true h).elim⟩
  exact roundOne 59 (0x1D800000 + p.val * 0x80000 + s.val * 0x4000 + i.toNat) (by omega) (by decide) rfl (congrArg some (slotIs rfl rfl (by rw [Sys2Proof.Instr.setlc.injEq]; exact ⟨finOf _ (by simp only [fld]; omega), finOf _ (by simp only [fld]; omega), bvOf _ (by simp only [fld]; omega)⟩))) rest hw

theorem Sys2Proof.Laws.Encoding.setec (p : Pred) (s : Fin 32) (i : BitVec 14) : Sys2Proof.Laws.Encoding.Statement (.setec p s i) := by
  have := i.isLt
  refine ⟨fun hw _ rest => ?_, fun _ h => (Bool.false_ne_true h).elim⟩
  exact roundOne 60 (0x1E000000 + p.val * 0x80000 + s.val * 0x4000 + i.toNat) (by omega) (by decide) rfl (congrArg some (slotIs rfl rfl (by rw [Sys2Proof.Instr.setec.injEq]; exact ⟨finOf _ (by simp only [fld]; omega), finOf _ (by simp only [fld]; omega), bvOf _ (by simp only [fld]; omega)⟩))) rest hw

theorem Sys2Proof.Laws.Encoding.setrot (p : Pred) (s : Fin 32) (i : BitVec 14) : Sys2Proof.Laws.Encoding.Statement (.setrot p s i) := by
  have := i.isLt
  refine ⟨fun hw _ rest => ?_, fun _ h => (Bool.false_ne_true h).elim⟩
  exact roundOne 61 (0x1E800000 + p.val * 0x80000 + s.val * 0x4000 + i.toNat) (by omega) (by decide) rfl (congrArg some (slotIs rfl rfl (by rw [Sys2Proof.Instr.setrot.injEq]; exact ⟨finOf _ (by simp only [fld]; omega), finOf _ (by simp only [fld]; omega), bvOf _ (by simp only [fld]; omega)⟩))) rest hw

theorem Sys2Proof.Laws.Encoding.vSeta (p : Pred) (q : Fin 16) (d : Fin 16) : Sys2Proof.Laws.Encoding.Statement (.vSeta p q d) := by
  refine ⟨fun hw _ rest => ?_, fun _ h => (Bool.false_ne_true h).elim⟩
  exact roundOne 64 (0x20000000 + p.val * 0x80000 + q.val * 0x8000 + d.val * 0x400) (by omega) (by decide) rfl (congrArg some (slotIs (andOf (beqOf (by simp only [fld]; omega)) (beqOf (by simp only [fld]; omega))) rfl (by rw [Sys2Proof.Instr.vSeta.injEq]; exact ⟨finOf _ (by simp only [fld]; omega), finOf _ (by simp only [fld]; omega), finOf _ (by simp only [fld]; omega)⟩))) rest hw

theorem Sys2Proof.Laws.Encoding.vAdd (p : Pred) (t : ElemType) (r : Rounding) (d : Fin 16) (a : Fin 16) (s : Bool) (b : Fin 16) : Sys2Proof.Laws.Encoding.Statement (.vAdd p t r d a s b) := by
  have := Bool.toNat_lt s
  obtain ⟨r1, r0, hr1, hr0, _, _, hr⟩ := split2 r.code.val (by omega)
  have he : encode (Instr.vAdd p t r d a s b) = [BitVec.ofNat 32 (0x20800000 + p.val * 0x80000 + t.code.val * 0x8000 + r1 * 0x4000 + r0 * 0x200 + d.val * 0x400 + a.val * 0x20 + s.toNat * 0x10 + b.val)] := by
    rw [← hr1, ← hr0]; rfl
  clear hr1 hr0
  refine ⟨fun hw _ rest => ?_, fun _ h => (Bool.false_ne_true h).elim⟩
  exact roundOne 65 (0x20800000 + p.val * 0x80000 + t.code.val * 0x8000 + r1 * 0x4000 + r0 * 0x200 + d.val * 0x400 + a.val * 0x20 + s.toNat * 0x10 + b.val) (by omega) (by decide) he (congrArg some (slotIs rfl rfl (by rw [Sys2Proof.Instr.vAdd.injEq]; exact ⟨finOf _ (by simp only [fld]; omega), tyOf _ (by simp only [fld]; omega), rndOf _ (joined hr (by simp only [fld]; omega)), finOf _ (by simp only [fld]; omega), finOf _ (by simp only [fld]; omega), boolOf _ (by simp only [fld]; omega), finOf _ (by simp only [fld]; omega)⟩))) rest hw

theorem Sys2Proof.Laws.Encoding.vSub (p : Pred) (t : ElemType) (r : Rounding) (d : Fin 16) (a : Fin 16) (s : Bool) (b : Fin 16) : Sys2Proof.Laws.Encoding.Statement (.vSub p t r d a s b) := by
  have := Bool.toNat_lt s
  obtain ⟨r1, r0, hr1, hr0, _, _, hr⟩ := split2 r.code.val (by omega)
  have he : encode (Instr.vSub p t r d a s b) = [BitVec.ofNat 32 (0x21000000 + p.val * 0x80000 + t.code.val * 0x8000 + r1 * 0x4000 + r0 * 0x200 + d.val * 0x400 + a.val * 0x20 + s.toNat * 0x10 + b.val)] := by
    rw [← hr1, ← hr0]; rfl
  clear hr1 hr0
  refine ⟨fun hw _ rest => ?_, fun _ h => (Bool.false_ne_true h).elim⟩
  exact roundOne 66 (0x21000000 + p.val * 0x80000 + t.code.val * 0x8000 + r1 * 0x4000 + r0 * 0x200 + d.val * 0x400 + a.val * 0x20 + s.toNat * 0x10 + b.val) (by omega) (by decide) he (congrArg some (slotIs rfl rfl (by rw [Sys2Proof.Instr.vSub.injEq]; exact ⟨finOf _ (by simp only [fld]; omega), tyOf _ (by simp only [fld]; omega), rndOf _ (joined hr (by simp only [fld]; omega)), finOf _ (by simp only [fld]; omega), finOf _ (by simp only [fld]; omega), boolOf _ (by simp only [fld]; omega), finOf _ (by simp only [fld]; omega)⟩))) rest hw

theorem Sys2Proof.Laws.Encoding.vMul (p : Pred) (t : ElemType) (r : Rounding) (d : Fin 16) (a : Fin 16) (s : Bool) (b : Fin 16) : Sys2Proof.Laws.Encoding.Statement (.vMul p t r d a s b) := by
  have := Bool.toNat_lt s
  obtain ⟨r1, r0, hr1, hr0, _, _, hr⟩ := split2 r.code.val (by omega)
  have he : encode (Instr.vMul p t r d a s b) = [BitVec.ofNat 32 (0x21800000 + p.val * 0x80000 + t.code.val * 0x8000 + r1 * 0x4000 + r0 * 0x200 + d.val * 0x400 + a.val * 0x20 + s.toNat * 0x10 + b.val)] := by
    rw [← hr1, ← hr0]; rfl
  clear hr1 hr0
  refine ⟨fun hw _ rest => ?_, fun _ h => (Bool.false_ne_true h).elim⟩
  exact roundOne 67 (0x21800000 + p.val * 0x80000 + t.code.val * 0x8000 + r1 * 0x4000 + r0 * 0x200 + d.val * 0x400 + a.val * 0x20 + s.toNat * 0x10 + b.val) (by omega) (by decide) he (congrArg some (slotIs rfl rfl (by rw [Sys2Proof.Instr.vMul.injEq]; exact ⟨finOf _ (by simp only [fld]; omega), tyOf _ (by simp only [fld]; omega), rndOf _ (joined hr (by simp only [fld]; omega)), finOf _ (by simp only [fld]; omega), finOf _ (by simp only [fld]; omega), boolOf _ (by simp only [fld]; omega), finOf _ (by simp only [fld]; omega)⟩))) rest hw

theorem Sys2Proof.Laws.Encoding.vDiv (p : Pred) (t : ElemType) (r : Rounding) (d : Fin 16) (a : Fin 16) (s : Bool) (b : Fin 16) : Sys2Proof.Laws.Encoding.Statement (.vDiv p t r d a s b) := by
  have := Bool.toNat_lt s
  obtain ⟨r1, r0, hr1, hr0, _, _, hr⟩ := split2 r.code.val (by omega)
  have he : encode (Instr.vDiv p t r d a s b) = [BitVec.ofNat 32 (0x22000000 + p.val * 0x80000 + t.code.val * 0x8000 + r1 * 0x4000 + r0 * 0x200 + d.val * 0x400 + a.val * 0x20 + s.toNat * 0x10 + b.val)] := by
    rw [← hr1, ← hr0]; rfl
  clear hr1 hr0
  refine ⟨fun hw _ rest => ?_, fun _ h => (Bool.false_ne_true h).elim⟩
  exact roundOne 68 (0x22000000 + p.val * 0x80000 + t.code.val * 0x8000 + r1 * 0x4000 + r0 * 0x200 + d.val * 0x400 + a.val * 0x20 + s.toNat * 0x10 + b.val) (by omega) (by decide) he (congrArg some (slotIs rfl rfl (by rw [Sys2Proof.Instr.vDiv.injEq]; exact ⟨finOf _ (by simp only [fld]; omega), tyOf _ (by simp only [fld]; omega), rndOf _ (joined hr (by simp only [fld]; omega)), finOf _ (by simp only [fld]; omega), finOf _ (by simp only [fld]; omega), boolOf _ (by simp only [fld]; omega), finOf _ (by simp only [fld]; omega)⟩))) rest hw

theorem Sys2Proof.Laws.Encoding.vFma (p : Pred) (t : ElemType) (r : Rounding) (d : Fin 16) (a : Fin 16) (s : Bool) (b : Fin 16) : Sys2Proof.Laws.Encoding.Statement (.vFma p t r d a s b) := by
  have := Bool.toNat_lt s
  obtain ⟨r1, r0, hr1, hr0, _, _, hr⟩ := split2 r.code.val (by omega)
  have he : encode (Instr.vFma p t r d a s b) = [BitVec.ofNat 32 (0x22800000 + p.val * 0x80000 + t.code.val * 0x8000 + r1 * 0x4000 + r0 * 0x200 + d.val * 0x400 + a.val * 0x20 + s.toNat * 0x10 + b.val)] := by
    rw [← hr1, ← hr0]; rfl
  clear hr1 hr0
  refine ⟨fun hw _ rest => ?_, fun _ h => (Bool.false_ne_true h).elim⟩
  exact roundOne 69 (0x22800000 + p.val * 0x80000 + t.code.val * 0x8000 + r1 * 0x4000 + r0 * 0x200 + d.val * 0x400 + a.val * 0x20 + s.toNat * 0x10 + b.val) (by omega) (by decide) he (congrArg some (slotIs rfl rfl (by rw [Sys2Proof.Instr.vFma.injEq]; exact ⟨finOf _ (by simp only [fld]; omega), tyOf _ (by simp only [fld]; omega), rndOf _ (joined hr (by simp only [fld]; omega)), finOf _ (by simp only [fld]; omega), finOf _ (by simp only [fld]; omega), boolOf _ (by simp only [fld]; omega), finOf _ (by simp only [fld]; omega)⟩))) rest hw

theorem Sys2Proof.Laws.Encoding.vFms (p : Pred) (t : ElemType) (r : Rounding) (d : Fin 16) (a : Fin 16) (s : Bool) (b : Fin 16) : Sys2Proof.Laws.Encoding.Statement (.vFms p t r d a s b) := by
  have := Bool.toNat_lt s
  obtain ⟨r1, r0, hr1, hr0, _, _, hr⟩ := split2 r.code.val (by omega)
  have he : encode (Instr.vFms p t r d a s b) = [BitVec.ofNat 32 (0x23000000 + p.val * 0x80000 + t.code.val * 0x8000 + r1 * 0x4000 + r0 * 0x200 + d.val * 0x400 + a.val * 0x20 + s.toNat * 0x10 + b.val)] := by
    rw [← hr1, ← hr0]; rfl
  clear hr1 hr0
  refine ⟨fun hw _ rest => ?_, fun _ h => (Bool.false_ne_true h).elim⟩
  exact roundOne 70 (0x23000000 + p.val * 0x80000 + t.code.val * 0x8000 + r1 * 0x4000 + r0 * 0x200 + d.val * 0x400 + a.val * 0x20 + s.toNat * 0x10 + b.val) (by omega) (by decide) he (congrArg some (slotIs rfl rfl (by rw [Sys2Proof.Instr.vFms.injEq]; exact ⟨finOf _ (by simp only [fld]; omega), tyOf _ (by simp only [fld]; omega), rndOf _ (joined hr (by simp only [fld]; omega)), finOf _ (by simp only [fld]; omega), finOf _ (by simp only [fld]; omega), boolOf _ (by simp only [fld]; omega), finOf _ (by simp only [fld]; omega)⟩))) rest hw

theorem Sys2Proof.Laws.Encoding.vFnma (p : Pred) (t : ElemType) (r : Rounding) (d : Fin 16) (a : Fin 16) (s : Bool) (b : Fin 16) : Sys2Proof.Laws.Encoding.Statement (.vFnma p t r d a s b) := by
  have := Bool.toNat_lt s
  obtain ⟨r1, r0, hr1, hr0, _, _, hr⟩ := split2 r.code.val (by omega)
  have he : encode (Instr.vFnma p t r d a s b) = [BitVec.ofNat 32 (0x23800000 + p.val * 0x80000 + t.code.val * 0x8000 + r1 * 0x4000 + r0 * 0x200 + d.val * 0x400 + a.val * 0x20 + s.toNat * 0x10 + b.val)] := by
    rw [← hr1, ← hr0]; rfl
  clear hr1 hr0
  refine ⟨fun hw _ rest => ?_, fun _ h => (Bool.false_ne_true h).elim⟩
  exact roundOne 71 (0x23800000 + p.val * 0x80000 + t.code.val * 0x8000 + r1 * 0x4000 + r0 * 0x200 + d.val * 0x400 + a.val * 0x20 + s.toNat * 0x10 + b.val) (by omega) (by decide) he (congrArg some (slotIs rfl rfl (by rw [Sys2Proof.Instr.vFnma.injEq]; exact ⟨finOf _ (by simp only [fld]; omega), tyOf _ (by simp only [fld]; omega), rndOf _ (joined hr (by simp only [fld]; omega)), finOf _ (by simp only [fld]; omega), finOf _ (by simp only [fld]; omega), boolOf _ (by simp only [fld]; omega), finOf _ (by simp only [fld]; omega)⟩))) rest hw

theorem Sys2Proof.Laws.Encoding.vMin (p : Pred) (t : ElemType) (r : Rounding) (d : Fin 16) (a : Fin 16) (s : Bool) (b : Fin 16) : Sys2Proof.Laws.Encoding.Statement (.vMin p t r d a s b) := by
  have := Bool.toNat_lt s
  obtain ⟨r1, r0, hr1, hr0, _, _, hr⟩ := split2 r.code.val (by omega)
  have he : encode (Instr.vMin p t r d a s b) = [BitVec.ofNat 32 (0x24000000 + p.val * 0x80000 + t.code.val * 0x8000 + r1 * 0x4000 + r0 * 0x200 + d.val * 0x400 + a.val * 0x20 + s.toNat * 0x10 + b.val)] := by
    rw [← hr1, ← hr0]; rfl
  clear hr1 hr0
  refine ⟨fun hw _ rest => ?_, fun _ h => (Bool.false_ne_true h).elim⟩
  exact roundOne 72 (0x24000000 + p.val * 0x80000 + t.code.val * 0x8000 + r1 * 0x4000 + r0 * 0x200 + d.val * 0x400 + a.val * 0x20 + s.toNat * 0x10 + b.val) (by omega) (by decide) he (congrArg some (slotIs rfl rfl (by rw [Sys2Proof.Instr.vMin.injEq]; exact ⟨finOf _ (by simp only [fld]; omega), tyOf _ (by simp only [fld]; omega), rndOf _ (joined hr (by simp only [fld]; omega)), finOf _ (by simp only [fld]; omega), finOf _ (by simp only [fld]; omega), boolOf _ (by simp only [fld]; omega), finOf _ (by simp only [fld]; omega)⟩))) rest hw

theorem Sys2Proof.Laws.Encoding.vMax (p : Pred) (t : ElemType) (r : Rounding) (d : Fin 16) (a : Fin 16) (s : Bool) (b : Fin 16) : Sys2Proof.Laws.Encoding.Statement (.vMax p t r d a s b) := by
  have := Bool.toNat_lt s
  obtain ⟨r1, r0, hr1, hr0, _, _, hr⟩ := split2 r.code.val (by omega)
  have he : encode (Instr.vMax p t r d a s b) = [BitVec.ofNat 32 (0x24800000 + p.val * 0x80000 + t.code.val * 0x8000 + r1 * 0x4000 + r0 * 0x200 + d.val * 0x400 + a.val * 0x20 + s.toNat * 0x10 + b.val)] := by
    rw [← hr1, ← hr0]; rfl
  clear hr1 hr0
  refine ⟨fun hw _ rest => ?_, fun _ h => (Bool.false_ne_true h).elim⟩
  exact roundOne 73 (0x24800000 + p.val * 0x80000 + t.code.val * 0x8000 + r1 * 0x4000 + r0 * 0x200 + d.val * 0x400 + a.val * 0x20 + s.toNat * 0x10 + b.val) (by omega) (by decide) he (congrArg some (slotIs rfl rfl (by rw [Sys2Proof.Instr.vMax.injEq]; exact ⟨finOf _ (by simp only [fld]; omega), tyOf _ (by simp only [fld]; omega), rndOf _ (joined hr (by simp only [fld]; omega)), finOf _ (by simp only [fld]; omega), finOf _ (by simp only [fld]; omega), boolOf _ (by simp only [fld]; omega), finOf _ (by simp only [fld]; omega)⟩))) rest hw

theorem Sys2Proof.Laws.Encoding.vAbs (p : Pred) (t : ElemType) (r : Rounding) (d : Fin 16) (a : Fin 16) (s : Bool) : Sys2Proof.Laws.Encoding.Statement (.vAbs p t r d a s) := by
  have := Bool.toNat_lt s
  obtain ⟨r1, r0, hr1, hr0, _, _, hr⟩ := split2 r.code.val (by omega)
  have he : encode (Instr.vAbs p t r d a s) = [BitVec.ofNat 32 (0x25000000 + p.val * 0x80000 + t.code.val * 0x8000 + r1 * 0x4000 + r0 * 0x200 + d.val * 0x400 + a.val * 0x20 + s.toNat * 0x10)] := by
    rw [← hr1, ← hr0]; rfl
  clear hr1 hr0
  refine ⟨fun hw _ rest => ?_, fun _ h => (Bool.false_ne_true h).elim⟩
  exact roundOne 74 (0x25000000 + p.val * 0x80000 + t.code.val * 0x8000 + r1 * 0x4000 + r0 * 0x200 + d.val * 0x400 + a.val * 0x20 + s.toNat * 0x10) (by omega) (by decide) he (congrArg some (slotIs (beqOf (by simp only [fld]; omega)) rfl (by rw [Sys2Proof.Instr.vAbs.injEq]; exact ⟨finOf _ (by simp only [fld]; omega), tyOf _ (by simp only [fld]; omega), rndOf _ (joined hr (by simp only [fld]; omega)), finOf _ (by simp only [fld]; omega), finOf _ (by simp only [fld]; omega), boolOf _ (by simp only [fld]; omega)⟩))) rest hw

theorem Sys2Proof.Laws.Encoding.vNeg (p : Pred) (t : ElemType) (r : Rounding) (d : Fin 16) (a : Fin 16) (s : Bool) : Sys2Proof.Laws.Encoding.Statement (.vNeg p t r d a s) := by
  have := Bool.toNat_lt s
  obtain ⟨r1, r0, hr1, hr0, _, _, hr⟩ := split2 r.code.val (by omega)
  have he : encode (Instr.vNeg p t r d a s) = [BitVec.ofNat 32 (0x25800000 + p.val * 0x80000 + t.code.val * 0x8000 + r1 * 0x4000 + r0 * 0x200 + d.val * 0x400 + a.val * 0x20 + s.toNat * 0x10)] := by
    rw [← hr1, ← hr0]; rfl
  clear hr1 hr0
  refine ⟨fun hw _ rest => ?_, fun _ h => (Bool.false_ne_true h).elim⟩
  exact roundOne 75 (0x25800000 + p.val * 0x80000 + t.code.val * 0x8000 + r1 * 0x4000 + r0 * 0x200 + d.val * 0x400 + a.val * 0x20 + s.toNat * 0x10) (by omega) (by decide) he (congrArg some (slotIs (beqOf (by simp only [fld]; omega)) rfl (by rw [Sys2Proof.Instr.vNeg.injEq]; exact ⟨finOf _ (by simp only [fld]; omega), tyOf _ (by simp only [fld]; omega), rndOf _ (joined hr (by simp only [fld]; omega)), finOf _ (by simp only [fld]; omega), finOf _ (by simp only [fld]; omega), boolOf _ (by simp only [fld]; omega)⟩))) rest hw

theorem Sys2Proof.Laws.Encoding.vSqrt (p : Pred) (t : ElemType) (r : Rounding) (d : Fin 16) (a : Fin 16) : Sys2Proof.Laws.Encoding.Statement (.vSqrt p t r d a) := by
  obtain ⟨r1, r0, hr1, hr0, _, _, hr⟩ := split2 r.code.val (by omega)
  have he : encode (Instr.vSqrt p t r d a) = [BitVec.ofNat 32 (0x26000000 + p.val * 0x80000 + t.code.val * 0x8000 + r1 * 0x4000 + r0 * 0x200 + d.val * 0x400 + a.val * 0x20)] := by
    rw [← hr1, ← hr0]; rfl
  clear hr1 hr0
  refine ⟨fun hw _ rest => ?_, fun _ h => (Bool.false_ne_true h).elim⟩
  exact roundOne 76 (0x26000000 + p.val * 0x80000 + t.code.val * 0x8000 + r1 * 0x4000 + r0 * 0x200 + d.val * 0x400 + a.val * 0x20) (by omega) (by decide) he (congrArg some (slotIs (beqOf (by simp only [fld]; omega)) rfl (by rw [Sys2Proof.Instr.vSqrt.injEq]; exact ⟨finOf _ (by simp only [fld]; omega), tyOf _ (by simp only [fld]; omega), rndOf _ (joined hr (by simp only [fld]; omega)), finOf _ (by simp only [fld]; omega), finOf _ (by simp only [fld]; omega)⟩))) rest hw

theorem Sys2Proof.Laws.Encoding.vExp2 (p : Pred) (t : ElemType) (r : Rounding) (d : Fin 16) (a : Fin 16) : Sys2Proof.Laws.Encoding.Statement (.vExp2 p t r d a) := by
  obtain ⟨r1, r0, hr1, hr0, _, _, hr⟩ := split2 r.code.val (by omega)
  have he : encode (Instr.vExp2 p t r d a) = [BitVec.ofNat 32 (0x26800000 + p.val * 0x80000 + t.code.val * 0x8000 + r1 * 0x4000 + r0 * 0x200 + d.val * 0x400 + a.val * 0x20)] := by
    rw [← hr1, ← hr0]; rfl
  clear hr1 hr0
  refine ⟨fun hw _ rest => ?_, fun _ h => (Bool.false_ne_true h).elim⟩
  exact roundOne 77 (0x26800000 + p.val * 0x80000 + t.code.val * 0x8000 + r1 * 0x4000 + r0 * 0x200 + d.val * 0x400 + a.val * 0x20) (by omega) (by decide) he (congrArg some (slotIs (beqOf (by simp only [fld]; omega)) rfl (by rw [Sys2Proof.Instr.vExp2.injEq]; exact ⟨finOf _ (by simp only [fld]; omega), tyOf _ (by simp only [fld]; omega), rndOf _ (joined hr (by simp only [fld]; omega)), finOf _ (by simp only [fld]; omega), finOf _ (by simp only [fld]; omega)⟩))) rest hw

theorem Sys2Proof.Laws.Encoding.vLog2 (p : Pred) (t : ElemType) (r : Rounding) (d : Fin 16) (a : Fin 16) : Sys2Proof.Laws.Encoding.Statement (.vLog2 p t r d a) := by
  obtain ⟨r1, r0, hr1, hr0, _, _, hr⟩ := split2 r.code.val (by omega)
  have he : encode (Instr.vLog2 p t r d a) = [BitVec.ofNat 32 (0x27000000 + p.val * 0x80000 + t.code.val * 0x8000 + r1 * 0x4000 + r0 * 0x200 + d.val * 0x400 + a.val * 0x20)] := by
    rw [← hr1, ← hr0]; rfl
  clear hr1 hr0
  refine ⟨fun hw _ rest => ?_, fun _ h => (Bool.false_ne_true h).elim⟩
  exact roundOne 78 (0x27000000 + p.val * 0x80000 + t.code.val * 0x8000 + r1 * 0x4000 + r0 * 0x200 + d.val * 0x400 + a.val * 0x20) (by omega) (by decide) he (congrArg some (slotIs (beqOf (by simp only [fld]; omega)) rfl (by rw [Sys2Proof.Instr.vLog2.injEq]; exact ⟨finOf _ (by simp only [fld]; omega), tyOf _ (by simp only [fld]; omega), rndOf _ (joined hr (by simp only [fld]; omega)), finOf _ (by simp only [fld]; omega), finOf _ (by simp only [fld]; omega)⟩))) rest hw

theorem Sys2Proof.Laws.Encoding.vRecip (p : Pred) (t : ElemType) (r : Rounding) (d : Fin 16) (a : Fin 16) : Sys2Proof.Laws.Encoding.Statement (.vRecip p t r d a) := by
  obtain ⟨r1, r0, hr1, hr0, _, _, hr⟩ := split2 r.code.val (by omega)
  have he : encode (Instr.vRecip p t r d a) = [BitVec.ofNat 32 (0x27800000 + p.val * 0x80000 + t.code.val * 0x8000 + r1 * 0x4000 + r0 * 0x200 + d.val * 0x400 + a.val * 0x20)] := by
    rw [← hr1, ← hr0]; rfl
  clear hr1 hr0
  refine ⟨fun hw _ rest => ?_, fun _ h => (Bool.false_ne_true h).elim⟩
  exact roundOne 79 (0x27800000 + p.val * 0x80000 + t.code.val * 0x8000 + r1 * 0x4000 + r0 * 0x200 + d.val * 0x400 + a.val * 0x20) (by omega) (by decide) he (congrArg some (slotIs (beqOf (by simp only [fld]; omega)) rfl (by rw [Sys2Proof.Instr.vRecip.injEq]; exact ⟨finOf _ (by simp only [fld]; omega), tyOf _ (by simp only [fld]; omega), rndOf _ (joined hr (by simp only [fld]; omega)), finOf _ (by simp only [fld]; omega), finOf _ (by simp only [fld]; omega)⟩))) rest hw

theorem Sys2Proof.Laws.Encoding.vRsqrt (p : Pred) (t : ElemType) (r : Rounding) (d : Fin 16) (a : Fin 16) : Sys2Proof.Laws.Encoding.Statement (.vRsqrt p t r d a) := by
  obtain ⟨r1, r0, hr1, hr0, _, _, hr⟩ := split2 r.code.val (by omega)
  have he : encode (Instr.vRsqrt p t r d a) = [BitVec.ofNat 32 (0x28000000 + p.val * 0x80000 + t.code.val * 0x8000 + r1 * 0x4000 + r0 * 0x200 + d.val * 0x400 + a.val * 0x20)] := by
    rw [← hr1, ← hr0]; rfl
  clear hr1 hr0
  refine ⟨fun hw _ rest => ?_, fun _ h => (Bool.false_ne_true h).elim⟩
  exact roundOne 80 (0x28000000 + p.val * 0x80000 + t.code.val * 0x8000 + r1 * 0x4000 + r0 * 0x200 + d.val * 0x400 + a.val * 0x20) (by omega) (by decide) he (congrArg some (slotIs (beqOf (by simp only [fld]; omega)) rfl (by rw [Sys2Proof.Instr.vRsqrt.injEq]; exact ⟨finOf _ (by simp only [fld]; omega), tyOf _ (by simp only [fld]; omega), rndOf _ (joined hr (by simp only [fld]; omega)), finOf _ (by simp only [fld]; omega), finOf _ (by simp only [fld]; omega)⟩))) rest hw

theorem Sys2Proof.Laws.Encoding.vTanh (p : Pred) (t : ElemType) (r : Rounding) (d : Fin 16) (a : Fin 16) : Sys2Proof.Laws.Encoding.Statement (.vTanh p t r d a) := by
  obtain ⟨r1, r0, hr1, hr0, _, _, hr⟩ := split2 r.code.val (by omega)
  have he : encode (Instr.vTanh p t r d a) = [BitVec.ofNat 32 (0x28800000 + p.val * 0x80000 + t.code.val * 0x8000 + r1 * 0x4000 + r0 * 0x200 + d.val * 0x400 + a.val * 0x20)] := by
    rw [← hr1, ← hr0]; rfl
  clear hr1 hr0
  refine ⟨fun hw _ rest => ?_, fun _ h => (Bool.false_ne_true h).elim⟩
  exact roundOne 81 (0x28800000 + p.val * 0x80000 + t.code.val * 0x8000 + r1 * 0x4000 + r0 * 0x200 + d.val * 0x400 + a.val * 0x20) (by omega) (by decide) he (congrArg some (slotIs (beqOf (by simp only [fld]; omega)) rfl (by rw [Sys2Proof.Instr.vTanh.injEq]; exact ⟨finOf _ (by simp only [fld]; omega), tyOf _ (by simp only [fld]; omega), rndOf _ (joined hr (by simp only [fld]; omega)), finOf _ (by simp only [fld]; omega), finOf _ (by simp only [fld]; omega)⟩))) rest hw

theorem Sys2Proof.Laws.Encoding.vAnd (p : Pred) (t : ElemType) (d : Fin 16) (a : Fin 16) (b : Fin 16) : Sys2Proof.Laws.Encoding.Statement (.vAnd p t d a b) := by
  refine ⟨fun hw _ rest => ?_, fun _ h => (Bool.false_ne_true h).elim⟩
  exact roundOne 82 (0x29000000 + p.val * 0x80000 + t.code.val * 0x8000 + d.val * 0x400 + a.val * 0x20 + b.val) (by omega) (by decide) rfl (congrArg some (slotIs (andOf (andOf (beqOf (by simp only [fld]; omega)) (beqOf (by simp only [fld]; omega))) (beqOf (by simp only [fld]; omega))) rfl (by rw [Sys2Proof.Instr.vAnd.injEq]; exact ⟨finOf _ (by simp only [fld]; omega), tyOf _ (by simp only [fld]; omega), finOf _ (by simp only [fld]; omega), finOf _ (by simp only [fld]; omega), finOf _ (by simp only [fld]; omega)⟩))) rest hw

theorem Sys2Proof.Laws.Encoding.vOr (p : Pred) (t : ElemType) (d : Fin 16) (a : Fin 16) (b : Fin 16) : Sys2Proof.Laws.Encoding.Statement (.vOr p t d a b) := by
  refine ⟨fun hw _ rest => ?_, fun _ h => (Bool.false_ne_true h).elim⟩
  exact roundOne 83 (0x29800000 + p.val * 0x80000 + t.code.val * 0x8000 + d.val * 0x400 + a.val * 0x20 + b.val) (by omega) (by decide) rfl (congrArg some (slotIs (andOf (andOf (beqOf (by simp only [fld]; omega)) (beqOf (by simp only [fld]; omega))) (beqOf (by simp only [fld]; omega))) rfl (by rw [Sys2Proof.Instr.vOr.injEq]; exact ⟨finOf _ (by simp only [fld]; omega), tyOf _ (by simp only [fld]; omega), finOf _ (by simp only [fld]; omega), finOf _ (by simp only [fld]; omega), finOf _ (by simp only [fld]; omega)⟩))) rest hw

theorem Sys2Proof.Laws.Encoding.vXor (p : Pred) (t : ElemType) (d : Fin 16) (a : Fin 16) (b : Fin 16) : Sys2Proof.Laws.Encoding.Statement (.vXor p t d a b) := by
  refine ⟨fun hw _ rest => ?_, fun _ h => (Bool.false_ne_true h).elim⟩
  exact roundOne 84 (0x2A000000 + p.val * 0x80000 + t.code.val * 0x8000 + d.val * 0x400 + a.val * 0x20 + b.val) (by omega) (by decide) rfl (congrArg some (slotIs (andOf (andOf (beqOf (by simp only [fld]; omega)) (beqOf (by simp only [fld]; omega))) (beqOf (by simp only [fld]; omega))) rfl (by rw [Sys2Proof.Instr.vXor.injEq]; exact ⟨finOf _ (by simp only [fld]; omega), tyOf _ (by simp only [fld]; omega), finOf _ (by simp only [fld]; omega), finOf _ (by simp only [fld]; omega), finOf _ (by simp only [fld]; omega)⟩))) rest hw

theorem Sys2Proof.Laws.Encoding.vShl (p : Pred) (t : ElemType) (d : Fin 16) (a : Fin 16) (b : Fin 16) : Sys2Proof.Laws.Encoding.Statement (.vShl p t d a b) := by
  refine ⟨fun hw _ rest => ?_, fun _ h => (Bool.false_ne_true h).elim⟩
  exact roundOne 85 (0x2A800000 + p.val * 0x80000 + t.code.val * 0x8000 + d.val * 0x400 + a.val * 0x20 + b.val) (by omega) (by decide) rfl (congrArg some (slotIs (andOf (andOf (beqOf (by simp only [fld]; omega)) (beqOf (by simp only [fld]; omega))) (beqOf (by simp only [fld]; omega))) rfl (by rw [Sys2Proof.Instr.vShl.injEq]; exact ⟨finOf _ (by simp only [fld]; omega), tyOf _ (by simp only [fld]; omega), finOf _ (by simp only [fld]; omega), finOf _ (by simp only [fld]; omega), finOf _ (by simp only [fld]; omega)⟩))) rest hw

theorem Sys2Proof.Laws.Encoding.vShr (p : Pred) (t : ElemType) (d : Fin 16) (a : Fin 16) (b : Fin 16) : Sys2Proof.Laws.Encoding.Statement (.vShr p t d a b) := by
  refine ⟨fun hw _ rest => ?_, fun _ h => (Bool.false_ne_true h).elim⟩
  exact roundOne 86 (0x2B000000 + p.val * 0x80000 + t.code.val * 0x8000 + d.val * 0x400 + a.val * 0x20 + b.val) (by omega) (by decide) rfl (congrArg some (slotIs (andOf (andOf (beqOf (by simp only [fld]; omega)) (beqOf (by simp only [fld]; omega))) (beqOf (by simp only [fld]; omega))) rfl (by rw [Sys2Proof.Instr.vShr.injEq]; exact ⟨finOf _ (by simp only [fld]; omega), tyOf _ (by simp only [fld]; omega), finOf _ (by simp only [fld]; omega), finOf _ (by simp only [fld]; omega), finOf _ (by simp only [fld]; omega)⟩))) rest hw

theorem Sys2Proof.Laws.Encoding.vSra (p : Pred) (t : ElemType) (d : Fin 16) (a : Fin 16) (b : Fin 16) : Sys2Proof.Laws.Encoding.Statement (.vSra p t d a b) := by
  refine ⟨fun hw _ rest => ?_, fun _ h => (Bool.false_ne_true h).elim⟩
  exact roundOne 87 (0x2B800000 + p.val * 0x80000 + t.code.val * 0x8000 + d.val * 0x400 + a.val * 0x20 + b.val) (by omega) (by decide) rfl (congrArg some (slotIs (andOf (andOf (beqOf (by simp only [fld]; omega)) (beqOf (by simp only [fld]; omega))) (beqOf (by simp only [fld]; omega))) rfl (by rw [Sys2Proof.Instr.vSra.injEq]; exact ⟨finOf _ (by simp only [fld]; omega), tyOf _ (by simp only [fld]; omega), finOf _ (by simp only [fld]; omega), finOf _ (by simp only [fld]; omega), finOf _ (by simp only [fld]; omega)⟩))) rest hw

theorem Sys2Proof.Laws.Encoding.vMulh (p : Pred) (t : ElemType) (d : Fin 16) (a : Fin 16) (b : Fin 16) : Sys2Proof.Laws.Encoding.Statement (.vMulh p t d a b) := by
  refine ⟨fun hw _ rest => ?_, fun _ h => (Bool.false_ne_true h).elim⟩
  exact roundOne 88 (0x2C000000 + p.val * 0x80000 + t.code.val * 0x8000 + d.val * 0x400 + a.val * 0x20 + b.val) (by omega) (by decide) rfl (congrArg some (slotIs (andOf (andOf (beqOf (by simp only [fld]; omega)) (beqOf (by simp only [fld]; omega))) (beqOf (by simp only [fld]; omega))) rfl (by rw [Sys2Proof.Instr.vMulh.injEq]; exact ⟨finOf _ (by simp only [fld]; omega), tyOf _ (by simp only [fld]; omega), finOf _ (by simp only [fld]; omega), finOf _ (by simp only [fld]; omega), finOf _ (by simp only [fld]; omega)⟩))) rest hw

theorem Sys2Proof.Laws.Encoding.vCmpeq (p : Pred) (t : ElemType) (d : Fin 16) (a : Fin 16) (b : Fin 16) : Sys2Proof.Laws.Encoding.Statement (.vCmpeq p t d a b) := by
  refine ⟨fun hw _ rest => ?_, fun _ h => (Bool.false_ne_true h).elim⟩
  exact roundOne 89 (0x2C800000 + p.val * 0x80000 + t.code.val * 0x8000 + d.val * 0x400 + a.val * 0x20 + b.val) (by omega) (by decide) rfl (congrArg some (slotIs (andOf (andOf (beqOf (by simp only [fld]; omega)) (beqOf (by simp only [fld]; omega))) (beqOf (by simp only [fld]; omega))) rfl (by rw [Sys2Proof.Instr.vCmpeq.injEq]; exact ⟨finOf _ (by simp only [fld]; omega), tyOf _ (by simp only [fld]; omega), finOf _ (by simp only [fld]; omega), finOf _ (by simp only [fld]; omega), finOf _ (by simp only [fld]; omega)⟩))) rest hw

theorem Sys2Proof.Laws.Encoding.vCmpne (p : Pred) (t : ElemType) (d : Fin 16) (a : Fin 16) (b : Fin 16) : Sys2Proof.Laws.Encoding.Statement (.vCmpne p t d a b) := by
  refine ⟨fun hw _ rest => ?_, fun _ h => (Bool.false_ne_true h).elim⟩
  exact roundOne 90 (0x2D000000 + p.val * 0x80000 + t.code.val * 0x8000 + d.val * 0x400 + a.val * 0x20 + b.val) (by omega) (by decide) rfl (congrArg some (slotIs (andOf (andOf (beqOf (by simp only [fld]; omega)) (beqOf (by simp only [fld]; omega))) (beqOf (by simp only [fld]; omega))) rfl (by rw [Sys2Proof.Instr.vCmpne.injEq]; exact ⟨finOf _ (by simp only [fld]; omega), tyOf _ (by simp only [fld]; omega), finOf _ (by simp only [fld]; omega), finOf _ (by simp only [fld]; omega), finOf _ (by simp only [fld]; omega)⟩))) rest hw

theorem Sys2Proof.Laws.Encoding.vCmplt (p : Pred) (t : ElemType) (d : Fin 16) (a : Fin 16) (b : Fin 16) : Sys2Proof.Laws.Encoding.Statement (.vCmplt p t d a b) := by
  refine ⟨fun hw _ rest => ?_, fun _ h => (Bool.false_ne_true h).elim⟩
  exact roundOne 91 (0x2D800000 + p.val * 0x80000 + t.code.val * 0x8000 + d.val * 0x400 + a.val * 0x20 + b.val) (by omega) (by decide) rfl (congrArg some (slotIs (andOf (andOf (beqOf (by simp only [fld]; omega)) (beqOf (by simp only [fld]; omega))) (beqOf (by simp only [fld]; omega))) rfl (by rw [Sys2Proof.Instr.vCmplt.injEq]; exact ⟨finOf _ (by simp only [fld]; omega), tyOf _ (by simp only [fld]; omega), finOf _ (by simp only [fld]; omega), finOf _ (by simp only [fld]; omega), finOf _ (by simp only [fld]; omega)⟩))) rest hw

theorem Sys2Proof.Laws.Encoding.vCmple (p : Pred) (t : ElemType) (d : Fin 16) (a : Fin 16) (b : Fin 16) : Sys2Proof.Laws.Encoding.Statement (.vCmple p t d a b) := by
  refine ⟨fun hw _ rest => ?_, fun _ h => (Bool.false_ne_true h).elim⟩
  exact roundOne 92 (0x2E000000 + p.val * 0x80000 + t.code.val * 0x8000 + d.val * 0x400 + a.val * 0x20 + b.val) (by omega) (by decide) rfl (congrArg some (slotIs (andOf (andOf (beqOf (by simp only [fld]; omega)) (beqOf (by simp only [fld]; omega))) (beqOf (by simp only [fld]; omega))) rfl (by rw [Sys2Proof.Instr.vCmple.injEq]; exact ⟨finOf _ (by simp only [fld]; omega), tyOf _ (by simp only [fld]; omega), finOf _ (by simp only [fld]; omega), finOf _ (by simp only [fld]; omega), finOf _ (by simp only [fld]; omega)⟩))) rest hw

theorem Sys2Proof.Laws.Encoding.vSel (p : Pred) (t : ElemType) (d : Fin 16) (a : Fin 16) (b : Fin 16) : Sys2Proof.Laws.Encoding.Statement (.vSel p t d a b) := by
  refine ⟨fun hw _ rest => ?_, fun _ h => (Bool.false_ne_true h).elim⟩
  exact roundOne 93 (0x2E800000 + p.val * 0x80000 + t.code.val * 0x8000 + d.val * 0x400 + a.val * 0x20 + b.val) (by omega) (by decide) rfl (congrArg some (slotIs (andOf (andOf (beqOf (by simp only [fld]; omega)) (beqOf (by simp only [fld]; omega))) (beqOf (by simp only [fld]; omega))) rfl (by rw [Sys2Proof.Instr.vSel.injEq]; exact ⟨finOf _ (by simp only [fld]; omega), tyOf _ (by simp only [fld]; omega), finOf _ (by simp only [fld]; omega), finOf _ (by simp only [fld]; omega), finOf _ (by simp only [fld]; omega)⟩))) rest hw

theorem Sys2Proof.Laws.Encoding.vCvt (p : Pred) (t : ElemType) (r : Rounding) (d : Fin 16) (a : Fin 16) (s : Bool) (b : Fin 16) : Sys2Proof.Laws.Encoding.Statement (.vCvt p t r d a s b) := by
  have := Bool.toNat_lt s
  obtain ⟨r1, r0, hr1, hr0, _, _, hr⟩ := split2 r.code.val (by omega)
  have he : encode (Instr.vCvt p t r d a s b) = [BitVec.ofNat 32 (0x2F000000 + p.val * 0x80000 + t.code.val * 0x8000 + r1 * 0x4000 + r0 * 0x200 + d.val * 0x400 + a.val * 0x20 + s.toNat * 0x10 + b.val)] := by
    rw [← hr1, ← hr0]; rfl
  clear hr1 hr0
  refine ⟨fun hw _ rest => ?_, fun _ h => (Bool.false_ne_true h).elim⟩
  exact roundOne 94 (0x2F000000 + p.val * 0x80000 + t.code.val * 0x8000 + r1 * 0x4000 + r0 * 0x200 + d.val * 0x400 + a.val * 0x20 + s.toNat * 0x10 + b.val) (by omega) (by decide) he (congrArg some (slotIs rfl rfl (by rw [Sys2Proof.Instr.vCvt.injEq]; exact ⟨finOf _ (by simp only [fld]; omega), tyOf _ (by simp only [fld]; omega), rndOf _ (joined hr (by simp only [fld]; omega)), finOf _ (by simp only [fld]; omega), finOf _ (by simp only [fld]; omega), boolOf _ (by simp only [fld]; omega), finOf _ (by simp only [fld]; omega)⟩))) rest hw

theorem Sys2Proof.Laws.Encoding.vRsum (p : Pred) (t : ElemType) (r : Rounding) (d : Fin 16) (a : Fin 16) (s : Bool) : Sys2Proof.Laws.Encoding.Statement (.vRsum p t r d a s) := by
  have := Bool.toNat_lt s
  obtain ⟨r1, r0, hr1, hr0, _, _, hr⟩ := split2 r.code.val (by omega)
  have he : encode (Instr.vRsum p t r d a s) = [BitVec.ofNat 32 (0x2F800000 + p.val * 0x80000 + t.code.val * 0x8000 + r1 * 0x4000 + r0 * 0x200 + d.val * 0x400 + a.val * 0x20 + s.toNat * 0x10)] := by
    rw [← hr1, ← hr0]; rfl
  clear hr1 hr0
  refine ⟨fun hw _ rest => ?_, fun _ h => (Bool.false_ne_true h).elim⟩
  exact roundOne 95 (0x2F800000 + p.val * 0x80000 + t.code.val * 0x8000 + r1 * 0x4000 + r0 * 0x200 + d.val * 0x400 + a.val * 0x20 + s.toNat * 0x10) (by omega) (by decide) he (congrArg some (slotIs (beqOf (by simp only [fld]; omega)) rfl (by rw [Sys2Proof.Instr.vRsum.injEq]; exact ⟨finOf _ (by simp only [fld]; omega), tyOf _ (by simp only [fld]; omega), rndOf _ (joined hr (by simp only [fld]; omega)), finOf _ (by simp only [fld]; omega), finOf _ (by simp only [fld]; omega), boolOf _ (by simp only [fld]; omega)⟩))) rest hw

theorem Sys2Proof.Laws.Encoding.vRmax (p : Pred) (t : ElemType) (d : Fin 16) (a : Fin 16) : Sys2Proof.Laws.Encoding.Statement (.vRmax p t d a) := by
  refine ⟨fun hw _ rest => ?_, fun _ h => (Bool.false_ne_true h).elim⟩
  exact roundOne 96 (0x30000000 + p.val * 0x80000 + t.code.val * 0x8000 + d.val * 0x400 + a.val * 0x20) (by omega) (by decide) rfl (congrArg some (slotIs (andOf (andOf (beqOf (by simp only [fld]; omega)) (beqOf (by simp only [fld]; omega))) (beqOf (by simp only [fld]; omega))) rfl (by rw [Sys2Proof.Instr.vRmax.injEq]; exact ⟨finOf _ (by simp only [fld]; omega), tyOf _ (by simp only [fld]; omega), finOf _ (by simp only [fld]; omega), finOf _ (by simp only [fld]; omega)⟩))) rest hw

theorem Sys2Proof.Laws.Encoding.vRmin (p : Pred) (t : ElemType) (d : Fin 16) (a : Fin 16) : Sys2Proof.Laws.Encoding.Statement (.vRmin p t d a) := by
  refine ⟨fun hw _ rest => ?_, fun _ h => (Bool.false_ne_true h).elim⟩
  exact roundOne 97 (0x30800000 + p.val * 0x80000 + t.code.val * 0x8000 + d.val * 0x400 + a.val * 0x20) (by omega) (by decide) rfl (congrArg some (slotIs (andOf (andOf (beqOf (by simp only [fld]; omega)) (beqOf (by simp only [fld]; omega))) (beqOf (by simp only [fld]; omega))) rfl (by rw [Sys2Proof.Instr.vRmin.injEq]; exact ⟨finOf _ (by simp only [fld]; omega), tyOf _ (by simp only [fld]; omega), finOf _ (by simp only [fld]; omega), finOf _ (by simp only [fld]; omega)⟩))) rest hw

theorem Sys2Proof.Laws.Encoding.vCopy (p : Pred) (t : ElemType) (d : Fin 16) (a : Fin 16) : Sys2Proof.Laws.Encoding.Statement (.vCopy p t d a) := by
  refine ⟨fun hw _ rest => ?_, fun _ h => (Bool.false_ne_true h).elim⟩
  exact roundOne 98 (0x31000000 + p.val * 0x80000 + t.code.val * 0x8000 + d.val * 0x400 + a.val * 0x20) (by omega) (by decide) rfl (congrArg some (slotIs (andOf (andOf (beqOf (by simp only [fld]; omega)) (beqOf (by simp only [fld]; omega))) (beqOf (by simp only [fld]; omega))) rfl (by rw [Sys2Proof.Instr.vCopy.injEq]; exact ⟨finOf _ (by simp only [fld]; omega), tyOf _ (by simp only [fld]; omega), finOf _ (by simp only [fld]; omega), finOf _ (by simp only [fld]; omega)⟩))) rest hw

theorem Sys2Proof.Laws.Encoding.vFill (p : Pred) (q : Fin 16) (d : Fin 16) : Sys2Proof.Laws.Encoding.Statement (.vFill p q d) := by
  refine ⟨fun hw _ rest => ?_, fun _ h => (Bool.false_ne_true h).elim⟩
  exact roundOne 99 (0x31800000 + p.val * 0x80000 + q.val * 0x8000 + d.val * 0x400) (by omega) (by decide) rfl (congrArg some (slotIs (andOf (beqOf (by simp only [fld]; omega)) (beqOf (by simp only [fld]; omega))) rfl (by rw [Sys2Proof.Instr.vFill.injEq]; exact ⟨finOf _ (by simp only [fld]; omega), finOf _ (by simp only [fld]; omega), finOf _ (by simp only [fld]; omega)⟩))) rest hw

theorem Sys2Proof.Laws.Encoding.vIota (p : Pred) (q : Fin 16) (r : Rounding) (d : Fin 16) (s : Bool) : Sys2Proof.Laws.Encoding.Statement (.vIota p q r d s) := by
  have := Bool.toNat_lt s
  obtain ⟨r1, r0, hr1, hr0, _, _, hr⟩ := split2 r.code.val (by omega)
  have he : encode (Instr.vIota p q r d s) = [BitVec.ofNat 32 (0x32000000 + p.val * 0x80000 + q.val * 0x8000 + r1 * 0x4000 + r0 * 0x200 + d.val * 0x400 + s.toNat * 0x10)] := by
    rw [← hr1, ← hr0]; rfl
  clear hr1 hr0
  refine ⟨fun hw _ rest => ?_, fun _ h => (Bool.false_ne_true h).elim⟩
  exact roundOne 100 (0x32000000 + p.val * 0x80000 + q.val * 0x8000 + r1 * 0x4000 + r0 * 0x200 + d.val * 0x400 + s.toNat * 0x10) (by omega) (by decide) he (congrArg some (slotIs (andOf (beqOf (by simp only [fld]; omega)) (beqOf (by simp only [fld]; omega))) rfl (by rw [Sys2Proof.Instr.vIota.injEq]; exact ⟨finOf _ (by simp only [fld]; omega), finOf _ (by simp only [fld]; omega), rndOf _ (joined hr (by simp only [fld]; omega)), finOf _ (by simp only [fld]; omega), boolOf _ (by simp only [fld]; omega)⟩))) rest hw

theorem Sys2Proof.Laws.Encoding.vClamp (p : Pred) (q : Fin 16) (d : Fin 16) (a : Fin 16) : Sys2Proof.Laws.Encoding.Statement (.vClamp p q d a) := by
  refine ⟨fun hw _ rest => ?_, fun _ h => (Bool.false_ne_true h).elim⟩
  exact roundOne 101 (0x32800000 + p.val * 0x80000 + q.val * 0x8000 + d.val * 0x400 + a.val * 0x20) (by omega) (by decide) rfl (congrArg some (slotIs (andOf (andOf (beqOf (by simp only [fld]; omega)) (beqOf (by simp only [fld]; omega))) (beqOf (by simp only [fld]; omega))) rfl (by rw [Sys2Proof.Instr.vClamp.injEq]; exact ⟨finOf _ (by simp only [fld]; omega), finOf _ (by simp only [fld]; omega), finOf _ (by simp only [fld]; omega), finOf _ (by simp only [fld]; omega)⟩))) rest hw

theorem Sys2Proof.Laws.Encoding.vAddq (p : Pred) (q : Fin 16) (r : Rounding) (d : Fin 16) (a : Fin 16) (s : Bool) : Sys2Proof.Laws.Encoding.Statement (.vAddq p q r d a s) := by
  have := Bool.toNat_lt s
  obtain ⟨r1, r0, hr1, hr0, _, _, hr⟩ := split2 r.code.val (by omega)
  have he : encode (Instr.vAddq p q r d a s) = [BitVec.ofNat 32 (0x33000000 + p.val * 0x80000 + q.val * 0x8000 + r1 * 0x4000 + r0 * 0x200 + d.val * 0x400 + a.val * 0x20 + s.toNat * 0x10)] := by
    rw [← hr1, ← hr0]; rfl
  clear hr1 hr0
  refine ⟨fun hw _ rest => ?_, fun _ h => (Bool.false_ne_true h).elim⟩
  exact roundOne 102 (0x33000000 + p.val * 0x80000 + q.val * 0x8000 + r1 * 0x4000 + r0 * 0x200 + d.val * 0x400 + a.val * 0x20 + s.toNat * 0x10) (by omega) (by decide) he (congrArg some (slotIs (beqOf (by simp only [fld]; omega)) rfl (by rw [Sys2Proof.Instr.vAddq.injEq]; exact ⟨finOf _ (by simp only [fld]; omega), finOf _ (by simp only [fld]; omega), rndOf _ (joined hr (by simp only [fld]; omega)), finOf _ (by simp only [fld]; omega), finOf _ (by simp only [fld]; omega), boolOf _ (by simp only [fld]; omega)⟩))) rest hw

theorem Sys2Proof.Laws.Encoding.vMulq (p : Pred) (q : Fin 16) (r : Rounding) (d : Fin 16) (a : Fin 16) (s : Bool) : Sys2Proof.Laws.Encoding.Statement (.vMulq p q r d a s) := by
  have := Bool.toNat_lt s
  obtain ⟨r1, r0, hr1, hr0, _, _, hr⟩ := split2 r.code.val (by omega)
  have he : encode (Instr.vMulq p q r d a s) = [BitVec.ofNat 32 (0x33800000 + p.val * 0x80000 + q.val * 0x8000 + r1 * 0x4000 + r0 * 0x200 + d.val * 0x400 + a.val * 0x20 + s.toNat * 0x10)] := by
    rw [← hr1, ← hr0]; rfl
  clear hr1 hr0
  refine ⟨fun hw _ rest => ?_, fun _ h => (Bool.false_ne_true h).elim⟩
  exact roundOne 103 (0x33800000 + p.val * 0x80000 + q.val * 0x8000 + r1 * 0x4000 + r0 * 0x200 + d.val * 0x400 + a.val * 0x20 + s.toNat * 0x10) (by omega) (by decide) he (congrArg some (slotIs (beqOf (by simp only [fld]; omega)) rfl (by rw [Sys2Proof.Instr.vMulq.injEq]; exact ⟨finOf _ (by simp only [fld]; omega), finOf _ (by simp only [fld]; omega), rndOf _ (joined hr (by simp only [fld]; omega)), finOf _ (by simp only [fld]; omega), finOf _ (by simp only [fld]; omega), boolOf _ (by simp only [fld]; omega)⟩))) rest hw

theorem Sys2Proof.Laws.Encoding.vFmaq (p : Pred) (q : Fin 16) (r : Rounding) (d : Fin 16) (a : Fin 16) (s : Bool) : Sys2Proof.Laws.Encoding.Statement (.vFmaq p q r d a s) := by
  have := Bool.toNat_lt s
  obtain ⟨r1, r0, hr1, hr0, _, _, hr⟩ := split2 r.code.val (by omega)
  have he : encode (Instr.vFmaq p q r d a s) = [BitVec.ofNat 32 (0x34000000 + p.val * 0x80000 + q.val * 0x8000 + r1 * 0x4000 + r0 * 0x200 + d.val * 0x400 + a.val * 0x20 + s.toNat * 0x10)] := by
    rw [← hr1, ← hr0]; rfl
  clear hr1 hr0
  refine ⟨fun hw _ rest => ?_, fun _ h => (Bool.false_ne_true h).elim⟩
  exact roundOne 104 (0x34000000 + p.val * 0x80000 + q.val * 0x8000 + r1 * 0x4000 + r0 * 0x200 + d.val * 0x400 + a.val * 0x20 + s.toNat * 0x10) (by omega) (by decide) he (congrArg some (slotIs (beqOf (by simp only [fld]; omega)) rfl (by rw [Sys2Proof.Instr.vFmaq.injEq]; exact ⟨finOf _ (by simp only [fld]; omega), finOf _ (by simp only [fld]; omega), rndOf _ (joined hr (by simp only [fld]; omega)), finOf _ (by simp only [fld]; omega), finOf _ (by simp only [fld]; omega), boolOf _ (by simp only [fld]; omega)⟩))) rest hw

theorem Sys2Proof.Laws.Encoding.vGather (p : Pred) (t : ElemType) (d : Fin 16) (a : Fin 16) (b : Fin 16) : Sys2Proof.Laws.Encoding.Statement (.vGather p t d a b) := by
  refine ⟨fun hw _ rest => ?_, fun _ h => (Bool.false_ne_true h).elim⟩
  exact roundOne 105 (0x34800000 + p.val * 0x80000 + t.code.val * 0x8000 + d.val * 0x400 + a.val * 0x20 + b.val) (by omega) (by decide) rfl (congrArg some (slotIs (andOf (andOf (beqOf (by simp only [fld]; omega)) (beqOf (by simp only [fld]; omega))) (beqOf (by simp only [fld]; omega))) rfl (by rw [Sys2Proof.Instr.vGather.injEq]; exact ⟨finOf _ (by simp only [fld]; omega), tyOf _ (by simp only [fld]; omega), finOf _ (by simp only [fld]; omega), finOf _ (by simp only [fld]; omega), finOf _ (by simp only [fld]; omega)⟩))) rest hw

theorem Sys2Proof.Laws.Encoding.vScatter (p : Pred) (t : ElemType) (d : Fin 16) (a : Fin 16) (b : Fin 16) : Sys2Proof.Laws.Encoding.Statement (.vScatter p t d a b) := by
  refine ⟨fun hw _ rest => ?_, fun _ h => (Bool.false_ne_true h).elim⟩
  exact roundOne 106 (0x35000000 + p.val * 0x80000 + t.code.val * 0x8000 + d.val * 0x400 + a.val * 0x20 + b.val) (by omega) (by decide) rfl (congrArg some (slotIs (andOf (andOf (beqOf (by simp only [fld]; omega)) (beqOf (by simp only [fld]; omega))) (beqOf (by simp only [fld]; omega))) rfl (by rw [Sys2Proof.Instr.vScatter.injEq]; exact ⟨finOf _ (by simp only [fld]; omega), tyOf _ (by simp only [fld]; omega), finOf _ (by simp only [fld]; omega), finOf _ (by simp only [fld]; omega), finOf _ (by simp only [fld]; omega)⟩))) rest hw

theorem Sys2Proof.Laws.Encoding.vCnt (p : Pred) (t : ElemType) (d : Fin 16) (a : Fin 16) : Sys2Proof.Laws.Encoding.Statement (.vCnt p t d a) := by
  refine ⟨fun hw _ rest => ?_, fun _ h => (Bool.false_ne_true h).elim⟩
  exact roundOne 107 (0x35800000 + p.val * 0x80000 + t.code.val * 0x8000 + d.val * 0x400 + a.val * 0x20) (by omega) (by decide) rfl (congrArg some (slotIs (andOf (andOf (beqOf (by simp only [fld]; omega)) (beqOf (by simp only [fld]; omega))) (beqOf (by simp only [fld]; omega))) rfl (by rw [Sys2Proof.Instr.vCnt.injEq]; exact ⟨finOf _ (by simp only [fld]; omega), tyOf _ (by simp only [fld]; omega), finOf _ (by simp only [fld]; omega), finOf _ (by simp only [fld]; omega)⟩))) rest hw

theorem Sys2Proof.Laws.Encoding.mSett (p : Pred) (q : Fin 16) (d : Fin 8) : Sys2Proof.Laws.Encoding.Statement (.mSett p q d) := by
  refine ⟨fun hw _ rest => ?_, fun _ h => (Bool.false_ne_true h).elim⟩
  exact roundOne 128 (0x40000000 + p.val * 0x80000 + q.val * 0x8000 + d.val * 0x400) (by omega) (by decide) rfl (congrArg some (slotIs (andOf (beqOf (by simp only [fld]; omega)) (beqOf (by simp only [fld]; omega))) rfl (by rw [Sys2Proof.Instr.mSett.injEq]; exact ⟨finOf _ (by simp only [fld]; omega), finOf _ (by simp only [fld]; omega), finOf _ (by simp only [fld]; omega)⟩))) rest hw

theorem Sys2Proof.Laws.Encoding.mMma (p : Pred) (d : Fin 8) (a : Fin 8) (b : Fin 8) : Sys2Proof.Laws.Encoding.Statement (.mMma p d a b) := by
  refine ⟨fun hw _ rest => ?_, fun _ h => (Bool.false_ne_true h).elim⟩
  exact roundOne 129 (0x40800000 + p.val * 0x80000 + d.val * 0x400 + a.val * 0x20 + b.val) (by omega) (by decide) rfl (congrArg some (slotIs (andOf (andOf (beqOf (by simp only [fld]; omega)) (beqOf (by simp only [fld]; omega))) (beqOf (by simp only [fld]; omega))) rfl (by rw [Sys2Proof.Instr.mMma.injEq]; exact ⟨finOf _ (by simp only [fld]; omega), finOf _ (by simp only [fld]; omega), finOf _ (by simp only [fld]; omega), finOf _ (by simp only [fld]; omega)⟩))) rest hw

theorem Sys2Proof.Laws.Encoding.mMmat (p : Pred) (d : Fin 8) (a : Fin 8) (b : Fin 8) : Sys2Proof.Laws.Encoding.Statement (.mMmat p d a b) := by
  refine ⟨fun hw _ rest => ?_, fun _ h => (Bool.false_ne_true h).elim⟩
  exact roundOne 130 (0x41000000 + p.val * 0x80000 + d.val * 0x400 + a.val * 0x20 + b.val) (by omega) (by decide) rfl (congrArg some (slotIs (andOf (andOf (beqOf (by simp only [fld]; omega)) (beqOf (by simp only [fld]; omega))) (beqOf (by simp only [fld]; omega))) rfl (by rw [Sys2Proof.Instr.mMmat.injEq]; exact ⟨finOf _ (by simp only [fld]; omega), finOf _ (by simp only [fld]; omega), finOf _ (by simp only [fld]; omega), finOf _ (by simp only [fld]; omega)⟩))) rest hw

theorem Sys2Proof.Laws.Encoding.mClr (p : Pred) (t : ElemType) (d : Fin 8) : Sys2Proof.Laws.Encoding.Statement (.mClr p t d) := by
  refine ⟨fun hw _ rest => ?_, fun _ h => (Bool.false_ne_true h).elim⟩
  exact roundOne 131 (0x41800000 + p.val * 0x80000 + t.code.val * 0x8000 + d.val * 0x400) (by omega) (by decide) rfl (congrArg some (slotIs (andOf (beqOf (by simp only [fld]; omega)) (beqOf (by simp only [fld]; omega))) rfl (by rw [Sys2Proof.Instr.mClr.injEq]; exact ⟨finOf _ (by simp only [fld]; omega), tyOf _ (by simp only [fld]; omega), finOf _ (by simp only [fld]; omega)⟩))) rest hw

theorem Sys2Proof.Laws.Encoding.mCvt (p : Pred) (t : ElemType) (d : Fin 8) (a : Fin 8) (s : Bool) : Sys2Proof.Laws.Encoding.Statement (.mCvt p t d a s) := by
  have := Bool.toNat_lt s
  refine ⟨fun hw _ rest => ?_, fun _ h => (Bool.false_ne_true h).elim⟩
  exact roundOne 132 (0x42000000 + p.val * 0x80000 + t.code.val * 0x8000 + d.val * 0x400 + a.val * 0x20 + s.toNat * 0x10) (by omega) (by decide) rfl (congrArg some (slotIs (andOf (andOf (beqOf (by simp only [fld]; omega)) (beqOf (by simp only [fld]; omega))) (beqOf (by simp only [fld]; omega))) rfl (by rw [Sys2Proof.Instr.mCvt.injEq]; exact ⟨finOf _ (by simp only [fld]; omega), tyOf _ (by simp only [fld]; omega), finOf _ (by simp only [fld]; omega), finOf _ (by simp only [fld]; omega), boolOf _ (by simp only [fld]; omega)⟩))) rest hw

theorem Sys2Proof.Laws.Encoding.mBias (p : Pred) (d : Fin 8) (a : Fin 8) : Sys2Proof.Laws.Encoding.Statement (.mBias p d a) := by
  refine ⟨fun hw _ rest => ?_, fun _ h => (Bool.false_ne_true h).elim⟩
  exact roundOne 133 (0x42800000 + p.val * 0x80000 + d.val * 0x400 + a.val * 0x20) (by omega) (by decide) rfl (congrArg some (slotIs (andOf (andOf (beqOf (by simp only [fld]; omega)) (beqOf (by simp only [fld]; omega))) (beqOf (by simp only [fld]; omega))) rfl (by rw [Sys2Proof.Instr.mBias.injEq]; exact ⟨finOf _ (by simp only [fld]; omega), finOf _ (by simp only [fld]; omega), finOf _ (by simp only [fld]; omega)⟩))) rest hw

theorem Sys2Proof.Laws.Encoding.mTr (p : Pred) (t : ElemType) (d : Fin 8) (a : Fin 8) : Sys2Proof.Laws.Encoding.Statement (.mTr p t d a) := by
  refine ⟨fun hw _ rest => ?_, fun _ h => (Bool.false_ne_true h).elim⟩
  exact roundOne 134 (0x43000000 + p.val * 0x80000 + t.code.val * 0x8000 + d.val * 0x400 + a.val * 0x20) (by omega) (by decide) rfl (congrArg some (slotIs (andOf (andOf (beqOf (by simp only [fld]; omega)) (beqOf (by simp only [fld]; omega))) (beqOf (by simp only [fld]; omega))) rfl (by rw [Sys2Proof.Instr.mTr.injEq]; exact ⟨finOf _ (by simp only [fld]; omega), tyOf _ (by simp only [fld]; omega), finOf _ (by simp only [fld]; omega), finOf _ (by simp only [fld]; omega)⟩))) rest hw

theorem Sys2Proof.Laws.Encoding.mScl (p : Pred) (q : Fin 16) (d : Fin 8) : Sys2Proof.Laws.Encoding.Statement (.mScl p q d) := by
  refine ⟨fun hw _ rest => ?_, fun _ h => (Bool.false_ne_true h).elim⟩
  exact roundOne 135 (0x43800000 + p.val * 0x80000 + q.val * 0x8000 + d.val * 0x400) (by omega) (by decide) rfl (congrArg some (slotIs (andOf (beqOf (by simp only [fld]; omega)) (beqOf (by simp only [fld]; omega))) rfl (by rw [Sys2Proof.Instr.mScl.injEq]; exact ⟨finOf _ (by simp only [fld]; omega), finOf _ (by simp only [fld]; omega), finOf _ (by simp only [fld]; omega)⟩))) rest hw

theorem Sys2Proof.Laws.Encoding.mCopy (p : Pred) (t : ElemType) (d : Fin 8) (a : Fin 8) : Sys2Proof.Laws.Encoding.Statement (.mCopy p t d a) := by
  refine ⟨fun hw _ rest => ?_, fun _ h => (Bool.false_ne_true h).elim⟩
  exact roundOne 136 (0x44000000 + p.val * 0x80000 + t.code.val * 0x8000 + d.val * 0x400 + a.val * 0x20) (by omega) (by decide) rfl (congrArg some (slotIs (andOf (andOf (beqOf (by simp only [fld]; omega)) (beqOf (by simp only [fld]; omega))) (beqOf (by simp only [fld]; omega))) rfl (by rw [Sys2Proof.Instr.mCopy.injEq]; exact ⟨finOf _ (by simp only [fld]; omega), tyOf _ (by simp only [fld]; omega), finOf _ (by simp only [fld]; omega), finOf _ (by simp only [fld]; omega)⟩))) rest hw

theorem Sys2Proof.Laws.Encoding.mDrop (p : Pred) : Sys2Proof.Laws.Encoding.Statement (.mDrop p) := by
  refine ⟨fun hw _ rest => ?_, fun _ h => (Bool.false_ne_true h).elim⟩
  exact roundOne 137 (0x44800000 + p.val * 0x80000) (by omega) (by decide) rfl (congrArg some (slotIs (beqOf (by simp only [fld]; omega)) rfl (by rw [Sys2Proof.Instr.mDrop.injEq]; exact finOf _ (by simp only [fld]; omega)))) rest hw

theorem Sys2Proof.Laws.Encoding.mAdd (p : Pred) (d : Fin 8) (a : Fin 8) : Sys2Proof.Laws.Encoding.Statement (.mAdd p d a) := by
  refine ⟨fun hw _ rest => ?_, fun _ h => (Bool.false_ne_true h).elim⟩
  exact roundOne 138 (0x45000000 + p.val * 0x80000 + d.val * 0x400 + a.val * 0x20) (by omega) (by decide) rfl (congrArg some (slotIs (andOf (andOf (beqOf (by simp only [fld]; omega)) (beqOf (by simp only [fld]; omega))) (beqOf (by simp only [fld]; omega))) rfl (by rw [Sys2Proof.Instr.mAdd.injEq]; exact ⟨finOf _ (by simp only [fld]; omega), finOf _ (by simp only [fld]; omega), finOf _ (by simp only [fld]; omega)⟩))) rest hw

theorem Sys2Proof.Laws.Encoding.mRelu (p : Pred) (d : Fin 8) : Sys2Proof.Laws.Encoding.Statement (.mRelu p d) := by
  refine ⟨fun hw _ rest => ?_, fun _ h => (Bool.false_ne_true h).elim⟩
  exact roundOne 139 (0x45800000 + p.val * 0x80000 + d.val * 0x400) (by omega) (by decide) rfl (congrArg some (slotIs (andOf (beqOf (by simp only [fld]; omega)) (beqOf (by simp only [fld]; omega))) rfl (by rw [Sys2Proof.Instr.mRelu.injEq]; exact ⟨finOf _ (by simp only [fld]; omega), finOf _ (by simp only [fld]; omega)⟩))) rest hw

theorem Sys2Proof.Laws.Encoding.rowSeta (p : Pred) (q : Fin 16) (d : Fin 8) : Sys2Proof.Laws.Encoding.Statement (.rowSeta p q d) := by
  refine ⟨fun hw _ rest => ?_, fun _ h => (Bool.false_ne_true h).elim⟩
  exact roundOne 192 (0x60000000 + p.val * 0x80000 + q.val * 0x8000 + d.val * 0x400) (by omega) (by decide) rfl (congrArg some (slotIs (andOf (beqOf (by simp only [fld]; omega)) (beqOf (by simp only [fld]; omega))) rfl (by rw [Sys2Proof.Instr.rowSeta.injEq]; exact ⟨finOf _ (by simp only [fld]; omega), finOf _ (by simp only [fld]; omega), finOf _ (by simp only [fld]; omega)⟩))) rest hw

theorem Sys2Proof.Laws.Encoding.rowMax (p : Pred) (q : Fin 16) (d : Fin 8) (a : Fin 8) : Sys2Proof.Laws.Encoding.Statement (.rowMax p q d a) := by
  refine ⟨fun hw _ rest => ?_, fun _ h => (Bool.false_ne_true h).elim⟩
  exact roundOne 193 (0x60800000 + p.val * 0x80000 + q.val * 0x8000 + d.val * 0x400 + a.val * 0x20) (by omega) (by decide) rfl (congrArg some (slotIs (andOf (andOf (beqOf (by simp only [fld]; omega)) (beqOf (by simp only [fld]; omega))) (beqOf (by simp only [fld]; omega))) rfl (by rw [Sys2Proof.Instr.rowMax.injEq]; exact ⟨finOf _ (by simp only [fld]; omega), finOf _ (by simp only [fld]; omega), finOf _ (by simp only [fld]; omega), finOf _ (by simp only [fld]; omega)⟩))) rest hw

theorem Sys2Proof.Laws.Encoding.rowExpsum (p : Pred) (q : Fin 16) (d : Fin 8) (a : Fin 8) (b : Fin 8) : Sys2Proof.Laws.Encoding.Statement (.rowExpsum p q d a b) := by
  refine ⟨fun hw _ rest => ?_, fun _ h => (Bool.false_ne_true h).elim⟩
  exact roundOne 194 (0x61000000 + p.val * 0x80000 + q.val * 0x8000 + d.val * 0x400 + a.val * 0x20 + b.val) (by omega) (by decide) rfl (congrArg some (slotIs (andOf (andOf (beqOf (by simp only [fld]; omega)) (beqOf (by simp only [fld]; omega))) (beqOf (by simp only [fld]; omega))) rfl (by rw [Sys2Proof.Instr.rowExpsum.injEq]; exact ⟨finOf _ (by simp only [fld]; omega), finOf _ (by simp only [fld]; omega), finOf _ (by simp only [fld]; omega), finOf _ (by simp only [fld]; omega), finOf _ (by simp only [fld]; omega)⟩))) rest hw

theorem Sys2Proof.Laws.Encoding.rowScale (p : Pred) (q : Fin 16) (d : Fin 8) (a : Fin 8) (b : Fin 8) : Sys2Proof.Laws.Encoding.Statement (.rowScale p q d a b) := by
  refine ⟨fun hw _ rest => ?_, fun _ h => (Bool.false_ne_true h).elim⟩
  exact roundOne 195 (0x61800000 + p.val * 0x80000 + q.val * 0x8000 + d.val * 0x400 + a.val * 0x20 + b.val) (by omega) (by decide) rfl (congrArg some (slotIs (andOf (andOf (beqOf (by simp only [fld]; omega)) (beqOf (by simp only [fld]; omega))) (beqOf (by simp only [fld]; omega))) rfl (by rw [Sys2Proof.Instr.rowScale.injEq]; exact ⟨finOf _ (by simp only [fld]; omega), finOf _ (by simp only [fld]; omega), finOf _ (by simp only [fld]; omega), finOf _ (by simp only [fld]; omega), finOf _ (by simp only [fld]; omega)⟩))) rest hw

theorem Sys2Proof.Laws.Encoding.rowSoft (p : Pred) (q : Fin 16) (d : Fin 8) (a : Fin 8) : Sys2Proof.Laws.Encoding.Statement (.rowSoft p q d a) := by
  refine ⟨fun hw _ rest => ?_, fun _ h => (Bool.false_ne_true h).elim⟩
  exact roundOne 196 (0x62000000 + p.val * 0x80000 + q.val * 0x8000 + d.val * 0x400 + a.val * 0x20) (by omega) (by decide) rfl (congrArg some (slotIs (andOf (andOf (beqOf (by simp only [fld]; omega)) (beqOf (by simp only [fld]; omega))) (beqOf (by simp only [fld]; omega))) rfl (by rw [Sys2Proof.Instr.rowSoft.injEq]; exact ⟨finOf _ (by simp only [fld]; omega), finOf _ (by simp only [fld]; omega), finOf _ (by simp only [fld]; omega), finOf _ (by simp only [fld]; omega)⟩))) rest hw

theorem Sys2Proof.Laws.Encoding.rowSum (p : Pred) (q : Fin 16) (d : Fin 8) (a : Fin 8) : Sys2Proof.Laws.Encoding.Statement (.rowSum p q d a) := by
  refine ⟨fun hw _ rest => ?_, fun _ h => (Bool.false_ne_true h).elim⟩
  exact roundOne 197 (0x62800000 + p.val * 0x80000 + q.val * 0x8000 + d.val * 0x400 + a.val * 0x20) (by omega) (by decide) rfl (congrArg some (slotIs (andOf (andOf (beqOf (by simp only [fld]; omega)) (beqOf (by simp only [fld]; omega))) (beqOf (by simp only [fld]; omega))) rfl (by rw [Sys2Proof.Instr.rowSum.injEq]; exact ⟨finOf _ (by simp only [fld]; omega), finOf _ (by simp only [fld]; omega), finOf _ (by simp only [fld]; omega), finOf _ (by simp only [fld]; omega)⟩))) rest hw

theorem Sys2Proof.Laws.Encoding.rowNorm (p : Pred) (q : Fin 16) (d : Fin 8) (a : Fin 8) : Sys2Proof.Laws.Encoding.Statement (.rowNorm p q d a) := by
  refine ⟨fun hw _ rest => ?_, fun _ h => (Bool.false_ne_true h).elim⟩
  exact roundOne 198 (0x63000000 + p.val * 0x80000 + q.val * 0x8000 + d.val * 0x400 + a.val * 0x20) (by omega) (by decide) rfl (congrArg some (slotIs (andOf (andOf (beqOf (by simp only [fld]; omega)) (beqOf (by simp only [fld]; omega))) (beqOf (by simp only [fld]; omega))) rfl (by rw [Sys2Proof.Instr.rowNorm.injEq]; exact ⟨finOf _ (by simp only [fld]; omega), finOf _ (by simp only [fld]; omega), finOf _ (by simp only [fld]; omega), finOf _ (by simp only [fld]; omega)⟩))) rest hw

theorem Sys2Proof.Laws.Encoding.rowRms (p : Pred) (q : Fin 16) (d : Fin 8) (a : Fin 8) (b : Fin 8) : Sys2Proof.Laws.Encoding.Statement (.rowRms p q d a b) := by
  refine ⟨fun hw _ rest => ?_, fun _ h => (Bool.false_ne_true h).elim⟩
  exact roundOne 199 (0x63800000 + p.val * 0x80000 + q.val * 0x8000 + d.val * 0x400 + a.val * 0x20 + b.val) (by omega) (by decide) rfl (congrArg some (slotIs (andOf (andOf (beqOf (by simp only [fld]; omega)) (beqOf (by simp only [fld]; omega))) (beqOf (by simp only [fld]; omega))) rfl (by rw [Sys2Proof.Instr.rowRms.injEq]; exact ⟨finOf _ (by simp only [fld]; omega), finOf _ (by simp only [fld]; omega), finOf _ (by simp only [fld]; omega), finOf _ (by simp only [fld]; omega), finOf _ (by simp only [fld]; omega)⟩))) rest hw

theorem Sys2Proof.Laws.Encoding.saSeta (p : Pred) (q : Fin 16) (d : Fin 8) : Sys2Proof.Laws.Encoding.Statement (.saSeta p q d) := by
  refine ⟨fun hw _ rest => ?_, fun _ h => (Bool.false_ne_true h).elim⟩
  exact roundOne 256 (0x80000000 + p.val * 0x80000 + q.val * 0x8000 + d.val * 0x400) (by omega) (by decide) rfl (congrArg some (slotIs (andOf (beqOf (by simp only [fld]; omega)) (beqOf (by simp only [fld]; omega))) rfl (by rw [Sys2Proof.Instr.saSeta.injEq]; exact ⟨finOf _ (by simp only [fld]; omega), finOf _ (by simp only [fld]; omega), finOf _ (by simp only [fld]; omega)⟩))) rest hw

theorem Sys2Proof.Laws.Encoding.saAdd (p : Pred) (q : Fin 16) (s : Fin 8) (e : Bool) (w : Fin 8) (i : BitVec 3) (v : Fin 8) : Sys2Proof.Laws.Encoding.Statement (.saAdd p q s e w i v) := by
  have := Bool.toNat_lt e
  have := i.isLt
  obtain ⟨s2, s1, s0, hs2, hs1, hs0, _, _, _, hs⟩ := split3 s.val (by omega)
  have he : encode (Instr.saAdd p q s e w i v) = [BitVec.ofNat 32 (0x80800000 + p.val * 0x80000 + q.val * 0x8000 + s2 * 0x4000 + s1 * 0x200 + s0 * 0x10 + e.toNat * 0x2000 + w.val * 0x400 + i.toNat * 0x20 + v.val)] := by
    rw [← hs2, ← hs1, ← hs0]; rfl
  clear hs2 hs1 hs0
  refine ⟨fun hw _ rest => ?_, fun _ h => (Bool.false_ne_true h).elim⟩
  exact roundOne 257 (0x80800000 + p.val * 0x80000 + q.val * 0x8000 + s2 * 0x4000 + s1 * 0x200 + s0 * 0x10 + e.toNat * 0x2000 + w.val * 0x400 + i.toNat * 0x20 + v.val) (by omega) (by decide) he (congrArg some (slotIs (andOf (beqOf (by simp only [fld]; omega)) (beqOf (by simp only [fld]; omega))) rfl (by rw [Sys2Proof.Instr.saAdd.injEq]; exact ⟨finOf _ (by simp only [fld]; omega), finOf _ (by simp only [fld]; omega), finOf _ (joined hs (by simp only [fld]; omega)), boolOf _ (by simp only [fld]; omega), finOf _ (by simp only [fld]; omega), bvOf _ (by simp only [fld]; omega), finOf _ (by simp only [fld]; omega)⟩))) rest hw

theorem Sys2Proof.Laws.Encoding.saMin (p : Pred) (q : Fin 16) (s : Fin 8) (e : Bool) (w : Fin 8) (i : BitVec 3) (v : Fin 8) : Sys2Proof.Laws.Encoding.Statement (.saMin p q s e w i v) := by
  have := Bool.toNat_lt e
  have := i.isLt
  obtain ⟨s2, s1, s0, hs2, hs1, hs0, _, _, _, hs⟩ := split3 s.val (by omega)
  have he : encode (Instr.saMin p q s e w i v) = [BitVec.ofNat 32 (0x81000000 + p.val * 0x80000 + q.val * 0x8000 + s2 * 0x4000 + s1 * 0x200 + s0 * 0x10 + e.toNat * 0x2000 + w.val * 0x400 + i.toNat * 0x20 + v.val)] := by
    rw [← hs2, ← hs1, ← hs0]; rfl
  clear hs2 hs1 hs0
  refine ⟨fun hw _ rest => ?_, fun _ h => (Bool.false_ne_true h).elim⟩
  exact roundOne 258 (0x81000000 + p.val * 0x80000 + q.val * 0x8000 + s2 * 0x4000 + s1 * 0x200 + s0 * 0x10 + e.toNat * 0x2000 + w.val * 0x400 + i.toNat * 0x20 + v.val) (by omega) (by decide) he (congrArg some (slotIs (andOf (beqOf (by simp only [fld]; omega)) (beqOf (by simp only [fld]; omega))) rfl (by rw [Sys2Proof.Instr.saMin.injEq]; exact ⟨finOf _ (by simp only [fld]; omega), finOf _ (by simp only [fld]; omega), finOf _ (joined hs (by simp only [fld]; omega)), boolOf _ (by simp only [fld]; omega), finOf _ (by simp only [fld]; omega), bvOf _ (by simp only [fld]; omega), finOf _ (by simp only [fld]; omega)⟩))) rest hw

theorem Sys2Proof.Laws.Encoding.saMax (p : Pred) (q : Fin 16) (s : Fin 8) (e : Bool) (w : Fin 8) (i : BitVec 3) (v : Fin 8) : Sys2Proof.Laws.Encoding.Statement (.saMax p q s e w i v) := by
  have := Bool.toNat_lt e
  have := i.isLt
  obtain ⟨s2, s1, s0, hs2, hs1, hs0, _, _, _, hs⟩ := split3 s.val (by omega)
  have he : encode (Instr.saMax p q s e w i v) = [BitVec.ofNat 32 (0x81800000 + p.val * 0x80000 + q.val * 0x8000 + s2 * 0x4000 + s1 * 0x200 + s0 * 0x10 + e.toNat * 0x2000 + w.val * 0x400 + i.toNat * 0x20 + v.val)] := by
    rw [← hs2, ← hs1, ← hs0]; rfl
  clear hs2 hs1 hs0
  refine ⟨fun hw _ rest => ?_, fun _ h => (Bool.false_ne_true h).elim⟩
  exact roundOne 259 (0x81800000 + p.val * 0x80000 + q.val * 0x8000 + s2 * 0x4000 + s1 * 0x200 + s0 * 0x10 + e.toNat * 0x2000 + w.val * 0x400 + i.toNat * 0x20 + v.val) (by omega) (by decide) he (congrArg some (slotIs (andOf (beqOf (by simp only [fld]; omega)) (beqOf (by simp only [fld]; omega))) rfl (by rw [Sys2Proof.Instr.saMax.injEq]; exact ⟨finOf _ (by simp only [fld]; omega), finOf _ (by simp only [fld]; omega), finOf _ (joined hs (by simp only [fld]; omega)), boolOf _ (by simp only [fld]; omega), finOf _ (by simp only [fld]; omega), bvOf _ (by simp only [fld]; omega), finOf _ (by simp only [fld]; omega)⟩))) rest hw

theorem Sys2Proof.Laws.Encoding.saAnd (p : Pred) (q : Fin 16) (s : Fin 8) (e : Bool) (w : Fin 8) (i : BitVec 3) (v : Fin 8) : Sys2Proof.Laws.Encoding.Statement (.saAnd p q s e w i v) := by
  have := Bool.toNat_lt e
  have := i.isLt
  obtain ⟨s2, s1, s0, hs2, hs1, hs0, _, _, _, hs⟩ := split3 s.val (by omega)
  have he : encode (Instr.saAnd p q s e w i v) = [BitVec.ofNat 32 (0x82000000 + p.val * 0x80000 + q.val * 0x8000 + s2 * 0x4000 + s1 * 0x200 + s0 * 0x10 + e.toNat * 0x2000 + w.val * 0x400 + i.toNat * 0x20 + v.val)] := by
    rw [← hs2, ← hs1, ← hs0]; rfl
  clear hs2 hs1 hs0
  refine ⟨fun hw _ rest => ?_, fun _ h => (Bool.false_ne_true h).elim⟩
  exact roundOne 260 (0x82000000 + p.val * 0x80000 + q.val * 0x8000 + s2 * 0x4000 + s1 * 0x200 + s0 * 0x10 + e.toNat * 0x2000 + w.val * 0x400 + i.toNat * 0x20 + v.val) (by omega) (by decide) he (congrArg some (slotIs (andOf (beqOf (by simp only [fld]; omega)) (beqOf (by simp only [fld]; omega))) rfl (by rw [Sys2Proof.Instr.saAnd.injEq]; exact ⟨finOf _ (by simp only [fld]; omega), finOf _ (by simp only [fld]; omega), finOf _ (joined hs (by simp only [fld]; omega)), boolOf _ (by simp only [fld]; omega), finOf _ (by simp only [fld]; omega), bvOf _ (by simp only [fld]; omega), finOf _ (by simp only [fld]; omega)⟩))) rest hw

theorem Sys2Proof.Laws.Encoding.saOr (p : Pred) (q : Fin 16) (s : Fin 8) (e : Bool) (w : Fin 8) (i : BitVec 3) (v : Fin 8) : Sys2Proof.Laws.Encoding.Statement (.saOr p q s e w i v) := by
  have := Bool.toNat_lt e
  have := i.isLt
  obtain ⟨s2, s1, s0, hs2, hs1, hs0, _, _, _, hs⟩ := split3 s.val (by omega)
  have he : encode (Instr.saOr p q s e w i v) = [BitVec.ofNat 32 (0x82800000 + p.val * 0x80000 + q.val * 0x8000 + s2 * 0x4000 + s1 * 0x200 + s0 * 0x10 + e.toNat * 0x2000 + w.val * 0x400 + i.toNat * 0x20 + v.val)] := by
    rw [← hs2, ← hs1, ← hs0]; rfl
  clear hs2 hs1 hs0
  refine ⟨fun hw _ rest => ?_, fun _ h => (Bool.false_ne_true h).elim⟩
  exact roundOne 261 (0x82800000 + p.val * 0x80000 + q.val * 0x8000 + s2 * 0x4000 + s1 * 0x200 + s0 * 0x10 + e.toNat * 0x2000 + w.val * 0x400 + i.toNat * 0x20 + v.val) (by omega) (by decide) he (congrArg some (slotIs (andOf (beqOf (by simp only [fld]; omega)) (beqOf (by simp only [fld]; omega))) rfl (by rw [Sys2Proof.Instr.saOr.injEq]; exact ⟨finOf _ (by simp only [fld]; omega), finOf _ (by simp only [fld]; omega), finOf _ (joined hs (by simp only [fld]; omega)), boolOf _ (by simp only [fld]; omega), finOf _ (by simp only [fld]; omega), bvOf _ (by simp only [fld]; omega), finOf _ (by simp only [fld]; omega)⟩))) rest hw

theorem Sys2Proof.Laws.Encoding.saXor (p : Pred) (q : Fin 16) (s : Fin 8) (e : Bool) (w : Fin 8) (i : BitVec 3) (v : Fin 8) : Sys2Proof.Laws.Encoding.Statement (.saXor p q s e w i v) := by
  have := Bool.toNat_lt e
  have := i.isLt
  obtain ⟨s2, s1, s0, hs2, hs1, hs0, _, _, _, hs⟩ := split3 s.val (by omega)
  have he : encode (Instr.saXor p q s e w i v) = [BitVec.ofNat 32 (0x83000000 + p.val * 0x80000 + q.val * 0x8000 + s2 * 0x4000 + s1 * 0x200 + s0 * 0x10 + e.toNat * 0x2000 + w.val * 0x400 + i.toNat * 0x20 + v.val)] := by
    rw [← hs2, ← hs1, ← hs0]; rfl
  clear hs2 hs1 hs0
  refine ⟨fun hw _ rest => ?_, fun _ h => (Bool.false_ne_true h).elim⟩
  exact roundOne 262 (0x83000000 + p.val * 0x80000 + q.val * 0x8000 + s2 * 0x4000 + s1 * 0x200 + s0 * 0x10 + e.toNat * 0x2000 + w.val * 0x400 + i.toNat * 0x20 + v.val) (by omega) (by decide) he (congrArg some (slotIs (andOf (beqOf (by simp only [fld]; omega)) (beqOf (by simp only [fld]; omega))) rfl (by rw [Sys2Proof.Instr.saXor.injEq]; exact ⟨finOf _ (by simp only [fld]; omega), finOf _ (by simp only [fld]; omega), finOf _ (joined hs (by simp only [fld]; omega)), boolOf _ (by simp only [fld]; omega), finOf _ (by simp only [fld]; omega), bvOf _ (by simp only [fld]; omega), finOf _ (by simp only [fld]; omega)⟩))) rest hw

theorem Sys2Proof.Laws.Encoding.saSwap (p : Pred) (q : Fin 16) (s : Fin 8) (e : Bool) (w : Fin 8) (i : BitVec 3) (v : Fin 8) : Sys2Proof.Laws.Encoding.Statement (.saSwap p q s e w i v) := by
  have := Bool.toNat_lt e
  have := i.isLt
  obtain ⟨s2, s1, s0, hs2, hs1, hs0, _, _, _, hs⟩ := split3 s.val (by omega)
  have he : encode (Instr.saSwap p q s e w i v) = [BitVec.ofNat 32 (0x83800000 + p.val * 0x80000 + q.val * 0x8000 + s2 * 0x4000 + s1 * 0x200 + s0 * 0x10 + e.toNat * 0x2000 + w.val * 0x400 + i.toNat * 0x20 + v.val)] := by
    rw [← hs2, ← hs1, ← hs0]; rfl
  clear hs2 hs1 hs0
  refine ⟨fun hw _ rest => ?_, fun _ h => (Bool.false_ne_true h).elim⟩
  exact roundOne 263 (0x83800000 + p.val * 0x80000 + q.val * 0x8000 + s2 * 0x4000 + s1 * 0x200 + s0 * 0x10 + e.toNat * 0x2000 + w.val * 0x400 + i.toNat * 0x20 + v.val) (by omega) (by decide) he (congrArg some (slotIs (andOf (beqOf (by simp only [fld]; omega)) (beqOf (by simp only [fld]; omega))) rfl (by rw [Sys2Proof.Instr.saSwap.injEq]; exact ⟨finOf _ (by simp only [fld]; omega), finOf _ (by simp only [fld]; omega), finOf _ (joined hs (by simp only [fld]; omega)), boolOf _ (by simp only [fld]; omega), finOf _ (by simp only [fld]; omega), bvOf _ (by simp only [fld]; omega), finOf _ (by simp only [fld]; omega)⟩))) rest hw

theorem Sys2Proof.Laws.Encoding.saCas (p : Pred) (q : Fin 16) (s : Fin 8) (w : Fin 8) (i : BitVec 3) (v : Fin 8) : Sys2Proof.Laws.Encoding.Statement (.saCas p q s w i v) := by
  have := i.isLt
  obtain ⟨s2, s1, s0, hs2, hs1, hs0, _, _, _, hs⟩ := split3 s.val (by omega)
  have he : encode (Instr.saCas p q s w i v) = [BitVec.ofNat 32 (0x84002000 + p.val * 0x80000 + q.val * 0x8000 + s2 * 0x4000 + s1 * 0x200 + s0 * 0x10 + w.val * 0x400 + i.toNat * 0x20 + v.val)] := by
    rw [← hs2, ← hs1, ← hs0]; rfl
  clear hs2 hs1 hs0
  refine ⟨fun hw _ rest => ?_, fun _ h => (Bool.false_ne_true h).elim⟩
  exact roundOne 264 (0x84002000 + p.val * 0x80000 + q.val * 0x8000 + s2 * 0x4000 + s1 * 0x200 + s0 * 0x10 + w.val * 0x400 + i.toNat * 0x20 + v.val) (by omega) (by decide) he (congrArg some (slotIs (andOf (beqOf (by simp only [fld]; omega)) (beqOf (by simp only [fld]; omega))) (beqOf (by simp only [fld]; omega)) (by rw [Sys2Proof.Instr.saCas.injEq]; exact ⟨finOf _ (by simp only [fld]; omega), finOf _ (by simp only [fld]; omega), finOf _ (joined hs (by simp only [fld]; omega)), finOf _ (by simp only [fld]; omega), bvOf _ (by simp only [fld]; omega), finOf _ (by simp only [fld]; omega)⟩))) rest hw

theorem Sys2Proof.Laws.Encoding.saCnt (p : Pred) (q : Fin 16) (s : Fin 8) (e : Bool) (w : Fin 8) (i : BitVec 3) : Sys2Proof.Laws.Encoding.Statement (.saCnt p q s e w i) := by
  have := Bool.toNat_lt e
  have := i.isLt
  obtain ⟨s2, s1, s0, hs2, hs1, hs0, _, _, _, hs⟩ := split3 s.val (by omega)
  have he : encode (Instr.saCnt p q s e w i) = [BitVec.ofNat 32 (0x84800000 + p.val * 0x80000 + q.val * 0x8000 + s2 * 0x4000 + s1 * 0x200 + s0 * 0x10 + e.toNat * 0x2000 + w.val * 0x400 + i.toNat * 0x20)] := by
    rw [← hs2, ← hs1, ← hs0]; rfl
  clear hs2 hs1 hs0
  refine ⟨fun hw _ rest => ?_, fun _ h => (Bool.false_ne_true h).elim⟩
  exact roundOne 265 (0x84800000 + p.val * 0x80000 + q.val * 0x8000 + s2 * 0x4000 + s1 * 0x200 + s0 * 0x10 + e.toNat * 0x2000 + w.val * 0x400 + i.toNat * 0x20) (by omega) (by decide) he (congrArg some (slotIs (andOf (beqOf (by simp only [fld]; omega)) (beqOf (by simp only [fld]; omega))) rfl (by rw [Sys2Proof.Instr.saCnt.injEq]; exact ⟨finOf _ (by simp only [fld]; omega), finOf _ (by simp only [fld]; omega), finOf _ (joined hs (by simp only [fld]; omega)), boolOf _ (by simp only [fld]; omega), finOf _ (by simp only [fld]; omega), bvOf _ (by simp only [fld]; omega)⟩))) rest hw

theorem Sys2Proof.Laws.Encoding.saScope (p : Pred) (s : Fin 8) : Sys2Proof.Laws.Encoding.Statement (.saScope p s) := by
  obtain ⟨s2, s1, s0, hs2, hs1, hs0, _, _, _, hs⟩ := split3 s.val (by omega)
  have he : encode (Instr.saScope p s) = [BitVec.ofNat 32 (0x85000000 + p.val * 0x80000 + s2 * 0x4000 + s1 * 0x200 + s0 * 0x10)] := by
    rw [← hs2, ← hs1, ← hs0]; rfl
  clear hs2 hs1 hs0
  refine ⟨fun hw _ rest => ?_, fun _ h => (Bool.false_ne_true h).elim⟩
  exact roundOne 266 (0x85000000 + p.val * 0x80000 + s2 * 0x4000 + s1 * 0x200 + s0 * 0x10) (by omega) (by decide) he (congrArg some (slotIs (andOf (andOf (andOf (beqOf (by simp only [fld]; omega)) (beqOf (by simp only [fld]; omega))) (beqOf (by simp only [fld]; omega))) (beqOf (by simp only [fld]; omega))) rfl (by rw [Sys2Proof.Instr.saScope.injEq]; exact ⟨finOf _ (by simp only [fld]; omega), finOf _ (joined hs (by simp only [fld]; omega))⟩))) rest hw

theorem Sys2Proof.Laws.Encoding.saFlush (p : Pred) : Sys2Proof.Laws.Encoding.Statement (.saFlush p) := by
  refine ⟨fun hw _ rest => ?_, fun _ h => (Bool.false_ne_true h).elim⟩
  exact roundOne 267 (0x85800000 + p.val * 0x80000) (by omega) (by decide) rfl (congrArg some (slotIs (beqOf (by simp only [fld]; omega)) rfl (by rw [Sys2Proof.Instr.saFlush.injEq]; exact finOf _ (by simp only [fld]; omega)))) rest hw

theorem Sys2Proof.Laws.Encoding.xLdshape (p : Pred) (q : Fin 16) (s : Fin 32) : Sys2Proof.Laws.Encoding.Statement (.xLdshape p q s) := by
  refine ⟨fun hw _ rest => ?_, fun _ h => (Bool.false_ne_true h).elim⟩
  exact roundOne 320 (0xA0000000 + p.val * 0x80000 + q.val * 0x8000 + s.val * 0x400) (by omega) (by decide) rfl (congrArg some (slotIs (beqOf (by simp only [fld]; omega)) rfl (by rw [Sys2Proof.Instr.xLdshape.injEq]; exact ⟨finOf _ (by simp only [fld]; omega), finOf _ (by simp only [fld]; omega), finOf _ (by simp only [fld]; omega)⟩))) rest hw

theorem Sys2Proof.Laws.Encoding.xEvict (p : Pred) (q : Fin 16) (s : Fin 32) : Sys2Proof.Laws.Encoding.Statement (.xEvict p q s) := by
  refine ⟨fun hw _ rest => ?_, fun _ h => (Bool.false_ne_true h).elim⟩
  exact roundOne 321 (0xA0800000 + p.val * 0x80000 + q.val * 0x8000 + s.val * 0x400) (by omega) (by decide) rfl (congrArg some (slotIs (beqOf (by simp only [fld]; omega)) rfl (by rw [Sys2Proof.Instr.xEvict.injEq]; exact ⟨finOf _ (by simp only [fld]; omega), finOf _ (by simp only [fld]; omega), finOf _ (by simp only [fld]; omega)⟩))) rest hw

theorem Sys2Proof.Laws.Encoding.xLd1 (p : Pred) (q : Fin 16) (s : Fin 32) : Sys2Proof.Laws.Encoding.Statement (.xLd1 p q s) := by
  refine ⟨fun hw _ rest => ?_, fun _ h => (Bool.false_ne_true h).elim⟩
  exact roundOne 322 (0xA1000000 + p.val * 0x80000 + q.val * 0x8000 + s.val * 0x400) (by omega) (by decide) rfl (congrArg some (slotIs (beqOf (by simp only [fld]; omega)) rfl (by rw [Sys2Proof.Instr.xLd1.injEq]; exact ⟨finOf _ (by simp only [fld]; omega), finOf _ (by simp only [fld]; omega), finOf _ (by simp only [fld]; omega)⟩))) rest hw

theorem Sys2Proof.Laws.Encoding.xSt1 (p : Pred) (q : Fin 16) (s : Fin 32) : Sys2Proof.Laws.Encoding.Statement (.xSt1 p q s) := by
  refine ⟨fun hw _ rest => ?_, fun _ h => (Bool.false_ne_true h).elim⟩
  exact roundOne 323 (0xA1800000 + p.val * 0x80000 + q.val * 0x8000 + s.val * 0x400) (by omega) (by decide) rfl (congrArg some (slotIs (beqOf (by simp only [fld]; omega)) rfl (by rw [Sys2Proof.Instr.xSt1.injEq]; exact ⟨finOf _ (by simp only [fld]; omega), finOf _ (by simp only [fld]; omega), finOf _ (by simp only [fld]; omega)⟩))) rest hw

theorem Sys2Proof.Laws.Encoding.xCp1 (p : Pred) (q : Fin 16) : Sys2Proof.Laws.Encoding.Statement (.xCp1 p q) := by
  refine ⟨fun hw _ rest => ?_, fun _ h => (Bool.false_ne_true h).elim⟩
  exact roundOne 324 (0xA2000000 + p.val * 0x80000 + q.val * 0x8000) (by omega) (by decide) rfl (congrArg some (slotIs (beqOf (by simp only [fld]; omega)) rfl (by rw [Sys2Proof.Instr.xCp1.injEq]; exact ⟨finOf _ (by simp only [fld]; omega), finOf _ (by simp only [fld]; omega)⟩))) rest hw

theorem Sys2Proof.Laws.Encoding.xLd2 (p : Pred) (q : Fin 16) (s : Fin 32) : Sys2Proof.Laws.Encoding.Statement (.xLd2 p q s) := by
  refine ⟨fun hw _ rest => ?_, fun _ h => (Bool.false_ne_true h).elim⟩
  exact roundOne 325 (0xA2800000 + p.val * 0x80000 + q.val * 0x8000 + s.val * 0x400) (by omega) (by decide) rfl (congrArg some (slotIs (beqOf (by simp only [fld]; omega)) rfl (by rw [Sys2Proof.Instr.xLd2.injEq]; exact ⟨finOf _ (by simp only [fld]; omega), finOf _ (by simp only [fld]; omega), finOf _ (by simp only [fld]; omega)⟩))) rest hw

theorem Sys2Proof.Laws.Encoding.xSt2 (p : Pred) (q : Fin 16) (s : Fin 32) : Sys2Proof.Laws.Encoding.Statement (.xSt2 p q s) := by
  refine ⟨fun hw _ rest => ?_, fun _ h => (Bool.false_ne_true h).elim⟩
  exact roundOne 326 (0xA3000000 + p.val * 0x80000 + q.val * 0x8000 + s.val * 0x400) (by omega) (by decide) rfl (congrArg some (slotIs (beqOf (by simp only [fld]; omega)) rfl (by rw [Sys2Proof.Instr.xSt2.injEq]; exact ⟨finOf _ (by simp only [fld]; omega), finOf _ (by simp only [fld]; omega), finOf _ (by simp only [fld]; omega)⟩))) rest hw

theorem Sys2Proof.Laws.Encoding.xCp2 (p : Pred) (q : Fin 16) : Sys2Proof.Laws.Encoding.Statement (.xCp2 p q) := by
  refine ⟨fun hw _ rest => ?_, fun _ h => (Bool.false_ne_true h).elim⟩
  exact roundOne 327 (0xA3800000 + p.val * 0x80000 + q.val * 0x8000) (by omega) (by decide) rfl (congrArg some (slotIs (beqOf (by simp only [fld]; omega)) rfl (by rw [Sys2Proof.Instr.xCp2.injEq]; exact ⟨finOf _ (by simp only [fld]; omega), finOf _ (by simp only [fld]; omega)⟩))) rest hw

theorem Sys2Proof.Laws.Encoding.xLd3 (p : Pred) (q : Fin 16) (s : Fin 32) : Sys2Proof.Laws.Encoding.Statement (.xLd3 p q s) := by
  refine ⟨fun hw _ rest => ?_, fun _ h => (Bool.false_ne_true h).elim⟩
  exact roundOne 328 (0xA4000000 + p.val * 0x80000 + q.val * 0x8000 + s.val * 0x400) (by omega) (by decide) rfl (congrArg some (slotIs (beqOf (by simp only [fld]; omega)) rfl (by rw [Sys2Proof.Instr.xLd3.injEq]; exact ⟨finOf _ (by simp only [fld]; omega), finOf _ (by simp only [fld]; omega), finOf _ (by simp only [fld]; omega)⟩))) rest hw

theorem Sys2Proof.Laws.Encoding.xSt3 (p : Pred) (q : Fin 16) (s : Fin 32) : Sys2Proof.Laws.Encoding.Statement (.xSt3 p q s) := by
  refine ⟨fun hw _ rest => ?_, fun _ h => (Bool.false_ne_true h).elim⟩
  exact roundOne 329 (0xA4800000 + p.val * 0x80000 + q.val * 0x8000 + s.val * 0x400) (by omega) (by decide) rfl (congrArg some (slotIs (beqOf (by simp only [fld]; omega)) rfl (by rw [Sys2Proof.Instr.xSt3.injEq]; exact ⟨finOf _ (by simp only [fld]; omega), finOf _ (by simp only [fld]; omega), finOf _ (by simp only [fld]; omega)⟩))) rest hw

theorem Sys2Proof.Laws.Encoding.xCp3 (p : Pred) (q : Fin 16) : Sys2Proof.Laws.Encoding.Statement (.xCp3 p q) := by
  refine ⟨fun hw _ rest => ?_, fun _ h => (Bool.false_ne_true h).elim⟩
  exact roundOne 330 (0xA5000000 + p.val * 0x80000 + q.val * 0x8000) (by omega) (by decide) rfl (congrArg some (slotIs (beqOf (by simp only [fld]; omega)) rfl (by rw [Sys2Proof.Instr.xCp3.injEq]; exact ⟨finOf _ (by simp only [fld]; omega), finOf _ (by simp only [fld]; omega)⟩))) rest hw

theorem Sys2Proof.Laws.Encoding.xLd4 (p : Pred) (q : Fin 16) (s : Fin 32) : Sys2Proof.Laws.Encoding.Statement (.xLd4 p q s) := by
  refine ⟨fun hw _ rest => ?_, fun _ h => (Bool.false_ne_true h).elim⟩
  exact roundOne 331 (0xA5800000 + p.val * 0x80000 + q.val * 0x8000 + s.val * 0x400) (by omega) (by decide) rfl (congrArg some (slotIs (beqOf (by simp only [fld]; omega)) rfl (by rw [Sys2Proof.Instr.xLd4.injEq]; exact ⟨finOf _ (by simp only [fld]; omega), finOf _ (by simp only [fld]; omega), finOf _ (by simp only [fld]; omega)⟩))) rest hw

theorem Sys2Proof.Laws.Encoding.xSt4 (p : Pred) (q : Fin 16) (s : Fin 32) : Sys2Proof.Laws.Encoding.Statement (.xSt4 p q s) := by
  refine ⟨fun hw _ rest => ?_, fun _ h => (Bool.false_ne_true h).elim⟩
  exact roundOne 332 (0xA6000000 + p.val * 0x80000 + q.val * 0x8000 + s.val * 0x400) (by omega) (by decide) rfl (congrArg some (slotIs (beqOf (by simp only [fld]; omega)) rfl (by rw [Sys2Proof.Instr.xSt4.injEq]; exact ⟨finOf _ (by simp only [fld]; omega), finOf _ (by simp only [fld]; omega), finOf _ (by simp only [fld]; omega)⟩))) rest hw

theorem Sys2Proof.Laws.Encoding.xCp4 (p : Pred) (q : Fin 16) : Sys2Proof.Laws.Encoding.Statement (.xCp4 p q) := by
  refine ⟨fun hw _ rest => ?_, fun _ h => (Bool.false_ne_true h).elim⟩
  exact roundOne 333 (0xA6800000 + p.val * 0x80000 + q.val * 0x8000) (by omega) (by decide) rfl (congrArg some (slotIs (beqOf (by simp only [fld]; omega)) rfl (by rw [Sys2Proof.Instr.xCp4.injEq]; exact ⟨finOf _ (by simp only [fld]; omega), finOf _ (by simp only [fld]; omega)⟩))) rest hw

theorem Sys2Proof.Laws.Encoding.xDact (p : Pred) (q : Fin 16) : Sys2Proof.Laws.Encoding.Statement (.xDact p q) := by
  refine ⟨fun hw _ rest => ?_, fun _ h => (Bool.false_ne_true h).elim⟩
  exact roundOne 334 (0xA7000000 + p.val * 0x80000 + q.val * 0x8000) (by omega) (by decide) rfl (congrArg some (slotIs (beqOf (by simp only [fld]; omega)) rfl (by rw [Sys2Proof.Instr.xDact.injEq]; exact ⟨finOf _ (by simp only [fld]; omega), finOf _ (by simp only [fld]; omega)⟩))) rest hw

theorem Sys2Proof.Laws.Encoding.xDpre (p : Pred) (q : Fin 16) : Sys2Proof.Laws.Encoding.Statement (.xDpre p q) := by
  refine ⟨fun hw _ rest => ?_, fun _ h => (Bool.false_ne_true h).elim⟩
  exact roundOne 335 (0xA7800000 + p.val * 0x80000 + q.val * 0x8000) (by omega) (by decide) rfl (congrArg some (slotIs (beqOf (by simp only [fld]; omega)) rfl (by rw [Sys2Proof.Instr.xDpre.injEq]; exact ⟨finOf _ (by simp only [fld]; omega), finOf _ (by simp only [fld]; omega)⟩))) rest hw

theorem Sys2Proof.Laws.Encoding.xDref (p : Pred) (q : Fin 16) : Sys2Proof.Laws.Encoding.Statement (.xDref p q) := by
  refine ⟨fun hw _ rest => ?_, fun _ h => (Bool.false_ne_true h).elim⟩
  exact roundOne 336 (0xA8000000 + p.val * 0x80000 + q.val * 0x8000) (by omega) (by decide) rfl (congrArg some (slotIs (beqOf (by simp only [fld]; omega)) rfl (by rw [Sys2Proof.Instr.xDref.injEq]; exact ⟨finOf _ (by simp only [fld]; omega), finOf _ (by simp only [fld]; omega)⟩))) rest hw

theorem Sys2Proof.Laws.Encoding.xFld (p : Pred) (q : Fin 16) (s : Fin 32) (c : Fin 8) (k : Fin 32) : Sys2Proof.Laws.Encoding.Statement (.xFld p q s c k) := by
  refine ⟨fun hw _ rest => ?_, fun _ h => (Bool.false_ne_true h).elim⟩
  exact roundOne 337 (0xA8800000 + p.val * 0x80000 + q.val * 0x8000 + s.val * 0x400 + c.val * 0x20 + k.val) (by omega) (by decide) rfl (congrArg some (slotIs (beqOf (by simp only [fld]; omega)) rfl (by rw [Sys2Proof.Instr.xFld.injEq]; exact ⟨finOf _ (by simp only [fld]; omega), finOf _ (by simp only [fld]; omega), finOf _ (by simp only [fld]; omega), finOf _ (by simp only [fld]; omega), finOf _ (by simp only [fld]; omega)⟩))) rest hw

theorem Sys2Proof.Laws.Encoding.xFst (p : Pred) (q : Fin 16) (s : Fin 32) : Sys2Proof.Laws.Encoding.Statement (.xFst p q s) := by
  refine ⟨fun hw _ rest => ?_, fun _ h => (Bool.false_ne_true h).elim⟩
  exact roundOne 338 (0xA9000000 + p.val * 0x80000 + q.val * 0x8000 + s.val * 0x400) (by omega) (by decide) rfl (congrArg some (slotIs (beqOf (by simp only [fld]; omega)) rfl (by rw [Sys2Proof.Instr.xFst.injEq]; exact ⟨finOf _ (by simp only [fld]; omega), finOf _ (by simp only [fld]; omega), finOf _ (by simp only [fld]; omega)⟩))) rest hw

theorem Sys2Proof.Laws.Encoding.xTrun (p : Pred) (q : Fin 16) : Sys2Proof.Laws.Encoding.Statement (.xTrun p q) := by
  refine ⟨fun hw _ rest => ?_, fun _ h => (Bool.false_ne_true h).elim⟩
  exact roundOne 339 (0xA9800000 + p.val * 0x80000 + q.val * 0x8000) (by omega) (by decide) rfl (congrArg some (slotIs (beqOf (by simp only [fld]; omega)) rfl (by rw [Sys2Proof.Instr.xTrun.injEq]; exact ⟨finOf _ (by simp only [fld]; omega), finOf _ (by simp only [fld]; omega)⟩))) rest hw

theorem Sys2Proof.Laws.Encoding.xTok (p : Pred) (k : Fin 4) : Sys2Proof.Laws.Encoding.Statement (.xTok p k) := by
  refine ⟨fun hw _ rest => ?_, fun _ h => (Bool.false_ne_true h).elim⟩
  exact roundOne 340 (0xAA000000 + p.val * 0x80000 + k.val * 0x400) (by omega) (by decide) rfl (congrArg some (slotIs (andOf (beqOf (by simp only [fld]; omega)) (beqOf (by simp only [fld]; omega))) (beqOf (by simp only [fld]; omega)) (by rw [Sys2Proof.Instr.xTok.injEq]; exact ⟨finOf _ (by simp only [fld]; omega), finOf _ (by simp only [fld]; omega)⟩))) rest hw

theorem Sys2Proof.Laws.Encoding.xLpow (p : Pred) (l : Fin 32) (u : Bool) : Sys2Proof.Laws.Encoding.Statement (.xLpow p l u) := by
  have := Bool.toNat_lt u
  refine ⟨fun hw _ rest => ?_, fun _ h => (Bool.false_ne_true h).elim⟩
  exact roundOne 341 (0xAA800000 + p.val * 0x80000 + l.val * 0x400 + u.toNat * 0x20) (by omega) (by decide) rfl (congrArg some (slotIs (andOf (andOf (beqOf (by simp only [fld]; omega)) (beqOf (by simp only [fld]; omega))) (beqOf (by simp only [fld]; omega))) rfl (by rw [Sys2Proof.Instr.xLpow.injEq]; exact ⟨finOf _ (by simp only [fld]; omega), finOf _ (by simp only [fld]; omega), boolOf _ (by simp only [fld]; omega)⟩))) rest hw

theorem Sys2Proof.Laws.Encoding.lpLdtab (p : Pred) (q : Fin 16) : Sys2Proof.Laws.Encoding.Statement (.lpLdtab p q) := by
  refine ⟨fun hw _ rest => ?_, fun _ h => (Bool.false_ne_true h).elim⟩
  exact roundOne 384 (0xC0000000 + p.val * 0x80000 + q.val * 0x8000) (by omega) (by decide) rfl (congrArg some (slotIs (beqOf (by simp only [fld]; omega)) rfl (by rw [Sys2Proof.Instr.lpLdtab.injEq]; exact ⟨finOf _ (by simp only [fld]; omega), finOf _ (by simp only [fld]; omega)⟩))) rest hw

theorem Sys2Proof.Laws.Encoding.lpDone (p : Pred) : Sys2Proof.Laws.Encoding.Statement (.lpDone p) := by
  refine ⟨fun hw _ rest => ?_, fun _ h => (Bool.false_ne_true h).elim⟩
  exact roundOne 385 (0xC0800000 + p.val * 0x80000) (by omega) (by decide) rfl (congrArg some (slotIs (beqOf (by simp only [fld]; omega)) rfl (by rw [Sys2Proof.Instr.lpDone.injEq]; exact finOf _ (by simp only [fld]; omega)))) rest hw

theorem Sys2Proof.Laws.Encoding.lpSchedw (p : Pred) (q : Fin 16) : Sys2Proof.Laws.Encoding.Statement (.lpSchedw p q) := by
  refine ⟨fun hw _ rest => ?_, fun _ h => (Bool.false_ne_true h).elim⟩
  exact roundOne 386 (0xC1000000 + p.val * 0x80000 + q.val * 0x8000) (by omega) (by decide) rfl (congrArg some (slotIs (beqOf (by simp only [fld]; omega)) rfl (by rw [Sys2Proof.Instr.lpSchedw.injEq]; exact ⟨finOf _ (by simp only [fld]; omega), finOf _ (by simp only [fld]; omega)⟩))) rest hw

theorem Sys2Proof.Laws.Encoding.lpSchedr (p : Pred) (q : Fin 16) (u : Bool) (r : Fin 16) (s : Bool) : Sys2Proof.Laws.Encoding.Statement (.lpSchedr p q u r s) := by
  have := Bool.toNat_lt u
  have := Bool.toNat_lt s
  refine ⟨fun hw _ rest => ?_, fun _ h => (Bool.false_ne_true h).elim⟩
  exact roundOne 387 (0xC1800000 + p.val * 0x80000 + q.val * 0x8000 + u.toNat * 0x4000 + r.val * 0x400 + s.toNat * 0x20) (by omega) (by decide) rfl (congrArg some (slotIs (andOf (beqOf (by simp only [fld]; omega)) (beqOf (by simp only [fld]; omega))) rfl (by rw [Sys2Proof.Instr.lpSchedr.injEq]; exact ⟨finOf _ (by simp only [fld]; omega), finOf _ (by simp only [fld]; omega), boolOf _ (by simp only [fld]; omega), finOf _ (by simp only [fld]; omega), boolOf _ (by simp only [fld]; omega)⟩))) rest hw

theorem Sys2Proof.Laws.Encoding.lpCov (p : Pred) (q : Fin 16) (u : Bool) (r : Fin 16) : Sys2Proof.Laws.Encoding.Statement (.lpCov p q u r) := by
  have := Bool.toNat_lt u
  refine ⟨fun hw _ rest => ?_, fun _ h => (Bool.false_ne_true h).elim⟩
  exact roundOne 388 (0xC2000000 + p.val * 0x80000 + q.val * 0x8000 + u.toNat * 0x4000 + r.val * 0x400) (by omega) (by decide) rfl (congrArg some (slotIs (beqOf (by simp only [fld]; omega)) rfl (by rw [Sys2Proof.Instr.lpCov.injEq]; exact ⟨finOf _ (by simp only [fld]; omega), finOf _ (by simp only [fld]; omega), boolOf _ (by simp only [fld]; omega), finOf _ (by simp only [fld]; omega)⟩))) rest hw

theorem Sys2Proof.Laws.Encoding.lpCovrd (p : Pred) (q : Fin 16) (u : Bool) (r : Fin 16) : Sys2Proof.Laws.Encoding.Statement (.lpCovrd p q u r) := by
  have := Bool.toNat_lt u
  refine ⟨fun hw _ rest => ?_, fun _ h => (Bool.false_ne_true h).elim⟩
  exact roundOne 389 (0xC2800000 + p.val * 0x80000 + q.val * 0x8000 + u.toNat * 0x4000 + r.val * 0x400) (by omega) (by decide) rfl (congrArg some (slotIs (beqOf (by simp only [fld]; omega)) rfl (by rw [Sys2Proof.Instr.lpCovrd.injEq]; exact ⟨finOf _ (by simp only [fld]; omega), finOf _ (by simp only [fld]; omega), boolOf _ (by simp only [fld]; omega), finOf _ (by simp only [fld]; omega)⟩))) rest hw

theorem Sys2Proof.Laws.Encoding.lpGen (p : Pred) (u : Bool) (r : Fin 16) : Sys2Proof.Laws.Encoding.Statement (.lpGen p u r) := by
  have := Bool.toNat_lt u
  refine ⟨fun hw _ rest => ?_, fun _ h => (Bool.false_ne_true h).elim⟩
  exact roundOne 390 (0xC3000000 + p.val * 0x80000 + u.toNat * 0x4000 + r.val * 0x400) (by omega) (by decide) rfl (congrArg some (slotIs (andOf (beqOf (by simp only [fld]; omega)) (beqOf (by simp only [fld]; omega))) rfl (by rw [Sys2Proof.Instr.lpGen.injEq]; exact ⟨finOf _ (by simp only [fld]; omega), boolOf _ (by simp only [fld]; omega), finOf _ (by simp only [fld]; omega)⟩))) rest hw

theorem Sys2Proof.Laws.Encoding.lpStat (p : Pred) (u : Bool) (r : Fin 16) : Sys2Proof.Laws.Encoding.Statement (.lpStat p u r) := by
  have := Bool.toNat_lt u
  refine ⟨fun hw _ rest => ?_, fun _ h => (Bool.false_ne_true h).elim⟩
  exact roundOne 391 (0xC3800000 + p.val * 0x80000 + u.toNat * 0x4000 + r.val * 0x400) (by omega) (by decide) rfl (congrArg some (slotIs (andOf (beqOf (by simp only [fld]; omega)) (beqOf (by simp only [fld]; omega))) rfl (by rw [Sys2Proof.Instr.lpStat.injEq]; exact ⟨finOf _ (by simp only [fld]; omega), boolOf _ (by simp only [fld]; omega), finOf _ (by simp only [fld]; omega)⟩))) rest hw

theorem Sys2Proof.Laws.Encoding.lpAddp (p : Pred) (q : Fin 16) : Sys2Proof.Laws.Encoding.Statement (.lpAddp p q) := by
  refine ⟨fun hw _ rest => ?_, fun _ h => (Bool.false_ne_true h).elim⟩
  exact roundOne 392 (0xC4000000 + p.val * 0x80000 + q.val * 0x8000) (by omega) (by decide) rfl (congrArg some (slotIs (beqOf (by simp only [fld]; omega)) rfl (by rw [Sys2Proof.Instr.lpAddp.injEq]; exact ⟨finOf _ (by simp only [fld]; omega), finOf _ (by simp only [fld]; omega)⟩))) rest hw

theorem Sys2Proof.Laws.Encoding.lpPend (p : Pred) (u : Bool) (r : Fin 16) : Sys2Proof.Laws.Encoding.Statement (.lpPend p u r) := by
  have := Bool.toNat_lt u
  refine ⟨fun hw _ rest => ?_, fun _ h => (Bool.false_ne_true h).elim⟩
  exact roundOne 393 (0xC4800000 + p.val * 0x80000 + u.toNat * 0x4000 + r.val * 0x400) (by omega) (by decide) rfl (congrArg some (slotIs (andOf (beqOf (by simp only [fld]; omega)) (beqOf (by simp only [fld]; omega))) rfl (by rw [Sys2Proof.Instr.lpPend.injEq]; exact ⟨finOf _ (by simp only [fld]; omega), boolOf _ (by simp only [fld]; omega), finOf _ (by simp only [fld]; omega)⟩))) rest hw

theorem Sys2Proof.Laws.Encoding.lpPos (p : Pred) (q : Fin 16) (u : Bool) (r : Fin 16) : Sys2Proof.Laws.Encoding.Statement (.lpPos p q u r) := by
  have := Bool.toNat_lt u
  refine ⟨fun hw _ rest => ?_, fun _ h => (Bool.false_ne_true h).elim⟩
  exact roundOne 394 (0xC5000000 + p.val * 0x80000 + q.val * 0x8000 + u.toNat * 0x4000 + r.val * 0x400) (by omega) (by decide) rfl (congrArg some (slotIs (beqOf (by simp only [fld]; omega)) rfl (by rw [Sys2Proof.Instr.lpPos.injEq]; exact ⟨finOf _ (by simp only [fld]; omega), finOf _ (by simp only [fld]; omega), boolOf _ (by simp only [fld]; omega), finOf _ (by simp only [fld]; omega)⟩))) rest hw

theorem Sys2Proof.Laws.Encoding.lpDrain (p : Pred) : Sys2Proof.Laws.Encoding.Statement (.lpDrain p) := by
  refine ⟨fun hw _ rest => ?_, fun _ h => (Bool.false_ne_true h).elim⟩
  exact roundOne 395 (0xC5800000 + p.val * 0x80000) (by omega) (by decide) rfl (congrArg some (slotIs (beqOf (by simp only [fld]; omega)) rfl (by rw [Sys2Proof.Instr.lpDrain.injEq]; exact finOf _ (by simp only [fld]; omega)))) rest hw

theorem Sys2Proof.Laws.Encoding.lpPermits (p : Pred) (u : Bool) (r : Fin 16) : Sys2Proof.Laws.Encoding.Statement (.lpPermits p u r) := by
  have := Bool.toNat_lt u
  refine ⟨fun hw _ rest => ?_, fun _ h => (Bool.false_ne_true h).elim⟩
  exact roundOne 396 (0xC6000000 + p.val * 0x80000 + u.toNat * 0x4000 + r.val * 0x400) (by omega) (by decide) rfl (congrArg some (slotIs (andOf (beqOf (by simp only [fld]; omega)) (beqOf (by simp only [fld]; omega))) rfl (by rw [Sys2Proof.Instr.lpPermits.injEq]; exact ⟨finOf _ (by simp only [fld]; omega), boolOf _ (by simp only [fld]; omega), finOf _ (by simp only [fld]; omega)⟩))) rest hw

theorem Sys2Proof.Laws.Encoding.lpRec (p : Pred) (u : Bool) (r : Fin 16) : Sys2Proof.Laws.Encoding.Statement (.lpRec p u r) := by
  have := Bool.toNat_lt u
  refine ⟨fun hw _ rest => ?_, fun _ h => (Bool.false_ne_true h).elim⟩
  exact roundOne 397 (0xC6800000 + p.val * 0x80000 + u.toNat * 0x4000 + r.val * 0x400) (by omega) (by decide) rfl (congrArg some (slotIs (andOf (beqOf (by simp only [fld]; omega)) (beqOf (by simp only [fld]; omega))) rfl (by rw [Sys2Proof.Instr.lpRec.injEq]; exact ⟨finOf _ (by simp only [fld]; omega), boolOf _ (by simp only [fld]; omega), finOf _ (by simp only [fld]; omega)⟩))) rest hw

theorem Sys2Proof.Laws.Encoding.sArm (p : Pred) (q : Fin 16) (f : Bool) : Sys2Proof.Laws.Encoding.Statement (.sArm p q f) := by
  have := Bool.toNat_lt f
  refine ⟨fun hw _ rest => ?_, fun _ h => (Bool.false_ne_true h).elim⟩
  exact roundOne 448 (0xE0000000 + p.val * 0x80000 + q.val * 0x8000 + f.toNat * 0x20) (by omega) (by decide) rfl (congrArg some (slotIs (andOf (beqOf (by simp only [fld]; omega)) (beqOf (by simp only [fld]; omega))) rfl (by rw [Sys2Proof.Instr.sArm.injEq]; exact ⟨finOf _ (by simp only [fld]; omega), finOf _ (by simp only [fld]; omega), boolOf _ (by simp only [fld]; omega)⟩))) rest hw

theorem Sys2Proof.Laws.Encoding.sArmc (p : Pred) (q : Fin 16) (f : Bool) : Sys2Proof.Laws.Encoding.Statement (.sArmc p q f) := by
  have := Bool.toNat_lt f
  refine ⟨fun hw _ rest => ?_, fun _ h => (Bool.false_ne_true h).elim⟩
  exact roundOne 449 (0xE0800000 + p.val * 0x80000 + q.val * 0x8000 + f.toNat * 0x20) (by omega) (by decide) rfl (congrArg some (slotIs (andOf (beqOf (by simp only [fld]; omega)) (beqOf (by simp only [fld]; omega))) rfl (by rw [Sys2Proof.Instr.sArmc.injEq]; exact ⟨finOf _ (by simp only [fld]; omega), finOf _ (by simp only [fld]; omega), boolOf _ (by simp only [fld]; omega)⟩))) rest hw

theorem Sys2Proof.Laws.Encoding.sDisarm (p : Pred) (q : Fin 16) : Sys2Proof.Laws.Encoding.Statement (.sDisarm p q) := by
  refine ⟨fun hw _ rest => ?_, fun _ h => (Bool.false_ne_true h).elim⟩
  exact roundOne 450 (0xE1000000 + p.val * 0x80000 + q.val * 0x8000) (by omega) (by decide) rfl (congrArg some (slotIs (beqOf (by simp only [fld]; omega)) rfl (by rw [Sys2Proof.Instr.sDisarm.injEq]; exact ⟨finOf _ (by simp only [fld]; omega), finOf _ (by simp only [fld]; omega)⟩))) rest hw

theorem Sys2Proof.Laws.Encoding.sSig (p : Pred) (q : Fin 16) : Sys2Proof.Laws.Encoding.Statement (.sSig p q) := by
  refine ⟨fun hw _ rest => ?_, fun _ h => (Bool.false_ne_true h).elim⟩
  exact roundOne 451 (0xE1800000 + p.val * 0x80000 + q.val * 0x8000) (by omega) (by decide) rfl (congrArg some (slotIs (beqOf (by simp only [fld]; omega)) rfl (by rw [Sys2Proof.Instr.sSig.injEq]; exact ⟨finOf _ (by simp only [fld]; omega), finOf _ (by simp only [fld]; omega)⟩))) rest hw

theorem Sys2Proof.Laws.Encoding.sWait (p : Pred) (q : Fin 16) (u : Bool) (r : Fin 16) : Sys2Proof.Laws.Encoding.Statement (.sWait p q u r) := by
  have := Bool.toNat_lt u
  refine ⟨fun hw _ rest => ?_, fun _ h => (Bool.false_ne_true h).elim⟩
  exact roundOne 452 (0xE2000000 + p.val * 0x80000 + q.val * 0x8000 + u.toNat * 0x4000 + r.val * 0x400) (by omega) (by decide) rfl (congrArg some (slotIs (beqOf (by simp only [fld]; omega)) rfl (by rw [Sys2Proof.Instr.sWait.injEq]; exact ⟨finOf _ (by simp only [fld]; omega), finOf _ (by simp only [fld]; omega), boolOf _ (by simp only [fld]; omega), finOf _ (by simp only [fld]; omega)⟩))) rest hw

theorem Sys2Proof.Laws.Encoding.sWaitn (p : Pred) (q : Fin 16) : Sys2Proof.Laws.Encoding.Statement (.sWaitn p q) := by
  refine ⟨fun hw _ rest => ?_, fun _ h => (Bool.false_ne_true h).elim⟩
  exact roundOne 453 (0xE2800000 + p.val * 0x80000 + q.val * 0x8000) (by omega) (by decide) rfl (congrArg some (slotIs (beqOf (by simp only [fld]; omega)) rfl (by rw [Sys2Proof.Instr.sWaitn.injEq]; exact ⟨finOf _ (by simp only [fld]; omega), finOf _ (by simp only [fld]; omega)⟩))) rest hw

theorem Sys2Proof.Laws.Encoding.sBstat (p : Pred) (q : Fin 16) (u : Bool) (r : Fin 16) : Sys2Proof.Laws.Encoding.Statement (.sBstat p q u r) := by
  have := Bool.toNat_lt u
  refine ⟨fun hw _ rest => ?_, fun _ h => (Bool.false_ne_true h).elim⟩
  exact roundOne 454 (0xE3000000 + p.val * 0x80000 + q.val * 0x8000 + u.toNat * 0x4000 + r.val * 0x400) (by omega) (by decide) rfl (congrArg some (slotIs (beqOf (by simp only [fld]; omega)) rfl (by rw [Sys2Proof.Instr.sBstat.injEq]; exact ⟨finOf _ (by simp only [fld]; omega), finOf _ (by simp only [fld]; omega), boolOf _ (by simp only [fld]; omega), finOf _ (by simp only [fld]; omega)⟩))) rest hw

theorem Sys2Proof.Laws.Encoding.sFnew (p : Pred) (q : Fin 16) : Sys2Proof.Laws.Encoding.Statement (.sFnew p q) := by
  refine ⟨fun hw _ rest => ?_, fun _ h => (Bool.false_ne_true h).elim⟩
  exact roundOne 455 (0xE3800000 + p.val * 0x80000 + q.val * 0x8000) (by omega) (by decide) rfl (congrArg some (slotIs (beqOf (by simp only [fld]; omega)) rfl (by rw [Sys2Proof.Instr.sFnew.injEq]; exact ⟨finOf _ (by simp only [fld]; omega), finOf _ (by simp only [fld]; omega)⟩))) rest hw

theorem Sys2Proof.Laws.Encoding.sFjoin (p : Pred) (q : Fin 16) : Sys2Proof.Laws.Encoding.Statement (.sFjoin p q) := by
  refine ⟨fun hw _ rest => ?_, fun _ h => (Bool.false_ne_true h).elim⟩
  exact roundOne 456 (0xE4000000 + p.val * 0x80000 + q.val * 0x8000) (by omega) (by decide) rfl (congrArg some (slotIs (beqOf (by simp only [fld]; omega)) rfl (by rw [Sys2Proof.Instr.sFjoin.injEq]; exact ⟨finOf _ (by simp only [fld]; omega), finOf _ (by simp only [fld]; omega)⟩))) rest hw

theorem Sys2Proof.Laws.Encoding.sFres (p : Pred) (q : Fin 16) : Sys2Proof.Laws.Encoding.Statement (.sFres p q) := by
  refine ⟨fun hw _ rest => ?_, fun _ h => (Bool.false_ne_true h).elim⟩
  exact roundOne 457 (0xE4800000 + p.val * 0x80000 + q.val * 0x8000) (by omega) (by decide) rfl (congrArg some (slotIs (beqOf (by simp only [fld]; omega)) rfl (by rw [Sys2Proof.Instr.sFres.injEq]; exact ⟨finOf _ (by simp only [fld]; omega), finOf _ (by simp only [fld]; omega)⟩))) rest hw

theorem Sys2Proof.Laws.Encoding.sFpeek (p : Pred) (q : Fin 16) (u : Bool) (r : Fin 16) : Sys2Proof.Laws.Encoding.Statement (.sFpeek p q u r) := by
  have := Bool.toNat_lt u
  refine ⟨fun hw _ rest => ?_, fun _ h => (Bool.false_ne_true h).elim⟩
  exact roundOne 458 (0xE5000000 + p.val * 0x80000 + q.val * 0x8000 + u.toNat * 0x4000 + r.val * 0x400) (by omega) (by decide) rfl (congrArg some (slotIs (beqOf (by simp only [fld]; omega)) rfl (by rw [Sys2Proof.Instr.sFpeek.injEq]; exact ⟨finOf _ (by simp only [fld]; omega), finOf _ (by simp only [fld]; omega), boolOf _ (by simp only [fld]; omega), finOf _ (by simp only [fld]; omega)⟩))) rest hw

theorem Sys2Proof.Laws.Encoding.sLaunch (p : Pred) (q : Fin 16) (u : Bool) (r : Fin 16) : Sys2Proof.Laws.Encoding.Statement (.sLaunch p q u r) := by
  have := Bool.toNat_lt u
  refine ⟨fun hw _ rest => ?_, fun _ h => (Bool.false_ne_true h).elim⟩
  exact roundOne 459 (0xE5800000 + p.val * 0x80000 + q.val * 0x8000 + u.toNat * 0x4000 + r.val * 0x400) (by omega) (by decide) rfl (congrArg some (slotIs (beqOf (by simp only [fld]; omega)) rfl (by rw [Sys2Proof.Instr.sLaunch.injEq]; exact ⟨finOf _ (by simp only [fld]; omega), finOf _ (by simp only [fld]; omega), boolOf _ (by simp only [fld]; omega), finOf _ (by simp only [fld]; omega)⟩))) rest hw

theorem Sys2Proof.Laws.Encoding.sExit (p : Pred) (q : Fin 16) (k : Fin 8) : Sys2Proof.Laws.Encoding.Statement (.sExit p q k) := by
  refine ⟨fun hw _ rest => ?_, fun _ h => (Bool.false_ne_true h).elim⟩
  exact roundOne 460 (0xE6000000 + p.val * 0x80000 + q.val * 0x8000 + k.val * 0x400) (by omega) (by decide) rfl (congrArg some (slotIs (andOf (beqOf (by simp only [fld]; omega)) (beqOf (by simp only [fld]; omega))) rfl (by rw [Sys2Proof.Instr.sExit.injEq]; exact ⟨finOf _ (by simp only [fld]; omega), finOf _ (by simp only [fld]; omega), finOf _ (by simp only [fld]; omega)⟩))) rest hw

theorem Sys2Proof.Laws.Encoding.sHalt (p : Pred) : Sys2Proof.Laws.Encoding.Statement (.sHalt p) := by
  refine ⟨fun hw _ rest => ?_, fun _ h => (Bool.false_ne_true h).elim⟩
  exact roundOne 461 (0xE6800000 + p.val * 0x80000) (by omega) (by decide) rfl (congrArg some (slotIs (beqOf (by simp only [fld]; omega)) rfl (by rw [Sys2Proof.Instr.sHalt.injEq]; exact finOf _ (by simp only [fld]; omega)))) rest hw

theorem Sys2Proof.Laws.Encoding.sPhase (p : Pred) (q : Fin 16) (n : Bool) : Sys2Proof.Laws.Encoding.Statement (.sPhase p q n) := by
  have := Bool.toNat_lt n
  refine ⟨fun hw _ rest => ?_, fun _ h => (Bool.false_ne_true h).elim⟩
  exact roundOne 462 (0xE7000000 + p.val * 0x80000 + q.val * 0x8000 + n.toNat * 0x20) (by omega) (by decide) rfl (congrArg some (slotIs (andOf (beqOf (by simp only [fld]; omega)) (beqOf (by simp only [fld]; omega))) rfl (by rw [Sys2Proof.Instr.sPhase.injEq]; exact ⟨finOf _ (by simp only [fld]; omega), finOf _ (by simp only [fld]; omega), boolOf _ (by simp only [fld]; omega)⟩))) rest hw

theorem Sys2Proof.Laws.Encoding.sQopen (p : Pred) (s : Fin 16) : Sys2Proof.Laws.Encoding.Statement (.sQopen p s) := by
  refine ⟨fun hw _ rest => ?_, fun _ h => (Bool.false_ne_true h).elim⟩
  exact roundOne 463 (0xE7800000 + p.val * 0x80000 + s.val * 0x20) (by omega) (by decide) rfl (congrArg some (slotIs (andOf (beqOf (by simp only [fld]; omega)) (beqOf (by simp only [fld]; omega))) rfl (by rw [Sys2Proof.Instr.sQopen.injEq]; exact ⟨finOf _ (by simp only [fld]; omega), finOf _ (by simp only [fld]; omega)⟩))) rest hw

theorem Sys2Proof.Laws.Encoding.sQsplit (p : Pred) (q : Fin 16) : Sys2Proof.Laws.Encoding.Statement (.sQsplit p q) := by
  refine ⟨fun hw _ rest => ?_, fun _ h => (Bool.false_ne_true h).elim⟩
  exact roundOne 464 (0xE8000000 + p.val * 0x80000 + q.val * 0x8000) (by omega) (by decide) rfl (congrArg some (slotIs (beqOf (by simp only [fld]; omega)) rfl (by rw [Sys2Proof.Instr.sQsplit.injEq]; exact ⟨finOf _ (by simp only [fld]; omega), finOf _ (by simp only [fld]; omega)⟩))) rest hw

theorem Sys2Proof.Laws.Encoding.sQret (p : Pred) (q : Fin 16) : Sys2Proof.Laws.Encoding.Statement (.sQret p q) := by
  refine ⟨fun hw _ rest => ?_, fun _ h => (Bool.false_ne_true h).elim⟩
  exact roundOne 465 (0xE8800000 + p.val * 0x80000 + q.val * 0x8000) (by omega) (by decide) rfl (congrArg some (slotIs (beqOf (by simp only [fld]; omega)) rfl (by rw [Sys2Proof.Instr.sQret.injEq]; exact ⟨finOf _ (by simp only [fld]; omega), finOf _ (by simp only [fld]; omega)⟩))) rest hw

theorem Sys2Proof.Laws.Encoding.sWaitq (p : Pred) (u : Bool) (r : Fin 16) (s : Fin 16) : Sys2Proof.Laws.Encoding.Statement (.sWaitq p u r s) := by
  have := Bool.toNat_lt u
  refine ⟨fun hw _ rest => ?_, fun _ h => (Bool.false_ne_true h).elim⟩
  exact roundOne 466 (0xE9000000 + p.val * 0x80000 + u.toNat * 0x4000 + r.val * 0x400 + s.val * 0x20) (by omega) (by decide) rfl (congrArg some (slotIs (andOf (andOf (beqOf (by simp only [fld]; omega)) (beqOf (by simp only [fld]; omega))) (beqOf (by simp only [fld]; omega))) rfl (by rw [Sys2Proof.Instr.sWaitq.injEq]; exact ⟨finOf _ (by simp only [fld]; omega), boolOf _ (by simp only [fld]; omega), finOf _ (by simp only [fld]; omega), finOf _ (by simp only [fld]; omega)⟩))) rest hw

theorem Sys2Proof.Laws.Encoding.sQstat (p : Pred) (u : Bool) (r : Fin 16) (s : Fin 16) : Sys2Proof.Laws.Encoding.Statement (.sQstat p u r s) := by
  have := Bool.toNat_lt u
  refine ⟨fun hw _ rest => ?_, fun _ h => (Bool.false_ne_true h).elim⟩
  exact roundOne 467 (0xE9800000 + p.val * 0x80000 + u.toNat * 0x4000 + r.val * 0x400 + s.val * 0x20) (by omega) (by decide) rfl (congrArg some (slotIs (andOf (andOf (beqOf (by simp only [fld]; omega)) (beqOf (by simp only [fld]; omega))) (beqOf (by simp only [fld]; omega))) rfl (by rw [Sys2Proof.Instr.sQstat.injEq]; exact ⟨finOf _ (by simp only [fld]; omega), boolOf _ (by simp only [fld]; omega), finOf _ (by simp only [fld]; omega), finOf _ (by simp only [fld]; omega)⟩))) rest hw

theorem Sys2Proof.Laws.Encoding.sQclose (p : Pred) (s : Fin 16) : Sys2Proof.Laws.Encoding.Statement (.sQclose p s) := by
  refine ⟨fun hw _ rest => ?_, fun _ h => (Bool.false_ne_true h).elim⟩
  exact roundOne 468 (0xEA000000 + p.val * 0x80000 + s.val * 0x20) (by omega) (by decide) rfl (congrArg some (slotIs (andOf (beqOf (by simp only [fld]; omega)) (beqOf (by simp only [fld]; omega))) rfl (by rw [Sys2Proof.Instr.sQclose.injEq]; exact ⟨finOf _ (by simp only [fld]; omega), finOf _ (by simp only [fld]; omega)⟩))) rest hw

theorem Sys2Proof.Laws.Encoding.sNpr (p : Pred) (x : BitVec 32) : Sys2Proof.Laws.Encoding.Statement (.sNpr p x) := by
  refine ⟨fun hw _ rest => ?_, fun _ h => (Bool.false_ne_true h).elim⟩
  exact roundTwo 469 (0xEA800000 + p.val * 0x80000) _ (by omega) (by decide) rfl (congrArg some (slotIs (beqOf (by simp only [fld]; omega)) rfl (by rw [Sys2Proof.Instr.sNpr.injEq]; exact ⟨finOf _ (by simp only [fld]; omega), rfl⟩))) rest hw

theorem Sys2Proof.Laws.Encoding.sNprend (p : Pred) : Sys2Proof.Laws.Encoding.Statement (.sNprend p) := by
  refine ⟨fun hw _ rest => ?_, fun _ h => (Bool.false_ne_true h).elim⟩
  exact roundOne 470 (0xEB000000 + p.val * 0x80000) (by omega) (by decide) rfl (congrArg some (slotIs (beqOf (by simp only [fld]; omega)) rfl (by rw [Sys2Proof.Instr.sNprend.injEq]; exact finOf _ (by simp only [fld]; omega)))) rest hw

theorem Sys2Proof.Laws.Encoding.sUev (p : Pred) (c : Fin 4) (e : Fin 16384) : Sys2Proof.Laws.Encoding.Statement (.sUev p c e) := by
  refine ⟨fun hw _ rest => ?_, fun _ h => (Bool.false_ne_true h).elim⟩
  exact roundOne 471 (0xEB800000 + p.val * 0x80000 + c.val * 0x4000 + e.val) (by omega) (by decide) rfl (congrArg some (slotIs (beqOf (by simp only [fld]; omega)) rfl (by rw [Sys2Proof.Instr.sUev.injEq]; exact ⟨finOf _ (by simp only [fld]; omega), finOf _ (by simp only [fld]; omega), finOf _ (by simp only [fld]; omega)⟩))) rest hw

theorem Sys2Proof.Laws.Encoding.sTime (p : Pred) (r : Fin 16) : Sys2Proof.Laws.Encoding.Statement (.sTime p r) := by
  refine ⟨fun hw _ rest => ?_, fun _ h => (Bool.false_ne_true h).elim⟩
  exact roundOne 472 (0xEC004000 + p.val * 0x80000 + r.val * 0x400) (by omega) (by decide) rfl (congrArg some (slotIs (andOf (beqOf (by simp only [fld]; omega)) (beqOf (by simp only [fld]; omega))) (beqOf (by simp only [fld]; omega)) (by rw [Sys2Proof.Instr.sTime.injEq]; exact ⟨finOf _ (by simp only [fld]; omega), finOf _ (by simp only [fld]; omega)⟩))) rest hw

theorem Sys2Proof.Laws.Encoding.sYield (p : Pred) : Sys2Proof.Laws.Encoding.Statement (.sYield p) := by
  refine ⟨fun hw _ rest => ?_, fun _ h => (Bool.false_ne_true h).elim⟩
  exact roundOne 473 (0xEC800000 + p.val * 0x80000) (by omega) (by decide) rfl (congrArg some (slotIs (beqOf (by simp only [fld]; omega)) rfl (by rw [Sys2Proof.Instr.sYield.injEq]; exact finOf _ (by simp only [fld]; omega)))) rest hw

theorem Sys2Proof.Laws.Encoding.tsEnd : Sys2Proof.Laws.Encoding.Statement (.tsEnd) := by
  refine ⟨fun _ h => (Bool.false_ne_true h).elim, fun hw _ => ?_⟩
  exact roundTs 0 (0) (by omega) (by decide) rfl (by unfold slotOfTs; rw [show fld 31 28 (0) = 0 from by simp only [fld]; omega]; exact congrArg some (slotIs (beqOf (by simp only [fld]; omega)) rfl rfl)) hw

theorem Sys2Proof.Laws.Encoding.tsSeti (d : Fin 8) (i : BitVec 19) : Sys2Proof.Laws.Encoding.Statement (.tsSeti d i) := by
  have := i.isLt
  refine ⟨fun _ h => (Bool.false_ne_true h).elim, fun hw _ => ?_⟩
  exact roundTs 1 (0x10000000 + d.val * 0x2000000 + i.toNat) (by omega) (by decide) rfl (by unfold slotOfTs; rw [show fld 31 28 (0x10000000 + d.val * 0x2000000 + i.toNat) = 1 from by simp only [fld]; omega]; exact congrArg some (slotIs (beqOf (by simp only [fld]; omega)) rfl (by rw [Sys2Proof.Instr.tsSeti.injEq]; exact ⟨finOf _ (by simp only [fld]; omega), bvOf _ (by simp only [fld]; omega)⟩))) hw

theorem Sys2Proof.Laws.Encoding.tsAddi (d : Fin 8) (a : Fin 8) (i : BitVec 19) : Sys2Proof.Laws.Encoding.Statement (.tsAddi d a i) := by
  have := i.isLt
  refine ⟨fun _ h => (Bool.false_ne_true h).elim, fun hw _ => ?_⟩
  exact roundTs 2 (0x20000000 + d.val * 0x2000000 + a.val * 0x400000 + i.toNat) (by omega) (by decide) rfl (by unfold slotOfTs; rw [show fld 31 28 (0x20000000 + d.val * 0x2000000 + a.val * 0x400000 + i.toNat) = 2 from by simp only [fld]; omega]; exact congrArg some (slotIs (beqOf (by simp only [fld]; omega)) rfl (by rw [Sys2Proof.Instr.tsAddi.injEq]; exact ⟨finOf _ (by simp only [fld]; omega), finOf _ (by simp only [fld]; omega), bvOf _ (by simp only [fld]; omega)⟩))) hw

theorem Sys2Proof.Laws.Encoding.tsAdd (d : Fin 8) (a : Fin 8) (b : Fin 8) : Sys2Proof.Laws.Encoding.Statement (.tsAdd d a b) := by
  refine ⟨fun _ h => (Bool.false_ne_true h).elim, fun hw _ => ?_⟩
  exact roundTs 3 (0x30000000 + d.val * 0x2000000 + a.val * 0x400000 + b.val * 0x80000) (by omega) (by decide) rfl (by unfold slotOfTs; rw [show fld 31 28 (0x30000000 + d.val * 0x2000000 + a.val * 0x400000 + b.val * 0x80000) = 3 from by simp only [fld]; omega]; exact congrArg some (slotIs (beqOf (by simp only [fld]; omega)) rfl (by rw [Sys2Proof.Instr.tsAdd.injEq]; exact ⟨finOf _ (by simp only [fld]; omega), finOf _ (by simp only [fld]; omega), finOf _ (by simp only [fld]; omega)⟩))) hw

theorem Sys2Proof.Laws.Encoding.tsSetc (c : Fin 4) (a : Fin 8) : Sys2Proof.Laws.Encoding.Statement (.tsSetc c a) := by
  refine ⟨fun _ h => (Bool.false_ne_true h).elim, fun hw _ => ?_⟩
  exact roundTs 4 (0x40000000 + c.val * 0x2000000 + a.val * 0x400000) (by omega) (by decide) rfl (by unfold slotOfTs; rw [show fld 31 28 (0x40000000 + c.val * 0x2000000 + a.val * 0x400000) = 4 from by simp only [fld]; omega]; exact congrArg some (slotIs (andOf (beqOf (by simp only [fld]; omega)) (beqOf (by simp only [fld]; omega))) rfl (by rw [Sys2Proof.Instr.tsSetc.injEq]; exact ⟨finOf _ (by simp only [fld]; omega), finOf _ (by simp only [fld]; omega)⟩))) hw

theorem Sys2Proof.Laws.Encoding.tsLoop (c : Fin 4) (o : BitVec 19) : Sys2Proof.Laws.Encoding.Statement (.tsLoop c o) := by
  have := o.isLt
  refine ⟨fun _ h => (Bool.false_ne_true h).elim, fun hw _ => ?_⟩
  exact roundTs 5 (0x50000000 + c.val * 0x2000000 + o.toNat) (by omega) (by decide) rfl (by unfold slotOfTs; rw [show fld 31 28 (0x50000000 + c.val * 0x2000000 + o.toNat) = 5 from by simp only [fld]; omega]; exact congrArg some (slotIs (andOf (beqOf (by simp only [fld]; omega)) (beqOf (by simp only [fld]; omega))) rfl (by rw [Sys2Proof.Instr.tsLoop.injEq]; exact ⟨finOf _ (by simp only [fld]; omega), bvOf _ (by simp only [fld]; omega)⟩))) hw

theorem Sys2Proof.Laws.Encoding.tsJmp (o : BitVec 19) : Sys2Proof.Laws.Encoding.Statement (.tsJmp o) := by
  have := o.isLt
  refine ⟨fun _ h => (Bool.false_ne_true h).elim, fun hw _ => ?_⟩
  exact roundTs 6 (0x60000000 + o.toNat) (by omega) (by decide) rfl (by unfold slotOfTs; rw [show fld 31 28 (0x60000000 + o.toNat) = 6 from by simp only [fld]; omega]; exact congrArg some (slotIs (beqOf (by simp only [fld]; omega)) rfl (by rw [Sys2Proof.Instr.tsJmp.injEq]; exact bvOf _ (by simp only [fld]; omega)))) hw

theorem Sys2Proof.Laws.Encoding.tsSetb (e : Fin 8) (b : Fin 8) (x : Fin 524288) : Sys2Proof.Laws.Encoding.Statement (.tsSetb e b x) := by
  refine ⟨fun _ h => (Bool.false_ne_true h).elim, fun hw _ => ?_⟩
  exact roundTs 7 (0x70000000 + e.val * 0x2000000 + b.val * 0x400000 + x.val) (by omega) (by decide) rfl (by unfold slotOfTs; rw [show fld 31 28 (0x70000000 + e.val * 0x2000000 + b.val * 0x400000 + x.val) = 7 from by simp only [fld]; omega]; exact congrArg some (slotIs (beqOf (by simp only [fld]; omega)) rfl (by rw [Sys2Proof.Instr.tsSetb.injEq]; exact ⟨finOf _ (by simp only [fld]; omega), finOf _ (by simp only [fld]; omega), finOf _ (by simp only [fld]; omega)⟩))) hw

theorem Sys2Proof.Laws.Encoding.tsZexp (a : Fin 8) (b : Fin 8) : Sys2Proof.Laws.Encoding.Statement (.tsZexp a b) := by
  refine ⟨fun _ h => (Bool.false_ne_true h).elim, fun hw _ => ?_⟩
  exact roundTs 8 (0x80000000 + a.val * 0x400000 + b.val * 0x80000) (by omega) (by decide) rfl (by unfold slotOfTs; rw [show fld 31 28 (0x80000000 + a.val * 0x400000 + b.val * 0x80000) = 8 from by simp only [fld]; omega]; exact congrArg some (slotIs (andOf (beqOf (by simp only [fld]; omega)) (beqOf (by simp only [fld]; omega))) rfl (by rw [Sys2Proof.Instr.tsZexp.injEq]; exact ⟨finOf _ (by simp only [fld]; omega), finOf _ (by simp only [fld]; omega)⟩))) hw

theorem Sys2Proof.Laws.Encoding.tsZcmp (d : Fin 8) (a : Fin 8) (b : Fin 8) : Sys2Proof.Laws.Encoding.Statement (.tsZcmp d a b) := by
  refine ⟨fun _ h => (Bool.false_ne_true h).elim, fun hw _ => ?_⟩
  exact roundTs 9 (0x90000000 + d.val * 0x2000000 + a.val * 0x400000 + b.val * 0x80000) (by omega) (by decide) rfl (by unfold slotOfTs; rw [show fld 31 28 (0x90000000 + d.val * 0x2000000 + a.val * 0x400000 + b.val * 0x80000) = 9 from by simp only [fld]; omega]; exact congrArg some (slotIs (beqOf (by simp only [fld]; omega)) rfl (by rw [Sys2Proof.Instr.tsZcmp.injEq]; exact ⟨finOf _ (by simp only [fld]; omega), finOf _ (by simp only [fld]; omega), finOf _ (by simp only [fld]; omega)⟩))) hw

theorem Sys2Proof.Laws.Encoding.tsMvlo (a : Fin 8) (b : Fin 8) (n : Fin 524288) : Sys2Proof.Laws.Encoding.Statement (.tsMvlo a b n) := by
  refine ⟨fun _ h => (Bool.false_ne_true h).elim, fun hw _ => ?_⟩
  exact roundTs 10 (0xA0000000 + a.val * 0x400000 + b.val * 0x80000 + n.val) (by omega) (by decide) rfl (by unfold slotOfTs; rw [show fld 31 28 (0xA0000000 + a.val * 0x400000 + b.val * 0x80000 + n.val) = 10 from by simp only [fld]; omega]; exact congrArg some (slotIs (beqOf (by simp only [fld]; omega)) rfl (by rw [Sys2Proof.Instr.tsMvlo.injEq]; exact ⟨finOf _ (by simp only [fld]; omega), finOf _ (by simp only [fld]; omega), finOf _ (by simp only [fld]; omega)⟩))) hw

theorem Sys2Proof.Laws.Encoding.tsMvhi (a : Fin 8) (b : Fin 8) (n : Fin 524288) : Sys2Proof.Laws.Encoding.Statement (.tsMvhi a b n) := by
  refine ⟨fun _ h => (Bool.false_ne_true h).elim, fun hw _ => ?_⟩
  exact roundTs 11 (0xB0000000 + a.val * 0x400000 + b.val * 0x80000 + n.val) (by omega) (by decide) rfl (by unfold slotOfTs; rw [show fld 31 28 (0xB0000000 + a.val * 0x400000 + b.val * 0x80000 + n.val) = 11 from by simp only [fld]; omega]; exact congrArg some (slotIs (beqOf (by simp only [fld]; omega)) rfl (by rw [Sys2Proof.Instr.tsMvhi.injEq]; exact ⟨finOf _ (by simp only [fld]; omega), finOf _ (by simp only [fld]; omega), finOf _ (by simp only [fld]; omega)⟩))) hw

theorem Sys2Proof.Laws.Encoding.tsWaitt (k : Fin 4) : Sys2Proof.Laws.Encoding.Statement (.tsWaitt k) := by
  refine ⟨fun _ h => (Bool.false_ne_true h).elim, fun hw _ => ?_⟩
  exact roundTs 12 (0xC0000000 + k.val * 0x2000000) (by omega) (by decide) rfl (by unfold slotOfTs; rw [show fld 31 28 (0xC0000000 + k.val * 0x2000000) = 12 from by simp only [fld]; omega]; exact congrArg some (slotIs (andOf (beqOf (by simp only [fld]; omega)) (beqOf (by simp only [fld]; omega))) rfl (by rw [Sys2Proof.Instr.tsWaitt.injEq]; exact finOf _ (by simp only [fld]; omega)))) hw

theorem Sys2Proof.Laws.Encoding.tsPost (a : Fin 8) (q : Fin 16) : Sys2Proof.Laws.Encoding.Statement (.tsPost a q) := by
  refine ⟨fun _ h => (Bool.false_ne_true h).elim, fun hw _ => ?_⟩
  exact roundTs 13 (0xD0000000 + a.val * 0x400000 + q.val) (by omega) (by decide) rfl (by unfold slotOfTs; rw [show fld 31 28 (0xD0000000 + a.val * 0x400000 + q.val) = 13 from by simp only [fld]; omega]; exact congrArg some (slotIs (andOf (beqOf (by simp only [fld]; omega)) (beqOf (by simp only [fld]; omega))) rfl (by rw [Sys2Proof.Instr.tsPost.injEq]; exact ⟨finOf _ (by simp only [fld]; omega), finOf _ (by simp only [fld]; omega)⟩))) hw

theorem Sys2Proof.Laws.Encoding.tsFence : Sys2Proof.Laws.Encoding.Statement (.tsFence) := by
  refine ⟨fun _ h => (Bool.false_ne_true h).elim, fun hw _ => ?_⟩
  exact roundTs 14 (0xE0000000) (by omega) (by decide) rfl (by unfold slotOfTs; rw [show fld 31 28 (0xE0000000) = 14 from by simp only [fld]; omega]; exact congrArg some (slotIs (beqOf (by simp only [fld]; omega)) rfl rfl)) hw

theorem Sys2Proof.Laws.Encoding.tsBnz (a : Fin 8) (o : BitVec 19) : Sys2Proof.Laws.Encoding.Statement (.tsBnz a o) := by
  have := o.isLt
  refine ⟨fun _ h => (Bool.false_ne_true h).elim, fun hw _ => ?_⟩
  exact roundTs 15 (0xF0000000 + a.val * 0x400000 + o.toNat) (by omega) (by decide) rfl (by unfold slotOfTs; rw [show fld 31 28 (0xF0000000 + a.val * 0x400000 + o.toNat) = 15 from by simp only [fld]; omega]; exact congrArg some (slotIs (andOf (beqOf (by simp only [fld]; omega)) (beqOf (by simp only [fld]; omega))) rfl (by rw [Sys2Proof.Instr.tsBnz.injEq]; exact ⟨finOf _ (by simp only [fld]; omega), bvOf _ (by simp only [fld]; omega)⟩))) hw

theorem Sys2Proof.Laws.Encoding.unassignedWord (w : BitVec 32) : Sys2Proof.Laws.Encoding.Statement (.unassignedWord w) := by
  exact ⟨fun _ h => (Bool.false_ne_true h).elim, fun _ h => (Bool.false_ne_true h).elim⟩

theorem Sys2Proof.Laws.Encoding.powerOn : Sys2Proof.Laws.Encoding.Statement (.powerOn) := by
  exact ⟨fun _ h => (Bool.false_ne_true h).elim, fun _ h => (Bool.false_ne_true h).elim⟩

theorem Sys2Proof.Laws.Encoding.bridgeClaim : Sys2Proof.Laws.Encoding.Statement (.bridgeClaim) := by
  exact ⟨fun _ h => (Bool.false_ne_true h).elim, fun _ h => (Bool.false_ne_true h).elim⟩

theorem Sys2Proof.Laws.Encoding.bridgeClaimTimeout : Sys2Proof.Laws.Encoding.Statement (.bridgeClaimTimeout) := by
  exact ⟨fun _ h => (Bool.false_ne_true h).elim, fun _ h => (Bool.false_ne_true h).elim⟩

theorem Sys2Proof.Laws.Encoding.reset : Sys2Proof.Laws.Encoding.Statement (.reset) := by
  exact ⟨fun _ h => (Bool.false_ne_true h).elim, fun _ h => (Bool.false_ne_true h).elim⟩

theorem Sys2Proof.Laws.Encoding.enabled : Sys2Proof.Laws.Encoding.Statement (.enabled) := by
  exact ⟨fun _ h => (Bool.false_ne_true h).elim, fun _ h => (Bool.false_ne_true h).elim⟩

theorem Sys2Proof.Laws.Encoding.nonce : Sys2Proof.Laws.Encoding.Statement (.nonce) := by
  exact ⟨fun _ h => (Bool.false_ne_true h).elim, fun _ h => (Bool.false_ne_true h).elim⟩

theorem Sys2Proof.Laws.Encoding.faultact : Sys2Proof.Laws.Encoding.Statement (.faultact) := by
  exact ⟨fun _ h => (Bool.false_ne_true h).elim, fun _ h => (Bool.false_ne_true h).elim⟩

theorem Sys2Proof.Laws.Encoding.tlbinv : Sys2Proof.Laws.Encoding.Statement (.tlbinv) := by
  exact ⟨fun _ h => (Bool.false_ne_true h).elim, fun _ h => (Bool.false_ne_true h).elim⟩

theorem Sys2Proof.Laws.Encoding.refwinWrite : Sys2Proof.Laws.Encoding.Statement (.refwinWrite) := by
  exact ⟨fun _ h => (Bool.false_ne_true h).elim, fun _ h => (Bool.false_ne_true h).elim⟩

theorem Sys2Proof.Laws.Encoding.bankbudgetWrite : Sys2Proof.Laws.Encoding.Statement (.bankbudgetWrite) := by
  exact ⟨fun _ h => (Bool.false_ne_true h).elim, fun _ h => (Bool.false_ne_true h).elim⟩

theorem Sys2Proof.Laws.Encoding.bustimingWrite : Sys2Proof.Laws.Encoding.Statement (.bustimingWrite) := by
  exact ⟨fun _ h => (Bool.false_ne_true h).elim, fun _ h => (Bool.false_ne_true h).elim⟩

theorem Sys2Proof.Laws.Encoding.registerWrite : Sys2Proof.Laws.Encoding.Statement (.registerWrite) := by
  exact ⟨fun _ h => (Bool.false_ne_true h).elim, fun _ h => (Bool.false_ne_true h).elim⟩

theorem Sys2Proof.Laws.Encoding.hostMemoryRead : Sys2Proof.Laws.Encoding.Statement (.hostMemoryRead) := by
  exact ⟨fun _ h => (Bool.false_ne_true h).elim, fun _ h => (Bool.false_ne_true h).elim⟩

theorem Sys2Proof.Laws.Encoding.hostMemoryWrite : Sys2Proof.Laws.Encoding.Statement (.hostMemoryWrite) := by
  exact ⟨fun _ h => (Bool.false_ne_true h).elim, fun _ h => (Bool.false_ne_true h).elim⟩

theorem Sys2Proof.Laws.Encoding.hostEnqueueWrite : Sys2Proof.Laws.Encoding.Statement (.hostEnqueueWrite) := by
  exact ⟨fun _ h => (Bool.false_ne_true h).elim, fun _ h => (Bool.false_ne_true h).elim⟩

theorem Sys2Proof.Laws.Encoding.launchEnqueue : Sys2Proof.Laws.Encoding.Statement (.launchEnqueue) := by
  exact ⟨fun _ h => (Bool.false_ne_true h).elim, fun _ h => (Bool.false_ne_true h).elim⟩

theorem Sys2Proof.Laws.Encoding.dealerChoice : Sys2Proof.Laws.Encoding.Statement (.dealerChoice) := by
  exact ⟨fun _ h => (Bool.false_ne_true h).elim, fun _ h => (Bool.false_ne_true h).elim⟩

theorem Sys2Proof.Laws.Encoding.gangReservation : Sys2Proof.Laws.Encoding.Statement (.gangReservation) := by
  exact ⟨fun _ h => (Bool.false_ne_true h).elim, fun _ h => (Bool.false_ne_true h).elim⟩

theorem Sys2Proof.Laws.Encoding.gangStart : Sys2Proof.Laws.Encoding.Statement (.gangStart) := by
  exact ⟨fun _ h => (Bool.false_ne_true h).elim, fun _ h => (Bool.false_ne_true h).elim⟩

theorem Sys2Proof.Laws.Encoding.taskBoundary : Sys2Proof.Laws.Encoding.Statement (.taskBoundary) := by
  exact ⟨fun _ h => (Bool.false_ne_true h).elim, fun _ h => (Bool.false_ne_true h).elim⟩

theorem Sys2Proof.Laws.Encoding.taskStart : Sys2Proof.Laws.Encoding.Statement (.taskStart) := by
  exact ⟨fun _ h => (Bool.false_ne_true h).elim, fun _ h => (Bool.false_ne_true h).elim⟩

theorem Sys2Proof.Laws.Encoding.launchCompletion : Sys2Proof.Laws.Encoding.Statement (.launchCompletion) := by
  exact ⟨fun _ h => (Bool.false_ne_true h).elim, fun _ h => (Bool.false_ne_true h).elim⟩

theorem Sys2Proof.Laws.Encoding.donenextDeferred : Sys2Proof.Laws.Encoding.Statement (.donenextDeferred) := by
  exact ⟨fun _ h => (Bool.false_ne_true h).elim, fun _ h => (Bool.false_ne_true h).elim⟩

theorem Sys2Proof.Laws.Encoding.taskStop : Sys2Proof.Laws.Encoding.Statement (.taskStop) := by
  exact ⟨fun _ h => (Bool.false_ne_true h).elim, fun _ h => (Bool.false_ne_true h).elim⟩

theorem Sys2Proof.Laws.Encoding.imageSaveComplete : Sys2Proof.Laws.Encoding.Statement (.imageSaveComplete) := by
  exact ⟨fun _ h => (Bool.false_ne_true h).elim, fun _ h => (Bool.false_ne_true h).elim⟩

theorem Sys2Proof.Laws.Encoding.taskResume : Sys2Proof.Laws.Encoding.Statement (.taskResume) := by
  exact ⟨fun _ h => (Bool.false_ne_true h).elim, fun _ h => (Bool.false_ne_true h).elim⟩

theorem Sys2Proof.Laws.Encoding.waitingTaskReady : Sys2Proof.Laws.Encoding.Statement (.waitingTaskReady) := by
  exact ⟨fun _ h => (Bool.false_ne_true h).elim, fun _ h => (Bool.false_ne_true h).elim⟩

theorem Sys2Proof.Laws.Encoding.fillerCollectiveWait : Sys2Proof.Laws.Encoding.Statement (.fillerCollectiveWait) := by
  exact ⟨fun _ h => (Bool.false_ne_true h).elim, fun _ h => (Bool.false_ne_true h).elim⟩

theorem Sys2Proof.Laws.Encoding.fillerReturn : Sys2Proof.Laws.Encoding.Statement (.fillerReturn) := by
  exact ⟨fun _ h => (Bool.false_ne_true h).elim, fun _ h => (Bool.false_ne_true h).elim⟩

theorem Sys2Proof.Laws.Encoding.futureCreate : Sys2Proof.Laws.Encoding.Statement (.futureCreate) := by
  exact ⟨fun _ h => (Bool.false_ne_true h).elim, fun _ h => (Bool.false_ne_true h).elim⟩

theorem Sys2Proof.Laws.Encoding.futureJoin : Sys2Proof.Laws.Encoding.Statement (.futureJoin) := by
  exact ⟨fun _ h => (Bool.false_ne_true h).elim, fun _ h => (Bool.false_ne_true h).elim⟩

theorem Sys2Proof.Laws.Encoding.futureResolve : Sys2Proof.Laws.Encoding.Statement (.futureResolve) := by
  exact ⟨fun _ h => (Bool.false_ne_true h).elim, fun _ h => (Bool.false_ne_true h).elim⟩

theorem Sys2Proof.Laws.Encoding.futurePoison : Sys2Proof.Laws.Encoding.Statement (.futurePoison) := by
  exact ⟨fun _ h => (Bool.false_ne_true h).elim, fun _ h => (Bool.false_ne_true h).elim⟩

theorem Sys2Proof.Laws.Encoding.entrySatisfaction : Sys2Proof.Laws.Encoding.Statement (.entrySatisfaction) := by
  exact ⟨fun _ h => (Bool.false_ne_true h).elim, fun _ h => (Bool.false_ne_true h).elim⟩

theorem Sys2Proof.Laws.Encoding.borrowDebit : Sys2Proof.Laws.Encoding.Statement (.borrowDebit) := by
  exact ⟨fun _ h => (Bool.false_ne_true h).elim, fun _ h => (Bool.false_ne_true h).elim⟩

theorem Sys2Proof.Laws.Encoding.borrowGrant : Sys2Proof.Laws.Encoding.Statement (.borrowGrant) := by
  exact ⟨fun _ h => (Bool.false_ne_true h).elim, fun _ h => (Bool.false_ne_true h).elim⟩

theorem Sys2Proof.Laws.Encoding.weightReturn : Sys2Proof.Laws.Encoding.Statement (.weightReturn) := by
  exact ⟨fun _ h => (Bool.false_ne_true h).elim, fun _ h => (Bool.false_ne_true h).elim⟩

theorem Sys2Proof.Laws.Encoding.waitqComplete : Sys2Proof.Laws.Encoding.Statement (.waitqComplete) := by
  exact ⟨fun _ h => (Bool.false_ne_true h).elim, fun _ h => (Bool.false_ne_true h).elim⟩

theorem Sys2Proof.Laws.Encoding.implicitExit : Sys2Proof.Laws.Encoding.Statement (.implicitExit) := by
  exact ⟨fun _ h => (Bool.false_ne_true h).elim, fun _ h => (Bool.false_ne_true h).elim⟩

theorem Sys2Proof.Laws.Encoding.barrierArm : Sys2Proof.Laws.Encoding.Statement (.barrierArm) := by
  exact ⟨fun _ h => (Bool.false_ne_true h).elim, fun _ h => (Bool.false_ne_true h).elim⟩

theorem Sys2Proof.Laws.Encoding.barrierDisarm : Sys2Proof.Laws.Encoding.Statement (.barrierDisarm) := by
  exact ⟨fun _ h => (Bool.false_ne_true h).elim, fun _ h => (Bool.false_ne_true h).elim⟩

theorem Sys2Proof.Laws.Encoding.barrierCount : Sys2Proof.Laws.Encoding.Statement (.barrierCount) := by
  exact ⟨fun _ h => (Bool.false_ne_true h).elim, fun _ h => (Bool.false_ne_true h).elim⟩

theorem Sys2Proof.Laws.Encoding.barrierWait : Sys2Proof.Laws.Encoding.Statement (.barrierWait) := by
  exact ⟨fun _ h => (Bool.false_ne_true h).elim, fun _ h => (Bool.false_ne_true h).elim⟩

theorem Sys2Proof.Laws.Encoding.syncAnswer : Sys2Proof.Laws.Encoding.Statement (.syncAnswer) := by
  exact ⟨fun _ h => (Bool.false_ne_true h).elim, fun _ h => (Bool.false_ne_true h).elim⟩

theorem Sys2Proof.Laws.Encoding.notifyEventArrival : Sys2Proof.Laws.Encoding.Statement (.notifyEventArrival) := by
  exact ⟨fun _ h => (Bool.false_ne_true h).elim, fun _ h => (Bool.false_ne_true h).elim⟩

theorem Sys2Proof.Laws.Encoding.eventTake : Sys2Proof.Laws.Encoding.Statement (.eventTake) := by
  exact ⟨fun _ h => (Bool.false_ne_true h).elim, fun _ h => (Bool.false_ne_true h).elim⟩

theorem Sys2Proof.Laws.Encoding.phaseBoundary : Sys2Proof.Laws.Encoding.Statement (.phaseBoundary) := by
  exact ⟨fun _ h => (Bool.false_ne_true h).elim, fun _ h => (Bool.false_ne_true h).elim⟩

theorem Sys2Proof.Laws.Encoding.columnPowerDown : Sys2Proof.Laws.Encoding.Statement (.columnPowerDown) := by
  exact ⟨fun _ h => (Bool.false_ne_true h).elim, fun _ h => (Bool.false_ne_true h).elim⟩

theorem Sys2Proof.Laws.Encoding.columnPowerUp : Sys2Proof.Laws.Encoding.Statement (.columnPowerUp) := by
  exact ⟨fun _ h => (Bool.false_ne_true h).elim, fun _ h => (Bool.false_ne_true h).elim⟩

theorem Sys2Proof.Laws.Encoding.columnReset : Sys2Proof.Laws.Encoding.Statement (.columnReset) := by
  exact ⟨fun _ h => (Bool.false_ne_true h).elim, fun _ h => (Bool.false_ne_true h).elim⟩

theorem Sys2Proof.Laws.Encoding.lpDealRecord : Sys2Proof.Laws.Encoding.Statement (.lpDealRecord) := by
  exact ⟨fun _ h => (Bool.false_ne_true h).elim, fun _ h => (Bool.false_ne_true h).elim⟩

theorem Sys2Proof.Laws.Encoding.coverageRegistration : Sys2Proof.Laws.Encoding.Statement (.coverageRegistration) := by
  exact ⟨fun _ h => (Bool.false_ne_true h).elim, fun _ h => (Bool.false_ne_true h).elim⟩

theorem Sys2Proof.Laws.Encoding.registrationAnswer : Sys2Proof.Laws.Encoding.Statement (.registrationAnswer) := by
  exact ⟨fun _ h => (Bool.false_ne_true h).elim, fun _ h => (Bool.false_ne_true h).elim⟩

theorem Sys2Proof.Laws.Encoding.coverageClaim : Sys2Proof.Laws.Encoding.Statement (.coverageClaim) := by
  exact ⟨fun _ h => (Bool.false_ne_true h).elim, fun _ h => (Bool.false_ne_true h).elim⟩

theorem Sys2Proof.Laws.Encoding.claimAnswer : Sys2Proof.Laws.Encoding.Statement (.claimAnswer) := by
  exact ⟨fun _ h => (Bool.false_ne_true h).elim, fun _ h => (Bool.false_ne_true h).elim⟩

theorem Sys2Proof.Laws.Encoding.rewriteWrite : Sys2Proof.Laws.Encoding.Statement (.rewriteWrite) := by
  exact ⟨fun _ h => (Bool.false_ne_true h).elim, fun _ h => (Bool.false_ne_true h).elim⟩

theorem Sys2Proof.Laws.Encoding.pendingNotice : Sys2Proof.Laws.Encoding.Statement (.pendingNotice) := by
  exact ⟨fun _ h => (Bool.false_ne_true h).elim, fun _ h => (Bool.false_ne_true h).elim⟩

theorem Sys2Proof.Laws.Encoding.rewriteCommit : Sys2Proof.Laws.Encoding.Statement (.rewriteCommit) := by
  exact ⟨fun _ h => (Bool.false_ne_true h).elim, fun _ h => (Bool.false_ne_true h).elim⟩

theorem Sys2Proof.Laws.Encoding.commitNotice : Sys2Proof.Laws.Encoding.Statement (.commitNotice) := by
  exact ⟨fun _ h => (Bool.false_ne_true h).elim, fun _ h => (Bool.false_ne_true h).elim⟩

theorem Sys2Proof.Laws.Encoding.dealingComplete : Sys2Proof.Laws.Encoding.Statement (.dealingComplete) := by
  exact ⟨fun _ h => (Bool.false_ne_true h).elim, fun _ h => (Bool.false_ne_true h).elim⟩

theorem Sys2Proof.Laws.Encoding.completionNotice : Sys2Proof.Laws.Encoding.Statement (.completionNotice) := by
  exact ⟨fun _ h => (Bool.false_ne_true h).elim, fun _ h => (Bool.false_ne_true h).elim⟩

theorem Sys2Proof.Laws.Encoding.endRecordPush : Sys2Proof.Laws.Encoding.Statement (.endRecordPush) := by
  exact ⟨fun _ h => (Bool.false_ne_true h).elim, fun _ h => (Bool.false_ne_true h).elim⟩

theorem Sys2Proof.Laws.Encoding.copyCompletion : Sys2Proof.Laws.Encoding.Statement (.copyCompletion) := by
  exact ⟨fun _ h => (Bool.false_ne_true h).elim, fun _ h => (Bool.false_ne_true h).elim⟩

theorem Sys2Proof.Laws.Encoding.passAccumulation : Sys2Proof.Laws.Encoding.Statement (.passAccumulation) := by
  exact ⟨fun _ h => (Bool.false_ne_true h).elim, fun _ h => (Bool.false_ne_true h).elim⟩

theorem Sys2Proof.Laws.Encoding.saHomeUpdate : Sys2Proof.Laws.Encoding.Statement (.saHomeUpdate) := by
  exact ⟨fun _ h => (Bool.false_ne_true h).elim, fun _ h => (Bool.false_ne_true h).elim⟩

theorem Sys2Proof.Laws.Encoding.tsProgramTurn : Sys2Proof.Laws.Encoding.Statement (.tsProgramTurn) := by
  exact ⟨fun _ h => (Bool.false_ne_true h).elim, fun _ h => (Bool.false_ne_true h).elim⟩

theorem Sys2Proof.Laws.Encoding.tsProgramEnd : Sys2Proof.Laws.Encoding.Statement (.tsProgramEnd) := by
  exact ⟨fun _ h => (Bool.false_ne_true h).elim, fun _ h => (Bool.false_ne_true h).elim⟩

theorem Sys2Proof.Laws.Encoding.bankPeriodStart : Sys2Proof.Laws.Encoding.Statement (.bankPeriodStart) := by
  exact ⟨fun _ h => (Bool.false_ne_true h).elim, fun _ h => (Bool.false_ne_true h).elim⟩

theorem Sys2Proof.Laws.Encoding.forcedRefresh : Sys2Proof.Laws.Encoding.Statement (.forcedRefresh) := by
  exact ⟨fun _ h => (Bool.false_ne_true h).elim, fun _ h => (Bool.false_ne_true h).elim⟩

theorem Sys2Proof.Laws.Encoding.forcedRefreshEnd : Sys2Proof.Laws.Encoding.Statement (.forcedRefreshEnd) := by
  exact ⟨fun _ h => (Bool.false_ne_true h).elim, fun _ h => (Bool.false_ne_true h).elim⟩

theorem Sys2Proof.Laws.Encoding.dramSensorReading : Sys2Proof.Laws.Encoding.Statement (.dramSensorReading) := by
  exact ⟨fun _ h => (Bool.false_ne_true h).elim, fun _ h => (Bool.false_ne_true h).elim⟩

theorem Sys2Proof.Laws.Encoding.layerWakeComplete : Sys2Proof.Laws.Encoding.Statement (.layerWakeComplete) := by
  exact ⟨fun _ h => (Bool.false_ne_true h).elim, fun _ h => (Bool.false_ne_true h).elim⟩

theorem Sys2Proof.Laws.Encoding.layerPowerOff : Sys2Proof.Laws.Encoding.Statement (.layerPowerOff) := by
  exact ⟨fun _ h => (Bool.false_ne_true h).elim, fun _ h => (Bool.false_ne_true h).elim⟩

theorem Sys2Proof.Laws.Encoding.migrationService : Sys2Proof.Laws.Encoding.Statement (.migrationService) := by
  exact ⟨fun _ h => (Bool.false_ne_true h).elim, fun _ h => (Bool.false_ne_true h).elim⟩

theorem Sys2Proof.Laws.Encoding.migrationComplete : Sys2Proof.Laws.Encoding.Statement (.migrationComplete) := by
  exact ⟨fun _ h => (Bool.false_ne_true h).elim, fun _ h => (Bool.false_ne_true h).elim⟩

theorem Sys2Proof.Laws.Encoding.walkFill : Sys2Proof.Laws.Encoding.Statement (.walkFill) := by
  exact ⟨fun _ h => (Bool.false_ne_true h).elim, fun _ h => (Bool.false_ne_true h).elim⟩

theorem Sys2Proof.Laws.Encoding.correctedRewrite : Sys2Proof.Laws.Encoding.Statement (.correctedRewrite) := by
  exact ⟨fun _ h => (Bool.false_ne_true h).elim, fun _ h => (Bool.false_ne_true h).elim⟩

theorem Sys2Proof.Laws.Encoding.deferredFault : Sys2Proof.Laws.Encoding.Statement (.deferredFault) := by
  exact ⟨fun _ h => (Bool.false_ne_true h).elim, fun _ h => (Bool.false_ne_true h).elim⟩

theorem Sys2Proof.Laws.Encoding.faultHandlerEnd : Sys2Proof.Laws.Encoding.Statement (.faultHandlerEnd) := by
  exact ⟨fun _ h => (Bool.false_ne_true h).elim, fun _ h => (Bool.false_ne_true h).elim⟩

theorem Sys2Proof.Laws.Encoding.faultTaken : Sys2Proof.Laws.Encoding.Statement (.faultTaken) := by
  exact ⟨fun _ h => (Bool.false_ne_true h).elim, fun _ h => (Bool.false_ne_true h).elim⟩

theorem Sys2Proof.Laws.Encoding.queueDeadlock : Sys2Proof.Laws.Encoding.Statement (.queueDeadlock) := by
  exact ⟨fun _ h => (Bool.false_ne_true h).elim, fun _ h => (Bool.false_ne_true h).elim⟩

theorem Sys2Proof.Laws.Encoding.formatUnderflow : Sys2Proof.Laws.Encoding.Statement (.formatUnderflow) := by
  exact ⟨fun _ h => (Bool.false_ne_true h).elim, fun _ h => (Bool.false_ne_true h).elim⟩

theorem Sys2Proof.Laws.Encoding.trapStreamTimeout : Sys2Proof.Laws.Encoding.Statement (.trapStreamTimeout) := by
  exact ⟨fun _ h => (Bool.false_ne_true h).elim, fun _ h => (Bool.false_ne_true h).elim⟩

theorem Sys2Proof.Laws.Encoding.regionOverrun : Sys2Proof.Laws.Encoding.Statement (.regionOverrun) := by
  exact ⟨fun _ h => (Bool.false_ne_true h).elim, fun _ h => (Bool.false_ne_true h).elim⟩

theorem Sys2Proof.Laws.Encoding.repairWindow : Sys2Proof.Laws.Encoding.Statement (.repairWindow) := by
  exact ⟨fun _ h => (Bool.false_ne_true h).elim, fun _ h => (Bool.false_ne_true h).elim⟩

theorem Sys2Proof.Laws.Encoding.laneReplacement : Sys2Proof.Laws.Encoding.Statement (.laneReplacement) := by
  exact ⟨fun _ h => (Bool.false_ne_true h).elim, fun _ h => (Bool.false_ne_true h).elim⟩

theorem Sys2Proof.Laws.Encoding.laneReplacementEnd : Sys2Proof.Laws.Encoding.Statement (.laneReplacementEnd) := by
  exact ⟨fun _ h => (Bool.false_ne_true h).elim, fun _ h => (Bool.false_ne_true h).elim⟩

theorem Sys2Proof.Laws.Encoding.talonReplacement : Sys2Proof.Laws.Encoding.Statement (.talonReplacement) := by
  exact ⟨fun _ h => (Bool.false_ne_true h).elim, fun _ h => (Bool.false_ne_true h).elim⟩

theorem Sys2Proof.Laws.Encoding.talonReplacementEnd : Sys2Proof.Laws.Encoding.Statement (.talonReplacementEnd) := by
  exact ⟨fun _ h => (Bool.false_ne_true h).elim, fun _ h => (Bool.false_ne_true h).elim⟩

theorem Sys2Proof.Laws.Encoding.sliceRetired : Sys2Proof.Laws.Encoding.Statement (.sliceRetired) := by
  exact ⟨fun _ h => (Bool.false_ne_true h).elim, fun _ h => (Bool.false_ne_true h).elim⟩

theorem Sys2Proof.Laws.Encoding.coreWithdrawn : Sys2Proof.Laws.Encoding.Statement (.coreWithdrawn) := by
  exact ⟨fun _ h => (Bool.false_ne_true h).elim, fun _ h => (Bool.false_ne_true h).elim⟩

theorem Sys2Proof.Laws.Encoding.governorSample : Sys2Proof.Laws.Encoding.Statement (.governorSample) := by
  exact ⟨fun _ h => (Bool.false_ne_true h).elim, fun _ h => (Bool.false_ne_true h).elim⟩

theorem Sys2Proof.Laws.Encoding.tokenPeriod : Sys2Proof.Laws.Encoding.Statement (.tokenPeriod) := by
  exact ⟨fun _ h => (Bool.false_ne_true h).elim, fun _ h => (Bool.false_ne_true h).elim⟩

theorem Sys2Proof.Laws.Encoding.thermalManagerAction : Sys2Proof.Laws.Encoding.Statement (.thermalManagerAction) := by
  exact ⟨fun _ h => (Bool.false_ne_true h).elim, fun _ h => (Bool.false_ne_true h).elim⟩

theorem Sys2Proof.Laws.Encoding.thermalTrip : Sys2Proof.Laws.Encoding.Statement (.thermalTrip) := by
  exact ⟨fun _ h => (Bool.false_ne_true h).elim, fun _ h => (Bool.false_ne_true h).elim⟩

theorem Sys2Proof.Laws.Encoding.throttleEnd : Sys2Proof.Laws.Encoding.Statement (.throttleEnd) := by
  exact ⟨fun _ h => (Bool.false_ne_true h).elim, fun _ h => (Bool.false_ne_true h).elim⟩

theorem Sys2Proof.Laws.Encoding.telemetryRecord : Sys2Proof.Laws.Encoding.Statement (.telemetryRecord) := by
  exact ⟨fun _ h => (Bool.false_ne_true h).elim, fun _ h => (Bool.false_ne_true h).elim⟩

theorem Sys2Proof.Laws.Encoding.telemetryHostCopy : Sys2Proof.Laws.Encoding.Statement (.telemetryHostCopy) := by
  exact ⟨fun _ h => (Bool.false_ne_true h).elim, fun _ h => (Bool.false_ne_true h).elim⟩

theorem Sys2Proof.Laws.Encoding.ptpSyncSend : Sys2Proof.Laws.Encoding.Statement (.ptpSyncSend) := by
  exact ⟨fun _ h => (Bool.false_ne_true h).elim, fun _ h => (Bool.false_ne_true h).elim⟩

theorem Sys2Proof.Laws.Encoding.ptpSyncArrival : Sys2Proof.Laws.Encoding.Statement (.ptpSyncArrival) := by
  exact ⟨fun _ h => (Bool.false_ne_true h).elim, fun _ h => (Bool.false_ne_true h).elim⟩

theorem Sys2Proof.Laws.Encoding.linkDelayMeasure : Sys2Proof.Laws.Encoding.Statement (.linkDelayMeasure) := by
  exact ⟨fun _ h => (Bool.false_ne_true h).elim, fun _ h => (Bool.false_ne_true h).elim⟩

theorem Sys2Proof.Laws.Encoding.todMessage : Sys2Proof.Laws.Encoding.Statement (.todMessage) := by
  exact ⟨fun _ h => (Bool.false_ne_true h).elim, fun _ h => (Bool.false_ne_true h).elim⟩

theorem Sys2Proof.Laws.Encoding.ppsEdge : Sys2Proof.Laws.Encoding.Statement (.ppsEdge) := by
  exact ⟨fun _ h => (Bool.false_ne_true h).elim, fun _ h => (Bool.false_ne_true h).elim⟩

theorem Sys2Proof.Laws.Encoding.ptmSteer : Sys2Proof.Laws.Encoding.Statement (.ptmSteer) := by
  exact ⟨fun _ h => (Bool.false_ne_true h).elim, fun _ h => (Bool.false_ne_true h).elim⟩

theorem Sys2Proof.Laws.Encoding.timeSourceLoss : Sys2Proof.Laws.Encoding.Statement (.timeSourceLoss) := by
  exact ⟨fun _ h => (Bool.false_ne_true h).elim, fun _ h => (Bool.false_ne_true h).elim⟩

theorem Sys2Proof.Laws.Encoding.flitReceive : Sys2Proof.Laws.Encoding.Statement (.flitReceive) := by
  exact ⟨fun _ h => (Bool.false_ne_true h).elim, fun _ h => (Bool.false_ne_true h).elim⟩

theorem Sys2Proof.Laws.Encoding.portDown : Sys2Proof.Laws.Encoding.Statement (.portDown) := by
  exact ⟨fun _ h => (Bool.false_ne_true h).elim, fun _ h => (Bool.false_ne_true h).elim⟩

theorem Sys2Proof.Laws.Encoding.portTrained : Sys2Proof.Laws.Encoding.Statement (.portTrained) := by
  exact ⟨fun _ h => (Bool.false_ne_true h).elim, fun _ h => (Bool.false_ne_true h).elim⟩

theorem Sys2Proof.Laws.Encoding.routeRecompute : Sys2Proof.Laws.Encoding.Statement (.routeRecompute) := by
  exact ⟨fun _ h => (Bool.false_ne_true h).elim, fun _ h => (Bool.false_ne_true h).elim⟩

theorem Sys2Proof.Laws.Encoding.engineWordStart : Sys2Proof.Laws.Encoding.Statement (.engineWordStart) := by
  exact ⟨fun _ h => (Bool.false_ne_true h).elim, fun _ h => (Bool.false_ne_true h).elim⟩

theorem Sys2Proof.Laws.Encoding.resultLanding : Sys2Proof.Laws.Encoding.Statement (.resultLanding) := by
  exact ⟨fun _ h => (Bool.false_ne_true h).elim, fun _ h => (Bool.false_ne_true h).elim⟩

theorem Sys2Proof.Laws.Encoding.accessPoint : Sys2Proof.Laws.Encoding.Statement (.accessPoint) := by
  exact ⟨fun _ h => (Bool.false_ne_true h).elim, fun _ h => (Bool.false_ne_true h).elim⟩

theorem Sys2Proof.Laws.Encoding.microStep : Sys2Proof.Laws.Encoding.Statement (.microStep) := by
  exact ⟨fun _ h => (Bool.false_ne_true h).elim, fun _ h => (Bool.false_ne_true h).elim⟩

theorem Sys2Proof.Laws.Encoding.elementWriteLands : Sys2Proof.Laws.Encoding.Statement (.elementWriteLands) := by
  exact ⟨fun _ h => (Bool.false_ne_true h).elim, fun _ h => (Bool.false_ne_true h).elim⟩

theorem Sys2Proof.Laws.Encoding.dramCommandIssue : Sys2Proof.Laws.Encoding.Statement (.dramCommandIssue) := by
  exact ⟨fun _ h => (Bool.false_ne_true h).elim, fun _ h => (Bool.false_ne_true h).elim⟩

theorem Sys2Proof.Laws.Encoding.tsDataPosting : Sys2Proof.Laws.Encoding.Statement (.tsDataPosting) := by
  exact ⟨fun _ h => (Bool.false_ne_true h).elim, fun _ h => (Bool.false_ne_true h).elim⟩

theorem Sys2Proof.Laws.Encoding.pcieLinkLoss : Sys2Proof.Laws.Encoding.Statement (.pcieLinkLoss) := by
  exact ⟨fun _ h => (Bool.false_ne_true h).elim, fun _ h => (Bool.false_ne_true h).elim⟩
end

