-- ==== Sys2Proof/Tests/Slice0.lean ====
section
/-! SUPPORT. The model's own tests: words written out from the encodings of R164 to R169 and R262 with the instructions
they are, ill-formed terms that the checks refuse, and for each statement with hypotheses, for each of its clauses, a small
state and operands that meet them together. -/

namespace Sys2Proof.Tests

set_option maxRecDepth 20000
set_option Elab.async false

open Sys2Proof Sys2Proof.Machine

/-! ### Words, written out field by field as ENG × 2^29 + OP × 2^23 + PRED × 2^19 + operands (R164, R165) -/

/-- A word from its fields. -/
def word (eng op pred operands : Nat) : Word32 := BitVec.ofNat 32 (eng * 2 ^ 29 + op * 2 ^ 23 + pred * 2 ^ 19 + operands)

/-- Forms A to C: DST at bit 14, OPA at bit 9, OPB at bit 4, and FN or an immediate (R165). -/
def formA (d a b f : Nat) : Nat := d * 2 ^ 14 + a * 2 ^ 9 + b * 2 ^ 4 + f
def formB (d a imm : Nat) : Nat := d * 2 ^ 14 + a * 2 ^ 9 + imm
def formC (d imm : Nat) : Nat := d * 2 ^ 14 + imm

/-- Form Q: QN, E1, E2 and E3 at bits 15, 10, 5 and 0 (R165). -/
def formQ (q e1 e2 e3 : Nat) : Nat := q * 2 ^ 15 + e1 * 2 ^ 10 + e2 * 2 ^ 5 + e3

/-- The word decodes to the instruction, and nothing of what follows is taken. -/
def reads (w : Word32) (i : Instr) : Bool := decide (decode [w, 0] = .ok (i, [0]))

/-- The word with its extension decodes to the instruction. -/
def readsX (w x : Word32) (i : Instr) : Bool := decide (decode [w, x, 0] = .ok (i, [0]))

/-- A word of a transform program, its opcode at bit 27 (R262), decodes to the instruction. -/
def readsTs (w : Word32) (i : Instr) : Bool := decide (decodeTs w = .ok i)

theorem test_decode_control_arithmetic :
    reads 0x090147F4 (.addi 0 5 3 (-12)) = true ∧
    reads (word 0 0x02 3 (formA 1 2 31 0)) (.add 3 1 2 31) = true ∧
    reads (word 0 0x03 0 (formA 4 5 6 0)) (.sub 0 4 5 6) = true ∧
    reads (word 0 0x06 15 (formA 31 0 16 1)) (.div 15 31 0 16 true) = true ∧
    reads (word 0 0x19 10 (formB 19 18 3)) (.muli 10 19 18 3) = true ∧
    reads (word 0 0x23 0 (formC 8 128)) (.li 0 8 128) = true := by decide +kernel

theorem test_decode_extension_words :
    readsX 0x12010000 0x12345678 (.lit 0 4 0x12345678) = true ∧
    readsX (word 0 0x25 1 (formC 4 0)) 0xFFFFFFFF (.lith 1 4 0xFFFFFFFF) = true ∧
    decode [0x12010000] = .error .short := by decide +kernel

theorem test_decode_control_flow_and_queues :
    reads 0x1787FFFD (.loopb 0 (-3)) = true ∧ reads 0x18019C00 (.push 0 3 7) = true ∧
    reads (word 0 0x31 0 (formQ 2 10 0 0)) (.pop 0 2 10) = true ∧
    reads (word 0 0x33 0 0x004) (.qfence 0 4) = true ∧
    reads (word 0 0x34 0 (formC 1 8)) (.mfsr 0 1 8) = true ∧ reads (word 0 0x36 0 0) (.uret 0) = true := by
  decide +kernel

theorem test_decode_vector_words :
    reads 0x22C80C22 (.vFma 9 .f32 .rne 3 1 false 2) = true ∧
    reads (word 1 0x01 0 (formQ 7 2 16 1)) (.vAdd 0 .i32 .rne 2 0 false 1) = false ∧
    reads (word 1 0x01 0 (formQ 0 18 0 1)) (.vAdd 0 .f32 .rd 2 0 false 1) = true := by decide +kernel

theorem test_decode_matrix_row_and_scatter_words :
    reads 0x40800801 (.mMma 0 2 0 1) = true ∧
    reads (word 2 0x01 0 (formQ 0 8 0 1)) (.mMma 0 0 0 1) = false ∧
    reads (word 3 0x04 0 (formQ 3 1 0 0)) (.rowSoft 0 3 1 0) = true ∧
    reads (word 4 0x01 0 (formQ 5 0b01011 0b10001 0b00010)) (.saAdd 0 5 2 true 3 1 2) = true := by decide +kernel

theorem test_decode_transfer_words :
    reads 0xA1015000 (.xLd1 0 2 20) = true ∧ reads (word 5 0x04 0 (formQ 0 0 0 0)) (.xCp1 0 0) = true ∧
    reads (word 5 0x04 0 (formQ 14 0 0 0)) (.xCp1 0 14) = false := by decide +kernel

theorem test_decode_loop_and_sync_words :
    reads (word 7 0x04 0 (formQ 3 18 0 0)) (.sWait 0 3 true 2) = true ∧
    reads (word 7 0x00 0 (formQ 1 0 0 0)) (.sArm 0 1 false) = true ∧
    reads (word 7 0x0D 0 0) (.sHalt 0) = true ∧
    reads (word 6 0x0D 5 (formQ 0 16 0 0)) (.lpRec 5 true 0) = true ∧
    readsX (word 7 0x15 0 0) 1 (.sNpr 0 1) = true ∧ decode [word 7 0x15 0 0, 0] = .error .outOfLimits := by
  decide +kernel

/-- The program at the end of the transform chapter, word for word. -/
theorem test_decode_transform_words :
    readsTs 0x72000002 (.tsSetb 1 0 2) = true ∧ readsTs 0x40800000 (.tsSetc 0 2) = true ∧
    readsTs 0xC0000000 (.tsWaitt 0) = true ∧ readsTs 0x80080000 (.tsZexp 0 1) = true ∧
    readsTs 0x5007FFFF (.tsLoop 0 (-1)) = true ∧ readsTs 0xE0000000 .tsFence = true ∧
    readsTs 0xD0800003 (.tsPost 2 3) = true ∧ readsTs 0x00000000 .tsEnd = true := by decide +kernel

/-! ### Ill-formed terms, which the checks refuse -/

theorem test_ill_formed_unused_fields :
    Instr.wellFormed (.saAdd 0 0 0 false 1 0 0) = false ∧ Instr.wellFormed (.saCnt 0 0 0 false 1 0) = false ∧
    Instr.wellFormed (.xFld 0 0 0 0 1) = false ∧ Instr.wellFormed (.lpSchedr 0 0 false 1 false) = false ∧
    Instr.wellFormed (.sWait 0 0 false 1) = false ∧ Instr.wellFormed (.sExit 0 1 0) = false ∧
    Instr.wellFormed (.sPhase 0 1 false) = false ∧ Instr.wellFormed (.lpGen 0 false 1) = false := by decide

theorem test_ill_formed_control_limits :
    Instr.wellFormed (.cmp 0 1 2 3 6) = false ∧ Instr.wellFormed (.cmpx 0 1 2 6 0) = false ∧
    Instr.wellFormed (.mfsr 0 1 6) = false ∧ Instr.wellFormed (.mtsr 0 1 0x3FFF) = false := by decide

theorem test_ill_formed_types_and_rounding :
    Instr.wellFormed (.vAdd 0 .mx4 .rne 0 0 false 0) = false ∧ Instr.wellFormed (.vAdd 0 .i32 .rz 0 0 false 0) = false ∧
    Instr.wellFormed (.vAdd 0 .f32 .rne 0 0 true 0) = false ∧ Instr.wellFormed (.vSqrt 0 .e4m3 .rne 0 0) = false ∧
    Instr.wellFormed (.vAnd 0 .f32 0 0 0) = false ∧ Instr.wellFormed (.vCmpeq 0 .mx8 0 0 0) = false ∧
    Instr.wellFormed (.vCvt 0 .f32 .rne 0 0 true 0) = false ∧ Instr.wellFormed (.mClr 0 .mx6 0) = false ∧
    Instr.wellFormed (.mCvt 0 .i8 0 0 false) = false ∧ Instr.wellFormed (.mTr 0 .i64 0 0) = false := by decide

theorem test_ill_formed_queues_scopes_and_counts :
    Instr.wellFormed (.xLd1 0 14 0) = false ∧ Instr.wellFormed (.xFld 0 0 0 5 0) = false ∧
    Instr.wellFormed (.xLpow 0 1 true) = false ∧ Instr.wellFormed (.saAdd 0 0 6 false 0 0 0) = false ∧
    Instr.wellFormed (.saScope 0 6) = false ∧ Instr.wellFormed (.lpSchedr 0 0 true 14 false) = false ∧
    Instr.wellFormed (.sExit 0 0 5) = false ∧ Instr.wellFormed (.sNpr 0 0) = false ∧
    Instr.wellFormed (.sNpr 0 65537) = false ∧ Instr.wellFormed (.sUev 0 3 0) = false ∧
    Instr.wellFormed (.sTime 0 14) = false := by decide

/-! ### Small states -/

/-- The machine after reset, with nothing due. -/
def bare : State := { State.reset with agenda := [] }

/-- A launch block of one group with an image of 64 bytes. -/
def aBlock : List Word := [0, 64, 1, 0, 0, 0, 0, 0, 0, 0, 0, 0, 0, 0, 0, 0]

/-- A task of die 0, its record in slot 0. -/
def aTask : Task :=
  { tid := 1, die := 0, slot := 0, group := 0, blk := aBlock, cls := 2, weight := 1, scope := none, irrev := false,
    replays := 0, started := 0, system := false, pkg := 0, futures := [] }

/-- The task in bank 0 of core 0, its image as f makes it. -/
def held (f : Image → Image) : State :=
  bare.modBank 0 0 fun b =>
    { b with status := .running, img := f { Image.reset with task := some aTask, base := some 0, cyc := 5 } }

/-- Context 1 of that task, as f makes it, in focus at issue. -/
def issuing (f : Context → Context) : State :=
  (held fun m => m.modCtx 1 fun c => f { c with ended := false, pc := 8 }).focusOn .issue 0 0 1 0

/-- A step of a unit. -/
def unit (s : State) (e : Event) : State := { s with focus := { Focus.reset with event := some e } }

/-- A context whose g1 to g3 hold 7, 2^63 and 2^64 − 1. -/
def regs (c : Context) : Context := { c with g := ((c.g.set 1 7).set 2 (2 ^ 63)).set 3 (-1) }

/-- The next state, where there is one. -/
def after (o : Out) : State :=
  match o with
  | .next t => t
  | _ => bare

/-! ### Control words -/

theorem test_false_predicate : (issuing id).p 3 = false ∧ Claims.guardOf (.add 3 1 2 3) = some (3, 1) ∧
    Claims.guardOf (.cmpx 3 1 2 0 0) = some (3, 2) := by decide +kernel

theorem test_integer_words : Claims.integerResult (.mulh 0 31 2 3 true) (issuing regs) =
      some ⟨0, 31, 4, 2 ^ 63 - 1⟩ ∧ (issuing regs).p 0 = true := by decide +kernel

theorem test_division : (issuing regs).p 0 = true ∧
    (after (exec (.div 0 4 2 3 false) (issuing regs))).cur.pend =
      [{ ctx := 1, file := 0, idx := 4, val := 2 ^ 63, due := 25, shadow := false, born := 0 }] := by decide +kernel

theorem test_immediate_words : Claims.immediateResult (.addi 0 4 1 (-256)) (issuing regs) =
      some ⟨0, 4, 1, -249⟩ ∧ (issuing regs).p 0 = true := by decide +kernel

theorem test_extensions_and_constants :
    Claims.constantResult (.clz 0 4 0) (issuing regs) = some (1, ⟨0, 4, 1, 64⟩) ∧
    Claims.constantResult (.lith 0 1 1) (issuing regs) = some (2, ⟨0, 1, 1, 2 ^ 32 + 7⟩) ∧
    (issuing regs).p 0 = true := by decide +kernel

theorem test_comparisons : Instr.wellFormed (.cmp 0 15 3 1 2) = true ∧
    Claims.predicateResult (.cmp 0 15 3 1 2) (issuing regs) = some ⟨0, 1, 15, true⟩ ∧ (issuing regs).p 0 = true := by
  decide +kernel

/-- A target that is the last word but the trailer, of an image of 64 bytes. -/
theorem test_branches : (issuing id).p 0 = true ∧ Claims.branchTo (issuing id) 12 = 56 ∧
    Claims.goodTarget (issuing id) (Claims.branchTo (issuing id) 12) ∧
    ¬ Claims.goodTarget (issuing id) (Claims.branchTo (issuing id) 13) := by decide +kernel

theorem test_register_jump :
    let s := issuing fun c => { c with g := c.g.set 1 56 }
    s.p 0 = true ∧ Claims.goodTarget s (s.g 1).toNat ∧ (s.g 1).toNat < 2 ^ 15 := by decide +kernel

theorem test_loopb_counts_lc : let s := issuing fun c => { c with lc := 1 }
    s.p 0 = true ∧ Claims.goodTarget s (Claims.branchTo s (-2)) ∧ s.cx.lc ≠ 0 := by decide +kernel

theorem test_loopb_counts_ec : let s := issuing fun c => { c with ec := 1 }
    s.p 0 = true ∧ Claims.goodTarget s (Claims.branchTo s (-2)) ∧ s.cx.lc = 0 ∧ s.cx.ec ≠ 0 := by decide +kernel

theorem test_loopb_passes_on : (issuing id).p 0 = true ∧ (issuing id).cx.lc = 0 ∧ (issuing id).cx.ec = 0 := by
  decide +kernel

/-- The state in which queue register q holds n entries. -/
def queued (q : Fin 16) (n : Nat) : State := let s := issuing id; Claims.withQueue s q (List.replicate n 5)

theorem test_push_with_room : (queued 14 15).p 0 = true ∧ (14 : Fin 16) ≠ 15 ∧
    (Claims.queueAt (queued 14 15) 14).length < Claims.depth 14 := by decide +kernel

theorem test_push_on_a_full_queue : (queued 0 8).p 0 = true ∧ (0 : Fin 16) ≠ 15 ∧
    Claims.depth 0 ≤ (Claims.queueAt (queued 0 8) 0).length := by decide +kernel

theorem test_pop_of_an_entry : (queued 15 1).p 0 = true ∧ Claims.queueAt (queued 15 1) 15 = 5 :: [] := by decide +kernel

theorem test_pop_of_an_empty_queue : (queued 11 0).p 0 = true ∧ Claims.queueAt (queued 11 0) 11 = [] := by decide +kernel

theorem test_qfence_passes : (issuing id).p 0 = true ∧ ∀ q : Fin 13, q.val < 12 → (0xFFF : BitVec 12).getLsbD q.val = true →
    (issuing id).pendingIn 0 0 1 q = false := by decide +kernel

theorem test_qfence_waits : let s := issuing fun c => { c with accesses := 1 }
    s.p 0 = true ∧ ∃ q : Fin 13, q.val < 12 ∧ (1 : BitVec 12).getLsbD q.val = true ∧ s.pendingIn 0 0 1 q = true := by
  decide +kernel

/-- The state whose g1 holds the address of offset o of layer 0 of its own core, or of layer l of its column. -/
def addressing (l o : Nat) : State :=
  issuing fun c => { c with g := c.g.set 1 (BitVec.ofNat 64 (15 * 2 ^ 60 + (if l = 0 then 0 else 2 ^ 56) + l * 2 ^ 31 + o)) }

theorem test_load_accepted : let s := addressing 0 (2 ^ 21 - 8)
    Claims.loadOf (.ld 0 2 1 0) s = some ⟨0, s.g 1 + 0, 8, 2, false⟩ ∧ s.p 0 = true ∧
    ∃ l, Claims.accepted s (s.g 1 + 0) 8 l := by
  refine ⟨rfl, by decide +kernel, ?_⟩
  refine ⟨_, by decide +kernel, by decide +kernel, rfl, by decide +kernel, by decide +kernel⟩

theorem test_store_accepted : let s := addressing 1 0
    Claims.storeOf (.stx 0 2 1 0 false 3) s = some ⟨0, s.g 1 + s.g 0, 8, 2, false⟩ ∧ s.p 0 = true ∧
    ∃ l, Claims.accepted s (s.g 1 + s.g 0) 8 l := by
  refine ⟨by decide +kernel, by decide +kernel, ?_⟩
  refine ⟨⟨0, 0, 0, 1, 0⟩, ?_⟩
  unfold Claims.accepted
  decide +kernel

/-- An access of the word at PC 8 of the task. -/
def anAccess : AccessOf := { tid := 1, core := 0, ctx := 1, pc := 8, addr := 15 * 2 ^ 60, trap := false, born := 0 }

theorem test_access_point_store : let s := unit (held id) (.accessPoint (.store anAccess (keyL0 0 0) 8 5))
    Memory.wf s.mem = true ∧ s.busyUntil (keyL0 0 0) ≤ s.now ∧ s.latent = [] ∧
    (s.accessDone anAccess).accessBad (.store anAccess (keyL0 0 0) 8 5) = none := by decide +kernel

theorem test_access_point_load : let s := unit (held id) (.accessPoint (.load anAccess (keyL0 0 0) 8 false 6 2 false))
    Memory.wf s.mem = true ∧ s.busyUntil (keyL0 0 0) ≤ s.now ∧ s.latent = [] ∧
    (s.accessDone anAccess).accessBad (.load anAccess (keyL0 0 0) 8 false 6 2 false) = none ∧ s.bankOf 1 = some (0, 0) := by
  decide +kernel

theorem test_results_land : let s := unit (held id) (.resultLanding 0 0)
    s.focus.event = some (.resultLanding 0 0) ∧ (s.img 0 0).lp.loadAt = none := by decide +kernel

theorem test_context_register_write : (issuing regs).p 0 = true ∧ 1 ≤ (3 : Fin 16384).val ∧ (3 : Fin 16384).val ≤ 3 := by
  decide +kernel

theorem test_context_register_read : (issuing regs).p 0 = true ∧ (0x00F : Fin 16384).val < 0x010 := by decide +kernel

theorem test_system_register_write : (issuing regs).p 0 = true ∧ 0x010 ≤ (0x014 : Fin 16384).val ∧
    (sysOnly 0x014 = true → (issuing regs).cur.system = true) ∧ sysForbidden 0x014 ((issuing regs).g 0) = false := by
  decide +kernel

theorem test_control_faults :
    Claims.issueFault (.trailerWord 0) (issuing id) = some 0x0104 ∧
    Claims.issueFault (.br 0 13) (issuing id) = some 0x0308 ∧ Claims.issueFault (.call 0 (-3)) (issuing id) = some 0x0308 ∧
    Claims.issueFault (.jr 0 2) (issuing regs) = some 0x0308 ∧ Claims.issueFault (.push 0 15 0) (issuing id) = some 0x0403 ∧
    Claims.issueFault (.uret 0) (issuing id) = some 0x0202 ∧ Claims.issueFault (.mtsr 0 0 0x020) (issuing id) = some 0x0201 ∧
    Claims.issueFault (.mtsr 0 3 0x014) (issuing regs) = some 0x0103 ∧
    Claims.issueFault (.ld 0 4 1 0) (issuing regs) = some 0x0301 ∧
    Claims.issueFault (.st 0 4 1 0) (issuing regs) = some 0x0301 ∧
    Claims.issueFault (.ldx 0 4 1 0 false 1) (issuing regs) = some 0x0301 ∧
    Claims.issueFault (.stx 0 4 1 0 false 3) (issuing regs) = some 0x0301 := by decide +kernel

/-- A fault of queue 2 of the task, raised in task cycle 4. -/
def aFault : QFault := { q := 2, code := 0x0301, addr := 16, mpc := 3, pc := 8, raised := 4, taken := false, user := true }

theorem test_fault_taken :
    let s := unit (held fun m => m.modCtx 1 fun c => { c with ended := false, faults := [aFault] }) (.faultTaken 0 0 .cm)
    let y := (s.img 0 0).ctx[(ctxIx .cm).val]
    y.shadow = none ∧ y.nextFault (s.img 0 0).cyc = some aFault := by decide +kernel

theorem test_event_taken :
    let s := unit (held fun m => m.modCtx 1 fun c => { c with ended := false, events := [⟨3, 9⟩] }) (.eventTake 0 0 .cm)
    let y := (s.img 0 0).ctx[(ctxIx .cm).val]
    y.shadow = none ∧ y.nextFault (s.img 0 0).cyc = none ∧ y.events = ⟨3, 9⟩ :: [] := by decide +kernel

/-- A context in its trap stream. -/
def inTrap (c : Context) : Context := { c with shadow := some { g := Vector.replicate 16 0, p := 1 }, trapPc := 8 }

theorem test_uret_of_an_event : let s := issuing inTrap
    s.p 0 = true ∧ s.cx.shadow = some { g := Vector.replicate 16 0, p := 1 } ∧
    s.cx.faults.find? (fun f => f.taken) = none := by decide +kernel

theorem test_uret_with_retry :
    let s := issuing fun c => { inTrap c with faults := [{ aFault with taken := true }], trapCode := 0x02000301 }
    s.p 0 = true ∧ s.cx.shadow = some { g := Vector.replicate 16 0, p := 1 } ∧
    s.cx.faults.find? (fun f => f.taken) = some { aFault with taken := true } ∧
    s.cx.trapCode.toNat / 2 ^ 16 % 4 = 0 ∧ s.cur.progs = [] := by decide +kernel

/-! ### Engine words -/

/-- n words of queue q of context 1 of the task. -/
def words (q : Fin 13) (n : Nat) (i : Instr) : Image → Image := fun m => m.modEq q 1 fun e => { e with
  words := List.replicate n
    { tid := 1, instr := i, pc := 8, len := 1, trap := false, born := 0, view := 0, kept := none, item := none,
      owed := false } }

/-- The state in which context 1 issues with n words in queue q. -/
def queuedBehind (q : Fin 13) (n : Nat) : State := (issuing id).modCur (words q n (.mDrop 0))

/-- The state in which context 1 of a task of scope 3, with n units of its weight, issues. -/
def scopedTask (n : Nat) : State :=
  (issuing id).modCur fun m => { m with task := some { aTask with scope := some ⟨0, 0, 3⟩, weight := n } }

theorem test_engine_word_with_room : Claims.engineEntry (.sNpr 0 5) = some (0, 12, 2) ∧
    (queuedBehind 12 14).focus.role = .issue ∧ (queuedBehind 12 14).p 0 = true ∧
    Claims.inUse ((queuedBehind 12 14).cur.eqAt 12 (queuedBehind 12 14).focus.ctx) + 2 ≤ 16 := by decide +kernel

theorem test_engine_word_without_room : Claims.engineEntry (.sNpr 0 5) = some (0, 12, 2) ∧
    (queuedBehind 12 15).focus.role = .issue ∧ (queuedBehind 12 15).p 0 = true ∧
    16 < Claims.inUse ((queuedBehind 12 15).cur.eqAt 12 (queuedBehind 12 15).focus.ctx) + 2 := by decide +kernel

theorem test_engine_word_discarded : Claims.engineEntry (.vAdd 4 .f32 .rne 0 0 false 0) = some (4, 1, 1) ∧
    (issuing id).focus.role = .issue ∧ (issuing id).p 4 = false := by decide +kernel

theorem test_engine_word_of_a_detached_copy : Claims.engineEntry (.xCp1 0 0) = some (0, 5, 1) ∧
    Claims.mayDetach (.xCp1 0 0) = true ∧
    ((scopedTask 2).cur.task.map fun t => (t.scope, t.weight)) = some (some ⟨0, 0, 3⟩, 2) ∧
    (scopedTask 2).focus.role = .issue ∧ (scopedTask 2).p 0 = true ∧
    Claims.inUse ((scopedTask 2).cur.eqAt 5 (scopedTask 2).focus.ctx) + 1 ≤ 16 := by decide +kernel

theorem test_engine_word_that_borrows : ((scopedTask 1).cur.task.map fun t => (t.scope, t.weight)) =
      some (some ⟨0, 0, 3⟩, 1) ∧ Claims.mayDetach (.sSig 0 1) = true ∧ (scopedTask 1).focus.role = .issue ∧
    (scopedTask 1).p 0 = true ∧ Claims.inUse ((scopedTask 1).cur.eqAt 12 (scopedTask 1).focus.ctx) + 1 ≤ 16 := by
  decide +kernel

/-- The state in which word i of context 1 is performed at the head of queue q, f having made its image, with the entries
it has popped. -/
def performing (q : Fin 13) (i : Instr) (popped : List Word) (f : Image → Image) : State :=
  let s := (held fun m => (f m).modCtx 1 fun c => { c with ended := false }).focusOn .perform 0 0 1 q
  (s.modCur (words q 1 i)).modQ fun e => { e with cur := some (Cur.fresh 5 popped) }

theorem test_register_load : let s := performing 1 (.vSeta 0 3 15) [9] id
    s.focus.role = .perform ∧ ∃ m, Claims.startWrite (.vSeta 0 3 15) (s.popped 0) s.cur = some m :=
  ⟨rfl, _, rfl⟩

/-! ### Vector words -/

/-- A region word (R168). -/
def regionWord (base count type : Nat) : Word := BitVec.ofNat 64 (base + 2 ^ 24 + count * 2 ^ 40 + type * 2 ^ 56)

/-- Region registers 0 to 2 of VE are regions of the type and count. -/
def regionsSet (count type : Nat) : Image → Image := fun m => { m with
  va := ((m.va.set 0 (regionWord 0 count type)).set 1 (regionWord 4096 count type)).set 2 (regionWord 8192 count type) }

/-- The state in which `v.add` of regions a1 and a2 into a0 is performed. -/
def adding (count type : Nat) : State :=
  performing 1 (.vAdd 0 .f32 .rne 0 1 false 2) [] (regionsSet count type)

/-- The state in which `v.gather` of a1 by the indices of a2 into a0 is performed. -/
def gathering : State := performing 1 (.vGather 0 .i32 0 1 2) [] (regionsSet 3 7)

/-- The state in which `v.iota` into a0, of a popped entry, is performed: it reads nothing. -/
def counting : State := performing 1 (.vIota 0 0 .rne 0 false) [7] (regionsSet 3 7)

/-- What VectorWordsIssueTheirFirstMicroStep asks of a state and a word, and whether the word reads lines. -/
def startsWell (s : State) (i : Instr) (v : VecSpec) (asks : Bool) : Bool :=
  let r := Claims.regionsOf s v
  let ks := Claims.firstElems v r
  decide (s.focus.role = .perform) && decide (s.focus.q = 1) &&
    decide (s.curQ.words.head?.map (·.instr) = some i) && decide (s.prog.mpc = 0) && !s.prog.opened &&
    decide (s.prog.heldAt ≤ s.now) && s.poison.isEmpty && s.latent.isEmpty && s.veToken s.focus.core &&
    decide (s.cur.inFlight < 32) && decide (Claims.regionFault v r = none) && decide (0 < v.count r) &&
    (ks.all fun k => (v.readsAt r k ++ v.writesAt r 0 k).all fun e => e.r.inside e.k) &&
    ((Claims.askedLines s.focus.core v r ks).isEmpty != asks)

theorem test_vector_word_starts : ∃ v, vecSpecOf (.vAdd 0 .f32 .rne 0 1 false 2) = some v ∧
    startsWell (adding 70 0) (.vAdd 0 .f32 .rne 0 1 false 2) v true = true := ⟨_, rfl, by decide +kernel⟩

theorem test_indexed_vector_word_starts : ∃ v, vecSpecOf (.vGather 0 .i32 0 1 2) = some v ∧
    startsWell gathering (.vGather 0 .i32 0 1 2) v true = true := ⟨_, rfl, by decide +kernel⟩

theorem test_vector_word_that_reads_nothing_starts : ∃ v, vecSpecOf (.vIota 0 0 .rne 0 false) = some v ∧
    startsWell counting (.vIota 0 0 .rne 0 false) v false = true := ⟨_, rfl, by decide +kernel⟩

theorem test_vector_word_without_elements : ∃ v, vecSpecOf (.vAdd 0 .f32 .rne 0 1 false 2) = some v ∧
    (adding 0 0).focus.role = .perform ∧ Claims.regionFault v (Claims.regionsOf (adding 0 0) v) = none ∧
    v.count (Claims.regionsOf (adding 0 0) v) = 0 := ⟨_, rfl, by decide +kernel⟩

theorem test_vector_word_faults : ∃ v, vecSpecOf (.vAdd 0 .f32 .rne 0 1 false 2) = some v ∧
    (adding 4 7).focus.role = .perform ∧ (adding 4 7).curQ.words.head?.map (·.tid) = some (adding 4 7).cur.tid ∧
    Claims.regionFault v (Claims.regionsOf (adding 4 7) v) = some 0x0303 := ⟨_, rfl, by decide +kernel⟩

/-- Lines of core 0's layer 0, by their numbers in memory. -/
def ownLines (l : List Nat) : List Nat := l.map fun n => 2 ^ 44 + n

/-- The progress of a word of regions of the count and type that has n micro-steps behind it. -/
def stepped (n count type : Nat) (x : List Nat) : Cur := { Cur.fresh 5 [] with
  mpc := n, next := 6, part := [(regionWord 0 count type).toNat, (regionWord 4096 count type).toNat,
    (regionWord 8192 count type).toNat] ++ x }

/-- The state in which the next step of queue q is due, its word's progress c and the lines granted to it. -/
def stepping (q : Fin 13) (s : State) (c : Cur) (lines : List Nat) : State :=
  unit ((s.modQ fun e => { e with cur := some c }).modCore 0 fun k =>
    { k with granted := (ownLines lines).map fun n =>
      { line := n, wr := false, cls := 0, since := 0, ord := 0, who := .step 0 q 1 } }) (.microStep 0 0 q .cm)

/-- What MicroStepsIssueTheirElements asks of every state, of progress c of word i. -/
def stepsWell (s : State) (i : Instr) (c : Cur) : Bool :=
  let m := s.img 0 0
  decide (s.focus.event = some (.microStep 0 0 1 .cm)) &&
    decide ((m.eqAt 1 (ctxIx .cm)).words.head?.map (·.instr) = some i) && decide ((m.eqAt 1 (ctxIx .cm)).cur = some c) &&
    s.poison.isEmpty && s.latent.isEmpty && decide (c.heldAt ≤ s.now)

/-- The lines that the second micro-step of 1,026 FP32 elements asks for. -/
theorem test_micro_step_asks : ∃ v, vecSpecOf (.vAdd 0 .f32 .rne 0 1 false 2) = some v ∧
    let c := stepped 1 1026 0 []
    let s := stepping 1 (adding 1026 0) c []
    let r := Claims.regionsOf (adding 1026 0) v
    stepsWell s (.vAdd 0 .f32 .rne 0 1 false 2) c = true ∧ c.opened = false ∧ s.veToken 0 = true ∧
    (s.img 0 0).inFlight < 32 ∧ Claims.stepElems v r 1 = [1024, 1025] ∧
    (Claims.askedLines 0 v r (Claims.stepElems v r 1)).length = 2 ∧
    ∀ k ∈ Claims.stepElems v r 1, ∀ e ∈ v.readsAt r k ++ v.writesAt r 1 k, e.r.inside e.k = true :=
  ⟨_, rfl, by decide +kernel⟩

theorem test_micro_step_is_read : ∃ v, vecSpecOf (.vAdd 0 .f32 .rne 0 1 false 2) = some v ∧
    let c := { stepped 1 1026 0 [0] with opened := true, reads := [ownLines [32, 48]] }
    let s := stepping 1 (adding 1026 0) c [48, 32]
    stepsWell s (.vAdd 0 .f32 .rne 0 1 false 2) c = true ∧ v.form .f32 .f32 ≠ .gather ∧ v.form .f32 .f32 ≠ .scatter ∧
    ∀ n ∈ ownLines [32, 48], n ∈ (s.focusOn .perform 0 0 1 1).stepLines := ⟨_, rfl, by decide +kernel⟩

/-- A scatter by three indices of 0, and a gather whose data lines are read. -/
theorem test_scatter_step_is_read : ∃ v, vecSpecOf (.vScatter 0 .i32 0 1 2) = some v ∧
    let c := { stepped 0 3 7 [0] with opened := true, reads := [ownLines [32]] }
    let s := stepping 1 (performing 1 (.vScatter 0 .i32 0 1 2) [] (regionsSet 3 7)) c [32]
    let f := s.focusOn .perform 0 0 1 1
    let r := Claims.regionsOf gathering v
    stepsWell s (.vScatter 0 .i32 0 1 2) c = true ∧ v.form r.d.ty r.aty = .scatter ∧ (∀ n ∈ ownLines [32], n ∈ f.stepLines) ∧
    ∀ k ∈ Claims.stepElems v r 0, let g := f.withLines (f.capture [] f.stepLines)
      0 ≤ Claims.indexAt g r k ∧ Claims.indexAt g r k < (r.d.count : Int) ∧
        (Claims.dataAt g v r k).r.inside (Claims.dataAt g v r k).k = true := ⟨_, rfl, by decide +kernel⟩

theorem test_gather_steps : ∃ v, vecSpecOf (.vGather 0 .i32 0 1 2) = some v ∧
    let c := { stepped 0 3 7 [0] with opened := true, reads := [ownLines [32]] }
    let d := { stepped 0 3 7 [1] with opened := true, reads := [ownLines [16]] }
    let s := stepping 1 gathering c [32]
    let f := s.focusOn .perform 0 0 1 1
    let r := Claims.regionsOf gathering v
    stepsWell s (.vGather 0 .i32 0 1 2) c = true ∧ stepsWell (stepping 1 gathering d [16]) (.vGather 0 .i32 0 1 2) d = true ∧
    v.form r.d.ty r.aty = .gather ∧ c.part.getD 3 0 ≠ 1 ∧ d.part.getD 3 0 = 1 ∧ (∀ n ∈ ownLines [32], n ∈ f.stepLines) ∧
    (∀ n ∈ ownLines [16], n ∈ ((stepping 1 gathering d [16]).focusOn .perform 0 0 1 1).stepLines) ∧
    ∀ k ∈ Claims.stepElems v r 0, let g := f.withLines (f.capture [] f.stepLines)
      0 ≤ Claims.indexAt g r k ∧ Claims.indexAt g r k < (r.ra.count : Int) ∧
        (Claims.dataAt g v r k).r.inside (Claims.dataAt g v r k).k = true := ⟨_, rfl, by decide +kernel⟩

theorem test_row_micro_step : let s := stepping 3 (adding 1026 0) (stepped 0 1 0 []) []
    s.focus.event = some (.microStep 0 0 3 .cm) ∧ s.latent = [] := by decide +kernel

/-- 0x80 + 0xFF saturated at −128, with SAT. -/
theorem test_integer_element : ∃ v, vecSpecOf (.vAdd 0 .i8 .rne 0 1 true 2) = some v ∧ ElemType.i8.isInt = true ∧
    Claims.typeOf (.vAdd 0 .i8 .rne 0 1 true 2) = some .i8 ∧ 0x80 < 2 ^ ElemType.i8.bits ∧
    Claims.integerElement (.vAdd 0 .i8 .rne 0 1 true 2) .i8 [] 0 0x80 0xFF 0 = some (0x80, flagSAT) ∧
    v.elem .i8 .i8 [] 0 0x80 0xFF 0 = (0x80, flagSAT) := ⟨_, rfl, by decide +kernel⟩

/-- 1 + 2 in FP32, and 1 − 1, of a word that names the mode RD. -/
theorem test_float_elements : ∃ v F, vecSpecOf (.vAdd 0 .f32 .rd 0 1 false 2) = some v ∧
    Claims.typeOf (.vAdd 0 .f32 .rd 0 1 false 2) = some .f32 ∧ ElemType.f32.fmt = some F ∧
    F.decode 0x3F800000 = .fin false 1 ∧ F.decode 0x40000000 = .fin false 2 ∧ F.decode 0xBF800000 = .fin true (-1) ∧
    Claims.exactElement (.vAdd 0 .f32 .rd 0 1 false 2) 1 2 0 = some (3, .rd, false) ∧
    Claims.exactElement (.vAdd 0 .f32 .rd 0 1 false 2) 1 (-1) 0 = some (0, .rd, false) ∧
    v.elem .f32 .f32 [] 0 0x3F800000 0x40000000 0 = (0x40400000, 0) ∧
    v.elem .f32 .f32 [] 0 0x3F800000 0xBF800000 0 = (0x80000000, 0) := ⟨_, _, rfl, rfl, rfl, by decide +kernel⟩

theorem test_rounding_modes : (5 / 2 : Rat) ≠ 0 ∧ roundAt 1 0 .rd (5 / 2) = 2 ∧ roundAt 1 0 .ru (5 / 2) = 4 ∧
    roundAt 1 0 .rz (-5 / 2) = -2 := by decide +kernel

/-- An element write of one byte that is due, which raises a flag. -/
def aByte : ElemWrite :=
  { tid := 1, q := 1, ctx := 1, word := 3, due := 5, bytes := [{ off := 2 ^ 21 - 1, val := 9, mask := 255 }],
    flags := [(8191, 1)], slot := { first := 2 ^ 21 - 1, stride := 1, count := 1, ty := .i8 }, step := true }

/-- The state in which it lands, and another is not due; its line granted or not. -/
def landing (granted : Bool) : State :=
  unit ((held fun m => { m with elems := [{ aByte with due := 9 }, aByte] }).modCore 0 fun k => { k with
    granted := if granted then [{ line := 2 ^ 44 + 8191, wr := true, cls := 0, since := 0, ord := 0, who := .elem 0 1 }] else [] })
    (.elementWriteLands 0 0)

theorem test_element_write_lands :
    (landing true).focus.event = some (.elementWriteLands 0 0) ∧ Memory.wf (landing true).mem = true ∧
    ((landing true).img 0 0).elems = [{ aByte with due := 9 }] ++ aByte :: [] ∧ aByte.due ≤ ((landing true).img 0 0).cyc ∧
    ((landing true).img 0 0).cyc < 9 ∧ (aByte.bytes.map (·.off)).Nodup ∧
    (∀ b ∈ aByte.bytes, b.off / 256 ∈ (landing true).elemLinesGranted 0 0 1) ∧
    (∀ f ∈ aByte.flags, f.1 ∈ (landing true).elemLinesGranted 0 0 1) ∧
    (landing false).elemLinesGranted 0 0 1 = [] := by decide +kernel

/-! ### Row words, tiles and updates -/

/-- `row.max` of one row of 256 elements of a1 into the vector a0. -/
def rowMaxing : State := performing 3 (.rowMax 0 0 0 1) [1] fun m => { m with
  ra := (m.ra.set 0 (regionWord 0 1 0)).set 1 (regionWord 4096 256 0) }

theorem test_row_word_starts : ∃ w, rowSpecOf (.rowMax 0 0 0 1) = some w ∧ rowMaxing.focus.role = .perform ∧
    rowMaxing.focus.q = 3 ∧ rowMaxing.curQ.words.head?.map (·.instr) = some (.rowMax 0 0 0 1) ∧ rowMaxing.prog.mpc = 0 ∧
    rowMaxing.prog.part = [] ∧ rowMaxing.prog.opened = false ∧ rowMaxing.prog.heldAt ≤ rowMaxing.now ∧
    rowMaxing.poison = [] ∧ rowMaxing.latent = [] ∧
    let x := rowMaxing.rowRun w
    let ph := Claims.firstPhase w
    x.startFault = none ∧ 0 < x.ctl.rows ∧ (x.reads 0 ph 0).length = 256 ∧
    ∀ y ∈ x.reads 0 ph 0 ++ x.writes 0 ph 0, y.inside = true := ⟨_, rfl, by decide +kernel⟩

/-- The progress of that word once it has asked for the four lines of its row. -/
def rowAsked : Cur := { Cur.fresh 5 [1] with
  part := [(regionWord 0 1 0).toNat, (regionWord 4096 256 0).toNat, 0], opened := true, reads := [ownLines [16, 17, 18, 19]] }

theorem test_row_word_reads : ∃ v, rowSpecOf (.rowMax 0 0 0 1) = some v ∧
    let s := stepping 3 rowMaxing rowAsked [16, 17, 18, 19]
    let m := s.img 0 0
    let f := s.focusOn .perform 0 0 1 3
    let z := rowAsked.rowRun v
    s.focus.event = some (.microStep 0 0 3 .cm) ∧
    (m.eqAt 3 (ctxIx .cm)).words.head?.map (·.instr) = some (.rowMax 0 0 0 1) ∧
    (m.eqAt 3 (ctxIx .cm)).cur = some rowAsked ∧ s.poison = [] ∧ s.latent = [] ∧ rowAsked.heldAt ≤ s.now ∧
    rowAsked.halt = none ∧ (∀ n ∈ ownLines [16, 17, 18, 19], n ∈ f.stepLines) ∧ rowAsked.rowDue z m.cyc = [(0, 0, 0)] ∧
    v.dVec = true ∧ 0 < z.ra.count ∧ z.ra.count ≤ 256 ∧
    ∀ y ∈ z.reads 0 0 0 ++ z.writes 0 0 0, y.inside = true := ⟨_, rfl, by decide +kernel⟩

/-- A tile word (R225). -/
def tileWord (base pitch rows cols : Nat) : Word := BitVec.ofNat 64 (base + pitch * 2 ^ 24 + rows * 2 ^ 40 + cols * 2 ^ 46)

/-- Tile registers 0 to 2: an accumulator, A with m rows of k elements of BF16, and B with n rows, in groups of their own. -/
def tilesSet (m n k : Nat) : Image → Image := fun x => { x with
  td := ((x.td.set 0 (tileWord 0 128 m n)).set 1 (tileWord (2 ^ 19) 64 m k)).set 2 (tileWord (2 ^ 20) 64 n k) }

/-- The state in which `m.mma` of a fresh format (BF16 by BF16, w 8, CLEAR) is performed. -/
def multiplying (m n k : Nat) : State := performing 2 (.mMma 0 0 1 2) [0x4811] (tilesSet m n k)

theorem test_tile_command_starts : ∃ w, Claims.tileWord (.mMma 0 0 1 2) = some w ∧
    (multiplying 1 2 32).focus.role = .perform ∧ (multiplying 1 2 32).poison = [] ∧ (multiplying 1 2 32).latent = [] ∧
    (multiplying 1 2 32).meToken 0 = true ∧ (multiplying 1 2 32).prog.opened = false ∧
    let x := Claims.tileRun (multiplying 1 2 32) w
    x.startFault = none ∧ x.accSpans ≠ [] ∧ x.k ≠ 0 := ⟨_, rfl, by decide +kernel⟩

/-- A state in which the lines of the bank in focus are granted to the word that is performed, its progress as f makes it. -/
def grantedTo (s : State) (lines : List Nat) (f : Cur → Cur) : State :=
  (s.modQ fun e => { e with cur := e.cur.map f }).modCore 0 fun k => { k with
    granted := (ownLines lines).map fun n => { line := n, wr := false, cls := 0, since := 0, ord := 0, who := .step 0 s.focus.q 1 } }

theorem test_tile_command_reads :
    let s := grantedTo (multiplying 1 2 32) [2048, 4096] fun c => { c with
      opened := true, reads := [ownLines [2048, 4096]], part := [0] }
    s.focus.role = .perform ∧ s.poison = [] ∧ s.latent = [] ∧ s.prog.opened = true ∧ s.prog.reads = [ownLines [2048, 4096]] ∧
    ∀ n ∈ ownLines [2048, 4096], n ∈ s.stepLines := by decide +kernel

theorem test_tile_command_without_outputs : ∃ w, Claims.tileWord (.mMma 0 0 1 2) = some w ∧
    (multiplying 0 2 32).focus.role = .perform ∧ (multiplying 0 2 32).prog.opened = false ∧
    let x := Claims.tileRun (multiplying 0 2 32) w
    x.startFault = none ∧ x.f.baren = false ∧ x.accSpans = [] := ⟨_, rfl, by decide +kernel⟩

theorem test_tile_command_without_terms : ∃ w, Claims.tileWord (.mMma 0 0 1 2) = some w ∧
    (multiplying 1 2 0).focus.role = .perform ∧ (multiplying 1 2 0).prog.opened = false ∧
    let x := Claims.tileRun (multiplying 1 2 0) w
    x.startFault = none ∧ x.f.baren = false ∧ x.accSpans ≠ [] ∧ x.k = 0 := ⟨_, rfl, by decide +kernel⟩

/-- A block whose one element is n. -/
def aBlockOf (n : Int) (special : Bool) : Block := ⟨[n], 1, special⟩

theorem test_special_block : ∃ x ∈ [aBlockOf 1 true], x.special = true := ⟨_, List.mem_singleton.2 rfl, rfl⟩

theorem test_pass_value_of_nothing : (∀ x ∈ [aBlockOf 0 false], x.special = false) ∧
    ∀ c ∈ List.zipWith (blockDot 8) [aBlockOf 0 false] [aBlockOf 3 false], c = 0 := by
  simp [aBlockOf, blockDot]

/-- The contributions 3 / 2^12 and 3. -/
theorem test_pass_value : (∀ x ∈ [aBlockOf 1 false, aBlockOf 4096 false], x.special = false) ∧
    let cs := List.zipWith (blockDot 8) [aBlockOf 1 false, aBlockOf 4096 false] [aBlockOf 3 false, aBlockOf 3 false]
    (3 : Rat) ∈ cs ∧ (∀ c ∈ cs, c ≠ 0 → floorLog2 (ratAbs c) ≤ floorLog2 (ratAbs 3)) ∧
    floorLog2 (ratAbs 3) - 57 = -56 ∧ ∀ c ∈ cs, c = ((c * 2 ^ 56).num : Rat) * pow2 (-56) := by
  simp only [aBlockOf]
  decide +kernel

/-- A pass of one output, its line as given, that posts to barrier b. -/
def aPass (l : AccLine) (b : Option Nat) : Pass :=
  { tid := 1, ctx := 1, pc := 8, trap := false, nb := 1, formed := 1, acc := 0, m := 1, n := 1, clear := true, sat := false,
    vals := [some 0x3F800000], lines := [l], wrote := 0, count := 0, bar := b, post := none, bad := none }

/-- The state in which the accumulation of a pass is due, its line granted or not. -/
def passing (p : Pass) (granted : Bool) : State :=
  unit ((held fun m => { m with passes := [p] }).modCore 0 fun k => { k with
    granted := if granted then [{ line := 2 ^ 44, wr := true, cls := 2, since := 0, ord := 0, who := .acc 0 0 0 }] else [] })
    (.passAccumulation 0 0)

/-- What PassesAccumulateLineByLine asks of the state in which pass p of line l is due. -/
def passReady (p : Pass) (l : AccLine) (granted : Bool) : Bool :=
  let s := passing p granted
  decide (s.focus.event = some (.passAccumulation 0 0)) && s.poison.isEmpty && s.latent.isEmpty && Memory.wf s.mem &&
    decide ((s.img 0 0).passes = [p]) && decide (p.lines = [l]) && decide (p.bad = none) && decide (p.post = none) &&
    (((s.core 0).granted.any fun r => r.who == .acc 0 0 0) == granted)

theorem test_accumulator_line_waits : passReady (aPass ⟨0, 5, none⟩ none) ⟨0, 5, none⟩ false = true := by decide +kernel

theorem test_accumulator_line_read : passReady (aPass ⟨0, 5, none⟩ none) ⟨0, 5, none⟩ true = true := by decide +kernel

theorem test_accumulator_line_written :
    let l : AccLine := ⟨0, 5, some [(0, 0x3F800000)]⟩
    passReady (aPass l none) l true = true ∧ passReady (aPass l (some 0)) l true = true ∧
    [(0, 0x3F800000)].Pairwise (fun a b => a.1 + 4 ≤ b.1) := by decide +kernel

/-- The state in which word i of ME is performed on tiles 0 and 1 of 2 × 2. -/
def onTiles (i : Instr) : State := performing 2 i [] fun m => { m with
  td := (m.td.set 0 (tileWord 0 128 2 2)).set 1 (tileWord 4096 128 2 2) }

/-- What AccumulatorWordsWriteTheirTile asks of it, and whether the word asks for lines. -/
def tilesReady (s : State) (x : AccSpec) (a : Fin 8) (asks : Bool) : Bool :=
  let td := tileOf (s.cur.td[0])
  let ta := tileOf (s.cur.td[a.val])
  decide (s.focus.role = .perform) && s.poison.isEmpty && s.latent.isEmpty && decide (s.prog.heldAt ≤ s.now) &&
    !s.prog.opened && decide (x.startFault td ta = none) && decide (0 < td.rows) && decide (0 < td.cols) &&
    ((spanLines (Claims.accReads x td ta)).isEmpty != asks)

theorem test_accumulator_word_starts : (∃ x, Claims.accWord (.mAdd 0 0 1) (onTiles (.mAdd 0 0 1)) = some (x, 0, 1) ∧
      tilesReady (onTiles (.mAdd 0 0 1)) x 1 true = true) ∧
    ∃ x, Claims.accWord (.mClr 0 .f32 0) (onTiles (.mClr 0 .f32 0)) = some (x, 0, 0) ∧
      tilesReady (onTiles (.mClr 0 .f32 0)) x 0 false = true :=
  ⟨⟨_, rfl, by decide +kernel⟩, ⟨_, rfl, by decide +kernel⟩⟩

theorem test_accumulator_word_reads :
    let s := grantedTo (onTiles (.mAdd 0 0 1)) [0, 16] fun c => { c with opened := true, reads := [ownLines [0, 16]] }
    (Claims.accWord (.mAdd 0 0 1) s).isSome = true ∧ s.focus.role = .perform ∧ s.poison = [] ∧ s.latent = [] ∧
    s.prog.heldAt ≤ s.now ∧ s.prog.opened = true ∧ s.prog.reads = [ownLines [0, 16]] ∧
    ∀ n ∈ ownLines [0, 16], n ∈ s.stepLines := by decide +kernel

/-- The state in which update word i of SACC is performed, its target base in its own core's layer 0. -/
def updating (i : Instr) : State := performing 4 i [15 * 2 ^ 60] fun m => { m with
  sa := ((m.sa.set 0 (regionWord 0 1 7)).set 1 (regionWord 4096 1 7)).set 2 (regionWord 8192 1 7) }

theorem test_update_word_starts : ∃ x, saWordOf (.saAdd 0 0 0 false 0 1 2) = some x ∧
    let s := updating (.saAdd 0 0 0 false 0 1 2)
    s.focus.role = .perform ∧ s.focus.q = 4 ∧ s.curQ.words.head?.map (·.instr) = some (.saAdd 0 0 0 false 0 1 2) ∧
    s.wordLive = true ∧ s.prog.mpc = 0 ∧ s.prog.window = [] ∧
    let g := Claims.saRegionsOf s x
    g.startFault x.op = none ∧ 0 < g.i.count ∧ (∀ y ∈ g.i :: (g.v.toList ++ g.r.toList), y.inside 0 = true) :=
  ⟨_, rfl, by decide +kernel⟩

/-- The progress of an update word of n elements, its regions as above, whose next element's lines are asked for. -/
def takes (lines : List Nat) (w : List (Word × Nat × Nat)) : Cur := { Cur.fresh 5 [15 * 2 ^ 60] with
  part := [(regionWord 0 1 7).toNat, (regionWord 4096 1 7).toNat, (regionWord 8192 1 7).toNat]
  opened := true, reads := [ownLines lines], window := w }

/-- What UpdateWordsTakeTheirFirstElement asks of the state in which word i takes an element. -/
def takesWell (i : Instr) (x : SaWord) (cu : Cur) (lines : List Nat) : Bool :=
  let s := stepping 4 (updating i) cu lines
  let m := s.img 0 0
  let f := s.focusOn .perform 0 0 1 4
  let g := saRegions x (cu.part.getD 0 0) (cu.part.getD 1 0) (cu.part.getD 2 0)
  let seen := f.withLines (f.capture cu.lines f.stepLines)
  let base := cu.popped.getD 0 0
  let a := Claims.saTarget seen 0 base g cu.mpc
  let l : Loc := ⟨0, 0, 0, 0, 0⟩
  decide (s.focus.event = some (.microStep 0 0 4 .cm)) &&
    decide ((m.eqAt 4 (ctxIx .cm)).words.head?.map (·.instr) = some i) && decide ((m.eqAt 4 (ctxIx .cm)).cur = some cu) &&
    s.poison.isEmpty && s.latent.isEmpty && m.holds 1 && decide (g.startFault x.op = none) &&
    decide (cu.reads = [ownLines lines]) && ((ownLines lines).all fun n => f.stepLines.contains n) && decide (cu.mpc < g.i.count) &&
    isGeneric base && decide (locOf 0 a = some l) && decide (locOf 0 base = some l) &&
    decide (a.toNat % g.ty.bytes = 0) && !s.reservedBank l && decide (s.capFault l g.ty.bytes f.view = none)

theorem test_update_word_takes_an_element : ∃ x, saWordOf (.saAdd 0 0 0 false 0 1 2) = some x ∧
    x.op.merges x.ret = true ∧
    takesWell (.saAdd 0 0 0 false 0 1 2) x (takes [0, 16] []) [0, 16] = true ∧
    takesWell (.saAdd 0 0 0 false 0 1 2) x (takes [0, 16] [(15 * 2 ^ 60, keyL0 0 0, 7)]) [0, 16] = true :=
  ⟨_, rfl, by decide +kernel⟩

theorem test_update_word_that_returns : ∃ x, saWordOf (.saCas 0 0 0 0 1 2) = some x ∧ x.op.merges x.ret = false ∧
    x.op = .cas ∧ takesWell (.saCas 0 0 0 0 1 2) x (takes [0, 16, 32] []) [0, 16, 32] = true :=
  ⟨_, rfl, by decide +kernel⟩

/-- An update of `sa.add` at an element of layer 0. -/
def anUpdate : Update :=
  { tid := 1, ctx := .cm, core := 0, bank := 0, pc := 8, trap := false, op := 1, key := keyL0 0 0, addr := 15 * 2 ^ 60,
    ty := .i32, val := 0xFFFFFFFF, expect := 0, ret := some 64, back := 3, scope := 0, old := none, bad := none,
    ready := false }

/-- What UpdatesReadModifyAndWriteAtTheirHome asks of every state. -/
def updateReady (u : Update) : Bool :=
  let s := unit bare (.saHomeUpdate u)
  decide (s.focus.event = some (.saHomeUpdate u)) && s.poison.isEmpty && s.latent.isEmpty && Memory.wf s.mem &&
    decide (u.bad = none) && decide (u.via = none)

theorem test_update_asks_its_home : updateReady anUpdate = true ∧ anUpdate.old = none ∧ anUpdate.ready = false ∧
    lineHome (anUpdate.key / 256) = .l0 0 ∧ lineHome (keyTower 0 1 0 / 256) = .slice 0 0 := by decide +kernel

theorem test_update_at_its_home : let u := { anUpdate with ready := true }
    let s := unit bare (.saHomeUpdate u)
    updateReady u = true ∧ u.old = none ∧ u.ready = true ∧ u.ty.isInt = true ∧ keyLoc u.key = some ⟨0, 0, 0, 0, 0⟩ ∧
    u.val < 2 ^ u.ty.bits ∧
    Claims.homeResult u.op u.ty (s.read u.key u.ty.bytes) u.val u.expect = some 0xFFFFFFFF := by decide +kernel

theorem test_old_value_returns : let u := { anUpdate with old := some 7 }
    updateReady u = true ∧ u.old = some 7 ∧ u.ret = some 64 ∧ u.ready = false ∧
    updateReady { u with ready := true } = true := by decide +kernel

/-! ### Transfer words and the tower -/

/-- The address of offset o of layer l of the own column, in its window. -/
def columnAddr (l o : Nat) : Word := BitVec.ofNat 64 (15 * 2 ^ 60 + 2 ^ 56 + l * 2 ^ 31 + o)

/-- The place it names from core 0. -/
def ownLoc (l o : Nat) : Loc := ⟨0, 0, 0, l, o⟩

theorem test_evict_of_nothing : let s := performing 5 (.xEvict 0 0 3) [0] id
    s.focus.role = .perform ∧ s.popped 0 = 0 := by decide +kernel

theorem test_evict_and_load_shape : let s := performing 5 (.xEvict 0 0 3) [columnAddr 1 64] id
    s.focus.role = .perform ∧ Claims.ownPlace s (s.popped 0) 0 1 64 64 (ownLoc 1 64) ∧ s.popped 0 ≠ 0 ∧
    s.latent = [] := by
  unfold Claims.ownPlace
  decide +kernel

/-- The state in which `x.cp1` of n bytes, from layer 1 to layer 0, is performed at sector m of it. -/
def copying (n m : Nat) : State :=
  let s := performing 5 (.xCp1 0 0) [0, columnAddr 1 0, 15 * 2 ^ 60, BitVec.ofNat 64 n] id
  s.setProg { s.prog with mpc := m }

/-- That state with its word's own unit of weight owed or not, and a barrier that counts. -/
def copyingOf (n : Nat) (bar : Word) (owed : Bool) : State :=
  let s := (copying n 0).modQ fun e => { e with words := e.words.map fun w => { w with owed } }
  s.setProg { s.prog with popped := [bar, columnAddr 1 0, 15 * 2 ^ 60, BitVec.ofNat 64 n] }

/-- What CopiesAreAccepted asks of it. -/
def copyStarts (s : State) : Bool :=
  let run := { s.run with slot := 0, scale := 0, served := s.prog.mpc, asked := 0 }
  decide (Claims.copySlots (.xCp1 0 0) s = some (0, 0)) && decide (s.focus.role = .perform) && s.wordLive &&
    decide (s.curQ.words.length = 1) && !s.run.bound &&
    (match (s.setProg { s.prog with copy := some run }).copyCmd (.xCp1 0 0) with
      | some (.ok x) => !s.cutOff x
      | _ => false)

/-- The name of barrier 1,023 of the core's own column (R100). -/
def aBarrier : Word := BitVec.ofNat 64 (1 + 1023 * 2 ^ 13)

theorem test_copy_accepted : copyStarts (copyingOf 100 0 false) = true ∧
    (copyingOf 100 0 false).curQ.words.head?.map (·.owed) = some false := by decide +kernel

theorem test_copy_accepted_that_waits : copyStarts (copyingOf 100 aBarrier true) = true ∧ nameKind aBarrier = 1 ∧
    (copyingOf 100 aBarrier true).curQ.words.head?.map (·.owed) = some true ∧
    (copyingOf 100 aBarrier true).prog.item = none := by decide +kernel

theorem test_byte_copy : ∃ x, (copying 100 0).bytesCmd 5 [0, columnAddr 1 0, 15 * 2 ^ 60, 100] = .ok x := ⟨_, rfl⟩

theorem test_tile_coordinates : 5 < [2, 3].foldr (· * ·) 1 ∧ coordsOf [2, 3] 5 = [1, 2] := by decide +kernel

/-- The state in which a part of that copy is due, its run and its progress as given. -/
def copyPart (p : CopyPart) (served : Nat) (f : Cur → Cur) : State :=
  unit ((copying 100 0).modQ fun e => { e with cur := e.cur.map fun k => f { k with
    waiting := true, copy := some { slot := 0, scale := 0, bound := true, bar := 0, served, asked := 4, writes := 1, pages := [] } } })
    (.copyCompletion 0 0 5 .cm p)

/-- The copy that it is part of. -/
def copyOf (s : State) : Option CopyCmd :=
  let f := s.focusOn .perform 0 0 1 5
  match f.curQ.words with
  | [w] =>
    match (f.beforeRecovery f.view).copyCmd w.instr with
    | some (.ok x) => if f.cutOff x then none else some x
    | _ => none
  | _ => none

/-- What CopiesTakeTheirTurns asks of a part, and more of the copy. -/
def turns (p : CopyPart) (s : State) (c : CopyCmd → State → Bool) : Bool :=
  decide (s.focus.event = some (.copyCompletion 0 0 5 .cm p)) &&
    (match copyOf s with
      | some x => c x (s.focusOn .perform 0 0 1 5)
      | none => false)

theorem test_copy_turn : turns .turn (copyPart .turn 0 id) (fun x f =>
      f.engineTurn && decide (0 < (x.turnSectors f.run.served).length)) = true ∧
    turns .turn (copyPart .turn 4 id) (fun x f =>
      f.engineTurn && decide ((x.turnSectors f.run.served).length = 0)) = true := by decide +kernel

theorem test_copy_turn_of_another : turns .turn
    ((copyPart .turn 0 id).modCol 0 fun c => { c with ceNext := c.ceNext.set 0 3, ceAt := c.ceAt.set 0 1 })
    (fun _ f => !f.engineTurn) = true := by decide +kernel

theorem test_copy_asks_for_its_lines : turns (.fetch 4) (copyPart (.fetch 4) 4 id) (fun x f =>
    decide ((((((x.sectors.drop f.prog.mpc).take 4).flatMap fun sec => f.sectorLines x sec).eraseDups).filter
      fun y => (f.prog.lines.find y).isNone) = [keyTower 0 1 0 / 256])) = true := by decide +kernel

/-- The first line of the copy's source. -/
def firstLine : Nat := keyTower 0 1 0 / 256

theorem test_copy_is_granted_a_line : dramLine firstLine = false ∧
    turns (.line firstLine) (copyPart (.line firstLine) 4 fun k => { k with reads := [[firstLine, firstLine + 1]] })
      (fun _ f => decide (f.prog.reads = [[firstLine, firstLine + 1]])) = true := by decide +kernel

theorem test_copy_is_granted_its_last_line :
    turns (.line firstLine) (copyPart (.line firstLine) 4 fun k => { k with reads := [[firstLine]] }) (fun x f =>
      let g := f.setProg { f.prog with lines := f.capture f.prog.lines [firstLine], reads := [[]] }
      !x.fs && decide (f.prog.heldAt ≤ f.now) && (((x.sectors.drop f.prog.mpc).take f.run.asked).all fun sec =>
        match g.sectorCells x sec with
        | (.ok l, h) => !l.isEmpty && decide (h.prog = g.prog)
        | _ => false)) = true := by decide +kernel

/-- Two bytes of layer 0. -/
def twoCells : List (Nat × Byte × Bool) := [(keyL0 0 0, 1, false), (keyL0 0 1, 2, false)]

theorem test_copy_lands : let s := copyPart (.land 5 twoCells) 4 id
    s.focus.event = some (.copyCompletion 0 0 5 .cm (.land 5 twoCells)) ∧ Memory.wf s.mem = true := by decide +kernel

theorem test_copy_is_put : let s := copyPart (.put 5 twoCells) 4 fun k => { k with mpc := 4 }
    turns (.put 5 twoCells) s (fun x f => decide (f.prog.started = 5) && decide (f.run.writes = 1) &&
      decide (x.sectors.length ≤ f.prog.mpc) && f.run.bound && decide (f.prog.heldAt ≤ s.now)) = true ∧
    Memory.wf s.mem = true ∧ (twoCells.map (·.1)).Nodup ∧ ∀ y ∈ twoCells, s.awayPkg y.1 = none := by decide +kernel

theorem test_shape_slot_loads : let s := copyPart (.slot 31 7) 0 id
    s.focus.event = some (.copyCompletion 0 0 5 .cm (.slot 31 7)) ∧ Memory.wf s.mem = true ∧
    (s.focusOn .perform 0 0 1 5).curQ.words.length = 1 := by decide +kernel

theorem test_copy_posts : turns .post (copyPart .post 4 id) (fun _ _ => true) = true ∧
    Memory.wf (copyPart .post 4 id).mem = true ∧
    turns .post ((copyPart .post 4 fun k => { k with popped := k.popped.set 0 aBarrier })) (fun x f =>
      decide (nameKind x.bar = 1) && decide (namePkg x.bar = f.pkg.num)) = true := by decide +kernel

theorem test_dram_activate : Claims.dramKind (.xDact 0 0) = some 0 ∧
    let s := performing 8 (.xDact 0 0) [columnAddr 4 (3 * 2 ^ 26 + 2 ^ 11)] id
    s.focus.role = .perform ∧ Claims.ownPlace s (s.popped 0) 4 4 1 1 (ownLoc 4 (3 * 2 ^ 26 + 2 ^ 11)) ∧
    (3 * 2 ^ 26 + 2 ^ 11) % 2 ^ 11 = 0 := by
  unfold Claims.ownPlace
  decide +kernel

/-- The state in which a command for bank 3 of column 0 is due, its row as given, in cycle n. -/
def commanding (k : Fin 3) (row : Option Nat) (n : Nat) : State :=
  unit ({ bare with now := n }.modDram 0 3 fun b => { b with row, actAt := 1 })
    (.dramCommandIssue { kind := k, col := 0, bank := 3, row := 5, who := none })

theorem test_dram_command_too_early : (commanding 1 (some 5) 80).now <
    (commanding 1 (some 5) 80).commandAt { kind := 1, col := 0, bank := 3, row := 5, who := none } := by decide +kernel

theorem test_dram_command_in_time : (commanding 1 (some 5) 81).commandAt { kind := 1, col := 0, bank := 3, row := 5, who := none } ≤
      (commanding 1 (some 5) 81).now ∧
    (commanding 0 none 81).commandAt { kind := 0, col := 0, bank := 3, row := 5, who := none } ≤ (commanding 0 none 81).now ∧
    ((commanding 0 none 81).dram 0 3).row = none := by decide +kernel

theorem test_dram_activate_of_an_open_bank : let x : DramCmd := { kind := 0, col := 0, bank := 3, row := 5, who := none }
    (commanding 0 (some 6) 200).commandAt x ≤ (commanding 0 (some 6) 200).now ∧ x.kind ≠ 1 ∧
    ((commanding 0 (some 6) 200).dram 0 3).row ≠ none := by decide +kernel

theorem test_forced_refresh : let s := unit { bare with now := 8775 } (.forcedRefresh 31 29)
    s.focus.event = some (.forcedRefresh 31 29) ∧ s.ownRefresh 31 29 = false ∧ s.dramHeld 31 29 ≤ s.now ∧
    (s.dram 31 29).prechargeAt ≤ s.now ∧ (s.col 31).rfstall.toNat / 2 ^ 32 % 2 ^ 16 < 2 ^ 16 - 1 := by decide +kernel

theorem test_store_banks_are_not_forced : let s := unit bare (.forcedRefresh 7 30)
    s.focus.event = some (.forcedRefresh 7 30) ∧ (s.die (colDie 7)).storesCol = 7 := by decide +kernel

theorem test_refresh_end_and_sensor : (unit bare (.forcedRefreshEnd 31 31)).focus.event = some (.forcedRefreshEnd 31 31) ∧
    let s := unit bare (.dramSensorReading 31 4 86)
    s.focus.event = some (.dramSensorReading 31 4 86) ∧ (85 < 86 ↔ (s.col 31).refwin.toNat.testBit 14 = false) := by
  decide +kernel

theorem test_layer_wakes : let s := unit bare (.layerWakeComplete 3 2)
    s.focus.event = some (.layerWakeComplete 3 2) ∧ Memory.wf s.mem = true := by decide +kernel

theorem test_layer_powers_off : let s := unit bare (.layerPowerOff 0 3)
    s.focus.event = some (.layerPowerOff 0 3) ∧ s.dieEmpty 0 = true ∧ s.fitsBelow 0 3 = true ∧ s.allocs 0 = [] ∧
    (s.die 0).on[(layerIx 3).val] = true ∧ (3 : Fin 5) ≠ 2 := by decide +kernel

theorem test_layer_stays_powered : let s := unit (held id) (.layerPowerOff 0 2)
    s.focus.event = some (.layerPowerOff 0 2) ∧ s.dieEmpty 0 = false := by decide +kernel

/-- The state in which a hint on layer 3 is performed, at its start or once it is accepted. -/
def hinting (up : Bool) (part : List Nat) : State :=
  let s := performing 10 (.xLpow 0 3 up) [] id
  (s.setProg { s.prog with part }).modDie 0 fun d => { d with on := #v[false, false] }

theorem test_hint_starts : (hinting true []).focus.role = .perform ∧ (hinting true []).prog.part = [] := by decide +kernel

theorem test_hint_performed : (hinting true [1]).focus.role = .perform ∧ (hinting true [1]).prog.part ≠ [] ∧
    ((hinting true [1]).die 0).on[0] = false ∧ ((hinting true [1]).die 0).waking[0] = none ∧
    ((hinting true [1]).die 0).on[1] = false ∧ ((hinting true [1]).die 0).waking[1] = none := by decide +kernel

theorem test_down_hint_performed : (hinting false [1]).focus.role = .perform ∧ (hinting false [1]).prog.part ≠ [] := by
  decide +kernel

theorem test_repair_events : (unit bare (.correctedRewrite 0)).focus.event = some (.correctedRewrite 0) ∧
    (unit bare .repairWindow).focus.event = some .repairWindow ∧
    (unit bare (.laneReplacementEnd 0 3 7)).focus.event = some (.laneReplacementEnd 0 3 7) ∧
    (unit bare (.talonReplacementEnd 0 0 5)).focus.event = some (.talonReplacementEnd 0 0 5) := by decide +kernel

theorem test_lane_replacement :
    let s := unit (bare.modSlice 0 0 fun x => { x with spares := x.spares.put 5 7 }) (.laneReplacement 0 0 5 0)
    s.focus.event = some (.laneReplacement 0 0 5 0) ∧ (s.slice 0 0).condemned = none ∧ (s.slice 0 0).spares.get 0 5 < 8 ∧
    s.bankInUse 0 0 (fun b => busGroup 1 b == 5 / 8) = false := by decide +kernel

theorem test_talon_replacement : let s := unit bare (.talonReplacement 0 2 (keyTower 0 3 0))
    s.focus.event = some (.talonReplacement 0 2 (keyTower 0 3 0)) ∧ spaceOf (keyTower 0 3 0) = .tower 0 3 0 ∧
    (s.slice 0 2).condemned = none ∧ s.talonEmpty 0 2 = false ∧ s.latent = [] ∧
    (s.slice 0 2).held.get 0 (sliceBank 3 0) ≤ s.now ∧ (2 : Fin 4) ≠ 3 ∧
    s.bankInUse 0 2 (· == sliceBank 3 0) = false := by decide +kernel

/-- The state in which slice 1 of column 0 is condemned and at its recovery point. -/
def retiring (f : State → State) : State :=
  unit ((f bare).modSlice 0 0 fun x => { x with condemned := some 0 }) (.sliceRetired 0 0)

theorem test_slice_retired : (retiring id).focus.event = some (.sliceRetired 0 0) ∧
    ((retiring id).slice 0 0).condemned.isSome = true ∧ ((retiring id).slice 0 0).retired = false ∧
    (retiring id).sliceInUse 0 0 = false ∧ (retiring id).allocCount (colDie 0) = 0 := by decide +kernel

theorem test_slice_in_use : let s := retiring fun _ => held fun m => { m with touched := [0] }
    s.focus.event = some (.sliceRetired 0 0) ∧ (s.slice 0 0).condemned.isSome = true ∧ (s.slice 0 0).retired = false ∧
    s.sliceInUse 0 0 = true := by decide +kernel

/-! ### The transform sequencer -/

/-- The state in which `x.trun` or `x.tok` is performed, at its start or once it is accepted. -/
def starting (part : List Nat) (tk0 : Nat) (popped : List Word) : State :=
  let s := performing 10 (.xTok 0 0) popped fun m => { m with tk := m.tk.set 0 tk0 }
  s.setProg { s.prog with part }

theorem test_token_and_program_start : let s := starting [] 0 [0x200000000001, 0, 0, 0, 0, 0]
    s.focus.role = .perform ∧ s.prog.part = [] := by decide +kernel

theorem test_program_entries : trunOk 0x12001 0 = true ∧ (0x12001 : Word).toNat / 2 ^ 42 % 2 ^ 11 = 0 ∧
    trunOk (-1) 0 = false := by decide +kernel

theorem test_token_performed : (starting [1] 254 []).prog.part ≠ [] ∧ (starting [1] 254 []).cur.tk[0] ≠ 255 ∧
    (starting [1] 255 []).prog.part ≠ [] ∧ (starting [1] 255 []).cur.tk[0] = 255 := by decide +kernel

/-- A program of the task at its instruction 3, over blocks of 64 elements of 4 bytes, padded to 32 bytes. -/
def aProgram : TsProg :=
  { tid := 1, core := 0, bank := 0, ctx := 1, wpc := 8, trap := false
    h := #v[0, 0x1000, 0, 0, 0, 0, 0, 1], c := #v[2, 1, 0, 0], geom := some (2, 64, 32), pc := 3, bar := 0, entry := 0
    loadLen := 0, image := 0, view := 0, wrBusy := 0, postBusy := 0, begun := true, resumed := false, faulted := false, accepted := 0 }

/-- The state in which it runs, f having made the image of its core's bank. -/
def transforming (f : Image → Image) (p : TsProg) : State := (held f).modCol 0 fun c => { c with tsRun := some p }

theorem test_program_runs : let s := transforming id aProgram
    (s.col s.focus.col).tsRun = some aProgram ∧ aProgram.pc < 1024 ∧ Claims.isTsControl (.tsLoop 0 (-3)) = true ∧
    (Claims.tsControl (.tsLoop 0 (-3)) aProgram).map (·.pc) = some 0 ∧
    (Claims.tsControl (.tsLoop 1 (-3)) aProgram).map (·.pc) = some 4 ∧
    Claims.tsControl (.tsJmp (-4)) aProgram = none ∧ Claims.tsControl (.tsSetb 2 0 0) aProgram = none ∧
    (s.img 0 0).holds 1 = true := by decide +kernel

theorem test_program_waits_for_a_token : (((transforming id aProgram).img 0 0).tk[3] = 0) ∧
    ((transforming (fun m => { m with tk := m.tk.set 3 1 }) aProgram).img 0 0).tk[3] ≠ 0 := by decide +kernel

theorem test_program_posts : ((transforming id aProgram).img 0 0).full 1 13 = false ∧
    ((transforming (fun m => m.setQueue 1 0 (List.replicate 8 0)) aProgram).img 0 0).full 1 0 = true := by decide +kernel

theorem test_program_fences : let s := transforming id { aProgram with wrBusy := 1, postBusy := 1 }
    aProgram.wrBusy ≤ (transforming id aProgram).now ∧ aProgram.postBusy ≤ (transforming id aProgram).now ∧
    (s.col s.focus.col).tsRun = some { aProgram with wrBusy := 1, postBusy := 1 } ∧ s.now < 1 := by decide +kernel

theorem test_program_moves_a_block : let s := transforming id aProgram
    coreCol aProgram.core = s.focus.col ∧ s.latent = [] ∧ s.poison = [] ∧ aProgram.geom = some (2, 64, 32) ∧
    (0 : Fin 8) ≠ 1 ∧
    Claims.tsPlaces s aProgram aProgram.h[0] aProgram.h[1] 32 256 32 (keyTower 0 1 0) (keyL0 0 0x1000) ∧
    Claims.tsPlaces s aProgram aProgram.h[1] aProgram.h[0] 32 256 32 (keyTower 0 1 0x1000) (keyL0 0 0) := by
  unfold Claims.tsPlaces
  decide +kernel

theorem test_program_moves_lines : let s := transforming id aProgram
    1 ≤ (64 : Fin 524288).val ∧ (64 : Fin 524288).val ≤ 64 ∧
    Claims.tsPlaces s aProgram aProgram.h[0] aProgram.h[1] (256 * 64) (256 * 64) 256 (keyTower 0 1 0) (keyL0 0 0x1000) ∧
    Claims.tsPlaces s aProgram aProgram.h[1] aProgram.h[0] (256 * 64) (256 * 64) 256 (keyTower 0 1 0x1000) (keyL0 0 0) := by
  unfold Claims.tsPlaces
  decide +kernel

/-- Six elements of four bytes are all that 32 bytes hold beside the mask of 64. -/
theorem test_compression : let elem : Nat → Nat := fun k => if k < 6 then 256 ^ 4 - 1 else 0
    2 ≤ 2 ∧ 64 ∈ [64, 128, 256] ∧ 32 % 32 = 0 ∧ max 32 (64 / 8) ≤ 32 ∧ 32 ≤ 64 / 8 + 64 * 2 ^ 2 ∧
    (∀ k, elem k < 256 ^ 2 ^ 2) ∧ ((List.range 64).filter fun k => elem k != 0).length ≤ (32 - 64 / 8) / 2 ^ 2 := by
  refine ⟨by decide, by decide, by decide, by decide, by decide, fun k => ?_, by decide +kernel⟩
  dsimp only
  split <;> decide

theorem test_program_turn :
    let s := unit (bare.modCol 0 fun c => { c with tsWait := [aProgram] }) (.tsProgramTurn 0)
    s.focus.event = some (.tsProgramTurn 0) ∧ (s.col 0).tsRun = none ∧ (s.col 0).tsWait = aProgram :: [] ∧
    aProgram.loadLen = 0 ∧ aProgram.resumed = false ∧ s.poison = [] ∧ s.latent = [] ∧
    let p := { aProgram with loadLen := 3, image := columnAddr 1 0 }
    (unit (bare.modCol 0 fun c => { c with tsWait := [p] }) (.tsProgramTurn 0)).focus.event = some (.tsProgramTurn 0) ∧
    0 < p.loadLen ∧ locOf p.core p.image = some (ownLoc 1 0) ∧ p.resumed = false := by decide +kernel

theorem test_program_end : (unit bare (.tsProgramEnd 31)).focus.event = some (.tsProgramEnd 31) := by decide +kernel

/-- The state in which a part of a TS operation is due, its reads of line l as given. -/
def tsPart (w : TsWork) (l : Nat) (x : TsPart) : State :=
  let o : TsOp := { id := 0, prog := aProgram, work := w, left := [l], lines := [], due := 26, span := 1, post := some 8 }
  unit (bare.modCol 0 fun c => { c with tsRun := some aProgram, tsOps := [o] })
    (.tsDataPosting { col := 0, tid := 1, core := 0, ctx := .cm, pc := 3, part := x })

/-- What TransformLinesAreReadAndWritten asks of every state. -/
def tsReady (s : State) (x : TsPart) : Bool :=
  decide (s.focus.event = some (.tsDataPosting { col := 0, tid := 1, core := 0, ctx := .cm, pc := 3, part := x })) &&
    s.poison.isEmpty && s.latent.isEmpty && Memory.wf s.mem

/-- The line that is granted is the last one of the operation. -/
def tsLast (w : TsWork) (l : Nat) : Bool :=
  let s := tsPart w l (.got 0 l)
  tsReady s (.got 0 l) && (match (s.col 0).tsOps.find? fun y => y.id == 0 with
    | some o => decide (o.left = [l]) && decide (o.work = w)
    | none => false)

theorem test_program_reads_its_last_line :
    let k1 := keyTower 0 1 0
    let k0 := keyL0 0 0
    tsLast (.move [(k1 / 256, k0 / 256)]) (k1 / 256) = true ∧ tsLast (.expand k1 k0 4 64 32) (k1 / 256) = true ∧
    tsLast (.compress 2 k1 k0 4 64 32) (k0 / 256) = true ∧
    let s := tsPart (.compress 2 k1 k0 4 64 32) (k0 / 256) (.got 0 (k0 / 256))
    (s.col 0).tsRun = some aProgram ∧ aProgram.tid = 1 ∧ ixCtx aProgram.ctx = .cm := by decide +kernel

theorem test_program_writes :
    let cells : List (Nat × Byte × Bool) := [(keyL0 0 0, 1, false), (keyTower 0 1 0, 2, false)]
    let s := tsPart (.move []) 0 (.write cells)
    tsReady s (.write cells) = true ∧ (∀ y ∈ cells, s.busyUntil (y.1 / 256 * 256) ≤ s.now) ∧
    lineHome (keyL0 0 0 / 256) = .l0 0 ∧ lineHome (keyTower 0 1 0 / 256) = .slice 0 0 ∧
    tsReady (tsPart (.move []) 0 (.put cells)) (.put cells) = true ∧ (cells.map (·.1)).Nodup ∧
    ∀ y ∈ cells, s.awayPkg y.1 = none := by decide +kernel

theorem test_program_counts : let s := tsPart (.move []) 0 (.post aBarrier 8)
    tsReady s (.post aBarrier 8) = true ∧ nameKind aBarrier = 1 ∧ namePkg aBarrier = s.pkg.num := by decide +kernel

/-! ### Loops and schedules -/

/-- A loop table of 4 × 1 × 1 cells with PERMITS 3 and IQMASK 2, its coverage map at offset 4096 of layer 1. -/
def aTable : BitVec 512 :=
  BitVec.ofNat 512 (4 + 2 ^ 16 + 2 ^ 32 + 3 * 2 ^ 104 + 2 * 2 ^ 112 + (columnAddr 1 4096).toNat * 2 ^ 192)

/-- An LP that deals it, one tile of two cells left and one permit held. -/
def aLp : Lp := { Lp.reset with
  table := aTable, st := 1, permits := 1, walk := [{ box := { lo := [0, 0, 0], cnt := [2, 1, 1] }, outer := 0, pos := [0] }] }

/-- The state in which a LOOP word is performed with an LP and popped entries. -/
def looping (l : Lp) (popped : List Word) (i : Instr) : State := performing 11 i popped fun m => { m with lp := l }

theorem test_loop_words_answer : let s := looping { aLp with permits := 2 } [5] (.lpDone 0)
    s.focus.role = .perform ∧
    Claims.loopAnswer (.lpDone 0) s.cur.lp (s.popped 0) = some ({ s.cur.lp with permits := 3 }, none) ∧
    Claims.loopAnswer (.lpPos 0 0 true 3) s.cur.lp (s.popped 0) = some (s.cur.lp, some (3, [0])) ∧
    (Claims.queueAt s 3).length + [(0 : Word)].length ≤ Claims.depth 3 := by decide +kernel

/-- The state in which something of the agenda is due. -/
def duing (s : State) (a : Act) : State := { s with agenda := [⟨0, 0, a⟩] }

theorem test_pushes_are_due : let s := duing (held id) (.bank 0 0 .push)
    s.agenda = ⟨0, 0, .bank 0 0 .push⟩ :: [] ∧ 0 ≤ s.now := by decide +kernel

/-- An image whose head word of LOOP for q3 holds its answer, with n entries in that queue. -/
def ready (n : Nat) : Image :=
  let m := (performing 11 (.lpStat 0 true 3) [] id).cur
  (m.modEq 11 1 fun e => { e with cur := e.cur.map fun k => { k with answer := some [7] } }).setQueue 1 3
    (List.replicate n 0)

theorem test_answer_is_ready : (((ready 7).eqAt 11 1).cur.map fun k => (k.waiting, k.answer)) = some (false, some [7]) ∧
    ((ready 7).eqAt 11 1).words.length = 1 ∧ pushOf (.lpStat 0 true 3) = some 3 ∧
    ((ready 7).queue 1 3).length + [(7 : Word)].length ≤ Claims.depth 3 ∧ (ready 7).holds 1 = true ∧
    Claims.depth 3 ≤ ((ready 8).queue 1 3).length ∧ (ready 8).queue 1 3 ≠ [] := by decide +kernel

theorem test_loop_words_misused : let s := looping { aLp with permits := 3 } [6] (.lpDone 0)
    s.focus.role = .perform ∧ s.curQ.words.head?.map (·.tid) = some s.cur.tid ∧
    Claims.loopMisuse (.lpDone 0) s.cur.lp (s.popped 0) = some 0x0404 ∧
    Claims.loopMisuse (.lpAddp 0 0) s.cur.lp 33 = some 0x0307 ∧ Claims.loopMisuse (.lpAddp 0 0) s.cur.lp 1 = some 0x0404 ∧
    Claims.loopMisuse (.lpPos 0 0 true 3) s.cur.lp (s.popped 0) = some 0x0307 := by decide +kernel

theorem test_loop_table_loads : let s := looping Lp.reset [columnAddr 1 64] (.lpLdtab 0 0)
    s.focus.role = .perform ∧ Claims.ownPlace s (s.popped 0) 0 1 64 64 (ownLoc 1 64) ∧ s.latent = [] ∧ s.poison = [] ∧
    s.cur.lp.st = 0 ∧ s.cur.lp.loadAt = none := by
  unfold Claims.ownPlace
  decide +kernel

theorem test_second_loop_table : let s := looping aLp [columnAddr 1 64] (.lpLdtab 0 0)
    s.focus.role = .perform ∧ s.cur.lp.st ≠ 0 ∧ s.curQ.words.head?.map (·.tid) = some s.cur.tid := by decide +kernel

theorem test_schedule_words_ask : let s := looping aLp [columnAddr 1 64] (.lpSchedw 0 0)
    s.focus.role = .perform ∧ isGeneric (s.popped 0) = true ∧ locOf s.focus.core (s.popped 0) = some (ownLoc 1 64) ∧
    (ownLoc 1 64).off % 8 = 0 ∧ s.capFault (ownLoc 1 64) 64 s.view = none := by decide +kernel

theorem test_coverage_words_ask : let s := looping aLp [2 ^ 42 + 2 ^ 49 + 2 ^ 56] (.lpCov 0 0 true 3)
    s.focus.role = .perform ∧ s.ownMap = some (tableOf aTable, keyTower 0 1 4096, 0) ∧
    (s.popped 0).getLsbD 63 = false ∧ (boxOf (s.popped 0)).cnt.contains 0 = false := by decide +kernel

theorem test_coverage_read_asks : let s := looping aLp [0] (.lpCovrd 0 0 true 3)
    s.focus.role = .perform ∧ (s.popped 0).toNat % 8 = 0 ∧
    8 * (s.popped 0).toNat < (tableOf aTable).cells 0 * (tableOf aTable).cells 1 * (tableOf aTable).cells 2 ∧
    s.ownMap = some (tableOf aTable, keyTower 0 1 4096, 0) := by decide +kernel

theorem test_no_coverage_map : let s := looping Lp.reset [0] (.lpCov 0 0 false 0)
    s.focus.role = .perform ∧ s.ownMap = none ∧ s.curQ.words.head?.map (·.tid) = some s.cur.tid := by decide +kernel

/-- The state in which the LP of the task deals, its block as given. -/
def dealingAt (l : Lp) (blk : List Word) : State :=
  unit (held fun m => { m with lp := l, task := some { aTask with blk } }) (.lpDealRecord 0 0)

/-- The launch block with a schedule block at offset 256 of layer 1. -/
def scheduled : List Word := aBlock.set 5 (columnAddr 1 256)

theorem test_remnant_dealt :
    let s := dealingAt { aLp with remain := [1], tile := some { lo := [0, 0, 0], cnt := [2, 1, 1] } } aBlock
    let l := (s.img 0 0).lp
    s.focus.event = some (.lpDealRecord 0 0) ∧ l.st = 1 ∧ l.inFlight = false ∧ l.refused = false ∧ l.remain ≠ [] ∧
    l.tile = some { lo := [0, 0, 0], cnt := [2, 1, 1] } ∧ 0 < l.permits ∧
    ∀ c : Fin 3, Claims.iqNamed l c = true → ((s.img 0 0).queue c 15).length < 32 := by decide +kernel

theorem test_remnant_waits : let s := dealingAt { aLp with remain := [1], permits := 0 } aBlock
    s.focus.event = some (.lpDealRecord 0 0) ∧ (s.img 0 0).lp.st = 1 ∧ (s.img 0 0).lp.inFlight = false ∧
    (s.img 0 0).lp.refused = false ∧ (s.img 0 0).lp.remain ≠ [] ∧ (s.img 0 0).lp.permits = 0 := by decide +kernel

theorem test_tile_dealt : let s := dealingAt aLp aBlock
    let l := (s.img 0 0).lp
    s.focus.event = some (.lpDealRecord 0 0) ∧ l.st = 1 ∧ l.inFlight = false ∧ l.refused = false ∧ l.remain = [] ∧
    l.atBoundary = false ∧ l.walk = aLp.walk ∧ 0 < l.permits ∧ blkSched (s.img 0 0).blk = 0 ∧
    ∀ c : Fin 3, Claims.iqNamed l c = true → ((s.img 0 0).queue c 15).length < 32 := by decide +kernel

theorem test_tile_claimed : let s := dealingAt aLp scheduled
    let l := (s.img 0 0).lp
    l.remain = [] ∧ l.atBoundary = false ∧ 0 < l.permits ∧
    (s.img 0 0).home 0 = some (BitVec.ofNat 64 (keyTower 0 1 256), 0) ∧
    locOf 0 (tableOf l.table).covmap = some (ownLoc 1 4096) ∧
    s.capFault (ownLoc 1 4096) 1 (s.img 0 0).startedAt = none := by decide +kernel

theorem test_walk_over : let s := dealingAt { aLp with walk := [] } aBlock
    s.focus.event = some (.lpDealRecord 0 0) ∧ (s.img 0 0).lp.st = 1 ∧ (s.img 0 0).lp.inFlight = false ∧
    (s.img 0 0).lp.refused = false ∧ (s.img 0 0).lp.remain = [] ∧ (s.img 0 0).lp.walk = [] := by decide +kernel

theorem test_boundary_point : let s := dealingAt { aLp with notice := 1 } scheduled
    s.focus.event = some (.lpDealRecord 0 0) ∧ (s.img 0 0).lp.inFlight = false ∧ (s.img 0 0).lp.refused = false ∧
    (s.img 0 0).lp.st = 1 ∧ (s.img 0 0).lp.atBoundary = true := by decide +kernel

theorem test_end_record : let s := unit (held fun m => { m with lp := { aLp with st := 3, walk := [] } }) (.endRecordPush 0 0)
    s.focus.event = some (.endRecordPush 0 0) ∧ (s.img 0 0).lp.st = 3 ∧ blkSched (s.img 0 0).blk = 0 ∧
    ∀ c : Fin 3, Claims.iqNamed (s.img 0 0).lp c = true → ((s.img 0 0).queue c 15).length < 32 := by decide +kernel

/-- The state in which a notice reaches the task's LP. -/
def noticed (e : Event) : State := unit (held fun m => { m with lp := aLp }) e

theorem test_notices : (noticed (.claimAnswer 1 { lo := [0, 0, 0], cnt := [2, 1, 1] } [0])).bankOf 1 = some (0, 0) ∧
    (noticed (.registrationAnswer 1 true [0, 0, 0, 0])).bankOf 1 = some (0, 0) ∧
    (noticed (.registrationAnswer 1 false [])).bankOf 1 = some (0, 0) ∧ (noticed (.pendingNotice 1)).bankOf 1 = some (0, 0) ∧
    (noticed (.commitNotice 1 [0, 0, 0, 0])).bankOf 1 = some (0, 0) ∧
    (noticed (.completionNotice 1)).bankOf 1 = some (0, 0) := by decide +kernel

/-- The key of a schedule block at offset 256 of layer 1 of column 0. -/
def aSched : Word := BitVec.ofNat 64 (keyTower 0 1 256)

/-- The entry of a kernel with one member. -/
def anEntry (pending : Bool) : CovEntry :=
  { sched := keyTower 0 1 256, groups := 1, table := aTable, members := [⟨1, 0, false, false, false⟩], pending }

/-- The state in which something reaches the coverage unit of column 0 that holds these entries. -/
def covering (l : List CovEntry) (e : Event) : State :=
  unit ((held fun m => { m with lp := aLp }).modCol 0 fun c => { c with cov := l }) e

theorem test_claim : let b : Box := { lo := [0, 0, 0], cnt := [2, 1, 1] }
    let s := covering [anEntry false] (.coverageClaim aSched 1 b)
    Memory.wf s.mem = true ∧ s.latent = [] ∧ s.poison = [] ∧ s.focus.event = some (.coverageClaim aSched 1 b) ∧
    (s.col (schedCol aSched)).covAt aSched = some (anEntry false) ∧
    mapKey (colCore (schedCol aSched) 0) (tableOf (anEntry false).table) = some (keyTower 0 1 4096) := by decide +kernel

theorem test_registration_joins : let s := covering [anEntry false] (.coverageRegistration aSched 1)
    s.focus.event = some (.coverageRegistration aSched 1) ∧ (s.taskImg 1).isSome = true ∧
    (s.col (schedCol aSched)).covRefused.contains (s.launchKey aTask) = false ∧
    (s.col (schedCol aSched)).covAt aSched = some (anEntry false) := by decide +kernel

theorem test_registration_allocates : let s := covering [] (.coverageRegistration aSched 1)
    s.focus.event = some (.coverageRegistration aSched 1) ∧ (s.taskImg 1).map (·.task) = some (some aTask) ∧
    (s.col (schedCol aSched)).covAt aSched = none ∧ (s.col (schedCol aSched)).cov.length < 16 ∧
    schedFree (s.readSched aSched false) = true ∧
    schedFits (tableOf aTable) (s.readSched aSched false) (s.readSched aSched false) = true ∧
    (s.readSched aSched true).getLsbD 112 = false := by decide +kernel

theorem test_registration_waits :
    let s := covering (List.replicate 16 { anEntry false with sched := 0 }) (.coverageRegistration aSched 1)
    s.focus.event = some (.coverageRegistration aSched 1) ∧ (s.taskImg 1).isSome = true ∧
    (s.col (schedCol aSched)).covAt aSched = none ∧ 16 ≤ (s.col (schedCol aSched)).cov.length := by decide +kernel

theorem test_rewrite : let a : Asker := { tid := 1, q := 11, ctx := .cm, push := none, mpc := 1 }
    let s := covering [anEntry false] (.rewriteWrite aSched [0, 0, 0, 0] a)
    s.focus.event = some (.rewriteWrite aSched [0, 0, 0, 0] a) ∧ schedFree (wordsSched [0, 0, 0, 0]) = true ∧
    schedFits (tableOf aTable) (wordsSched [0, 0, 0, 0]) (s.readSched aSched false) = true ∧
    schedFree (wordsSched [0, 0, 1, 0]) = false := by decide +kernel

theorem test_commit : let s := covering [anEntry true] (.rewriteCommit aSched)
    s.focus.event = some (.rewriteCommit aSched) ∧ (s.col (schedCol aSched)).covAt aSched = some (anEntry true) ∧
    (anEntry true).pending = true := by decide +kernel

theorem test_dealing_complete : let s := covering [anEntry false] (.dealingComplete aSched)
    s.focus.event = some (.dealingComplete aSched) ∧ (s.col (schedCol aSched)).covAt aSched = some (anEntry false) ∧
    (anEntry false).pending = false := by decide +kernel

/-- The state in which the unit of column 0 is served a line, or is done, with an operation of two lines or of one. -/
def covJob (lines : List Nat) (x : CovMsg) : State :=
  (duing (held id) (.cov 0 x)).modCol 0 fun c => { c with
    covJobs := [{ lines, tail := 4, outs := [(some 1, rankRead, .pendingNotice 1)] }] }

theorem test_coverage_unit_is_served : (covJob [5] (.served 5)).agenda = [⟨0, 0, .cov 0 (.served 5)⟩] ∧
    ((covJob [5] (.served 5)).col 0).covJobs.map (·.lines) = [[5]] ∧
    (covJob [5, 6] (.served 5)).agenda = [⟨0, 0, .cov 0 (.served 5)⟩] ∧
    ((covJob [5, 6] (.served 5)).col 0).covJobs.map (·.lines) = [[5, 6]] ∧ 5 ∈ [5, 6] ∧
    (covJob [] .finished).agenda = [⟨0, 0, .cov 0 .finished⟩] := by decide +kernel

/-! ### Synchronisation words -/

/-- The state in which SYNC word i is performed with popped entries. -/
def syncing (i : Instr) (popped : List Word) : State := performing 12 i popped id

/-- The name of the future at offset 8 of layer 1 of the core's own column. -/
def aFuture : Word := BitVec.ofNat 64 (2 + 2 ^ 14)

/-- The launch block of a task with a trap entry. -/
def trapping : List Word := aBlock.set 2 (BitVec.ofNat 64 (1 + 32 * 2 ^ 32))

/-- The state in which a word is performed of a task that takes events, its context 2 holding n of them. -/
def eventful (n : Nat) : State := (syncing (.sUev 0 2 7) []).modCur fun m =>
  ({ m with task := some { aTask with blk := trapping } } : Image).modCtx 2 fun c =>
    { c with ended := false, events := List.replicate n ⟨1, 0⟩ }

theorem test_sync_word_at_start : (syncing (.sHalt 0) []).focus.role = .perform ∧
    ((syncing (.sYield 0) []).core 0).hand = [] ∧ (syncing (.sQret 0 0) [0]).weight = 0 := by decide +kernel

theorem test_event_for_a_context : (2 : Fin 4).val < 3 ∧ ((eventful 7).cur.ctx[2]).ended = false ∧
    ((eventful 7).bank 0 0).trapEntry ≠ 0 ∧ ((eventful 7).cur.ctx[2]).events.length < 8 ∧
    8 ≤ ((eventful 8).cur.ctx[2]).events.length ∧ ((syncing (.sUev 0 2 7) []).bank 0 0).trapEntry = 0 := by decide +kernel

theorem test_yield_to_a_hand :
    let h : HandEntry := { slot := 1, group := 0, weight := 0, replays := 0, cls := 2, tid := none, ready := 0 }
    let s := (syncing (.sYield 0) []).modCore 0 fun k => { k with hand := [h] }
    (s.core 0).hand = h :: [] ∧ s.cur.task = some aTask ∧ aTask.cls ≤ h.cls := by decide +kernel

theorem test_split_without_weight : let s := syncing (.sQsplit 0 0) [2 ^ 29 - 1, 2 ^ 31]
    s.weight = 0 ∧ (s.popped 0).toNat < 2 ^ 29 ∧ 1 ≤ (s.popped 1).toNat ∧ (s.popped 1).toNat ≤ 2 ^ 31 := by decide +kernel

theorem test_barrier_words_ask : let s := syncing (.sArm 0 0 true) [aBarrier, 2 ^ 33 - 1, aFuture]
    s.focus.role = .perform ∧ Claims.popsBarrier (.sArm 0 0 true) = true ∧ barNameFault (s.popped 0) = none ∧
    namePkg (s.popped 0) = s.pkg.num ∧
    Claims.barrierOp (.sArm 0 0 true) s = some (.arm (-1) false true aFuture (some (s.asker none))) := by decide +kernel

theorem test_barrier_count_asks : let s := syncing (.sSig 0 0) [aBarrier, 2 ^ 32 - 1]
    s.focus.role = .perform ∧ barNameFault (s.popped 0) = none ∧ namePkg (s.popped 0) = s.pkg.num ∧
    Claims.barrierOp (.sSig 0 0) s = some (.count (2 ^ 32 - 1) (some (s.asker none))) ∧
    nameDie (s.popped 0) = coreDie s.focus.core := by decide +kernel

theorem test_barrier_name_of_another_kind : let s := syncing (.sDisarm 0 0) [aFuture]
    s.focus.role = .perform ∧ Claims.popsBarrier (.sDisarm 0 0) = true ∧ (s.popped 0).toNat % 4 ≠ 1 ∧
    s.curQ.words.head?.map (·.tid) = some s.cur.tid := by decide +kernel

theorem test_ninth_notification : let s := (syncing (.sWaitn 0 0) [aBarrier]).modCx fun c => { c with notes := 8 }
    s.focus.role = .perform ∧ barNameFault (s.popped 0) = none ∧ 8 ≤ s.cx.notes := by decide +kernel

theorem test_future_words_ask : let s := syncing (.sFres 0 0) [aFuture, 2 ^ 32 - 1]
    s.focus.role = .perform ∧
    Claims.futureAsk (.sFres 0 0) s = some (aFuture, 0, .reach s.now aFuture (.resolve (-1) (some (s.asker none)))) ∧
    futNameFault aFuture = none ∧ namePkg aFuture = s.pkg.num ∧ nameDie aFuture = coreDie s.focus.core := by decide +kernel

theorem test_future_join_asks : let s := syncing (.sFjoin 0 0) [3 + 2 ^ 19, aFuture]
    s.focus.role = .perform ∧
    Claims.futureAsk (.sFjoin 0 0) s = some (aFuture, 1, .join s.now (3 + 2 ^ 19) aFuture (s.asker none)) ∧
    futNameFault aFuture = none := by decide +kernel

theorem test_future_name_of_another_kind : let s := syncing (.sFnew 0 0) [aBarrier]
    s.focus.role = .perform ∧ Claims.futureOf (.sFnew 0 0) s = some aBarrier ∧ aBarrier.toNat % 4 ≠ 2 ∧
    s.curQ.words.head?.map (·.tid) = some s.cur.tid := by decide +kernel

theorem test_future_out_of_reach : let n := aFuture + 4
    let s := syncing (.sFnew 0 0) [n]
    s.focus.role = .perform ∧ Claims.futureOf (.sFnew 0 0) s = some n ∧ futNameFault n = none ∧
    namePkg n ≠ s.pkg.num ∧ s.reaches (namePkg n) = false ∧ s.curQ.words.head?.map (·.tid) = some s.cur.tid := by
  decide +kernel

theorem test_scope_words_ask : let s := syncing (.sWaitq 0 true 3 15) []
    s.focus.role = .perform ∧ Claims.scopeAsk (.sWaitq 0 true 3 15) s = some (.waitq 15 (s.asker (some 3))) := by
  decide +kernel

theorem test_launch_asks : let s := syncing (.sLaunch 0 0 false 0) [columnAddr 1 128]
    s.focus.role = .perform ∧ s.latent = [] ∧ Claims.ownPlace s (s.popped 0) 0 1 128 128 (ownLoc 1 128) := by
  unfold Claims.ownPlace
  decide +kernel

theorem test_second_exit : let s := (syncing (.sExit 0 0 0) []).modCur fun m => { m with exitRun := true }
    s.focus.role = .perform ∧ s.latent = [] ∧ s.cur.exitRun = true ∧ s.prog.part = [] ∧
    s.curQ.words.head?.map (·.tid) = some s.cur.tid := by decide +kernel

theorem test_exit_without_successors : let s := syncing (.sExit 0 0 0) []
    s.focus.role = .perform ∧ s.latent = [] ∧ s.cur.exitRun = false ∧ s.prog.part = [] ∧ s.prog.mpc = 0 ∧
    s.cur.task = some aTask := by decide +kernel

/-- An `s.exit` with one successor of a task in scope 0 of its die, of weight 1. -/
def exiting : State := (syncing (.sExit 0 0 1) [columnAddr 1 128]).modCur fun m =>
  { m with task := some { aTask with scope := some ⟨0, 0, 0⟩ } }

theorem test_exit_with_a_successor : ∃ l, exiting.focus.role = .perform ∧ exiting.latent = [] ∧
    exiting.cur.exitRun = false ∧ exiting.prog.part = [] ∧ exiting.prog.mpc = 0 ∧
    exiting.cur.task = some { aTask with scope := some ⟨0, 0, 0⟩ } ∧ exiting.prog.popped.length = 1 ∧
    exiting.exitBlocks exiting.prog.popped = .ok l ∧ 1 ≤ aTask.weight :=
  ⟨_, by decide +kernel, by decide +kernel, by decide +kernel, by decide +kernel, by decide +kernel, by decide +kernel,
    by decide +kernel, rfl, by decide +kernel⟩

theorem test_exit_returns_its_weight : let s := (syncing (.sExit 0 0 0) []).modCur fun m =>
      { m with task := some { aTask with scope := some ⟨0, 0, 0⟩ } }
    s.focus.role = .perform ∧ s.latent = [] ∧ s.cur.exitRun = false ∧ s.prog.part = [] ∧ s.prog.mpc = 0 ∧
    (s.cur.task.map fun t => (t.scope.map (·.pkg), t.weight)) = some (some s.pkg.num, 1) := by decide +kernel

theorem test_phase_starts : let s := syncing (.sPhase 0 0 true) [aBarrier]
    s.focus.role = .perform ∧ s.latent = [] ∧ barNameFault (s.popped 0) = none := by decide +kernel

/-- The word that waits for an answer. -/
def waiter (push : Option (Fin 16)) : Asker := { tid := 1, q := 12, ctx := .cm, push, mpc := 1 }

/-- The state in which an event arrives for word i, which waits. -/
def answeredWith (i : Instr) (e : Event) : State :=
  unit ((syncing i []).modQ fun q => { q with cur := q.cur.map fun k => { k with waiting := true, mpc := 1 } }) e

/-- What AnswersAndEventsReachTheirCore asks of the state in which word i is answered. -/
def answers (s : State) (a : Asker) (i : Instr) (vals : List Word) (st : BankStatus) : Bool :=
  let e := (s.img 0 0).eqAt 12 1
  decide (bankWithWord s.cores a.tid a.q (ctxIx a.ctx) = some (0, 0)) && decide (a.via = none) &&
    decide (e.words.head?.map (·.instr) = some i) && decide (e.words.head?.map (·.tid) = some (s.img 0 0).tid) &&
    e.cur.isSome && decide (s.focus.event = some (.syncAnswer a vals none)) && decide ((s.bank 0 0).status = st)

theorem test_answer :
    answers (answeredWith (.sWait 0 0 true 3) (.syncAnswer (waiter (some 3)) [5] none)) (waiter (some 3))
      (.sWait 0 0 true 3) [5] .running = true ∧
    answers (answeredWith (.sDisarm 0 0) (.syncAnswer (waiter none) [] none)) (waiter none) (.sDisarm 0 0) [] .running =
      true := by decide +kernel

theorem test_answer_of_a_stopped_task :
    answers ((answeredWith (.sWait 0 0 true 3) (.syncAnswer (waiter (some 3)) [5] none)).modBank 0 0 fun b =>
      { b with status := .stopped }) (waiter (some 3)) (.sWait 0 0 true 3) [5] .stopped = true := by decide +kernel

theorem test_refusal : let s := answeredWith (.sWait 0 0 true 3) (.syncAnswer (waiter (some 3)) [] (some 0x0904))
    bankWithWord s.cores 1 12 1 = some (0, 0) ∧ (s.bank 0 0).status = .running ∧
    s.focus.event = some (.syncAnswer (waiter (some 3)) [] (some 0x0904)) ∧ reportOnly 0x0904 = false := by decide +kernel

theorem test_phase_answer :
    let x : PhaseWait := { named := false, name := 0, arrived := true, open? := none }
    let s := (answeredWith (.sPhase 0 0 false) (.syncAnswer (waiter none) [] none)).modImg 0 0 fun m =>
      { m with phase := some x }
    bankWithWord s.cores 1 12 1 = some (0, 0) ∧ (s.bank 0 0).status = .running ∧
    ((s.img 0 0).eqAt 12 1).words.head?.map (·.instr) = some (.sPhase 0 0 false) ∧ (s.img 0 0).phase = some x ∧
    s.focus.event = some (.syncAnswer (waiter none) [] none) ∧ (waiter none).q = 12 := by decide +kernel

theorem test_notification : let s := unit (eventful 7) (.notifyEventArrival 1 .st aBarrier)
    s.focus.event = some (.notifyEventArrival 1 .st aBarrier) ∧ s.bankOf 1 = some (0, 0) ∧
    ((s.img 0 0).ctx[(ctxIx .st).val]).ended = false ∧ (s.bank 0 0).trapEntry ≠ 0 ∧
    ((s.img 0 0).ctx[(ctxIx .st).val]).events.length < 8 := by decide +kernel

theorem test_notification_discarded : let s := unit (held id) (.notifyEventArrival 1 .st aBarrier)
    s.focus.event = some (.notifyEventArrival 1 .st aBarrier) ∧ s.bankOf 1 = some (0, 0) ∧
    ((s.img 0 0).ctx[(ctxIx .st).val]).ended = true := by decide +kernel

theorem test_phase_boundary :
    let x : PhaseWait := { named := true, name := aBarrier, arrived := true, open? := none }
    let s := unit ((syncing (.sPhase 0 0 true) [aBarrier]).modCur fun m => { m with phase := some x }) (.phaseBoundary [1])
    s.focus.event = some (.phaseBoundary [1]) ∧ s.bankOf 1 = some (0, 0) ∧ (s.img 0 0).phaseCtx = some 1 ∧
    (s.img 0 0).phase = some x := by decide +kernel

/-! ### Barrier units -/

theorem test_barrier_operation : (Claims.opEvent aBarrier (.count 3 none)).row = .barrierCount ∧
    let s := unit bare (Claims.opEvent aBarrier (.count 3 none))
    s.focus.event = some (Claims.opEvent aBarrier (.count 3 none)) ∧ (s.col (nameColIx aBarrier)).powered = true := by
  decide +kernel

/-- The last count of an armed barrier of target 3, for which a word of the task waits. -/
theorem test_barrier_fires :
    let b : Barrier := { Barrier.reset with st := .armed, target := 3, waiters := [.wait (waiter none)] }
    let s := unit ((held id).setBar 0 1023 b) (.barrierCount aBarrier 3 none)
    s.focus.event = some (Claims.opEvent aBarrier (.count 3 none)) ∧ (s.col 0).powered = true ∧ s.bar 0 1023 = b ∧
    b.stale = false ∧ b.st = .armed ∧ 0 < 3 ∧ b.got.toNat + 3 = b.target.toNat ∧ .wait (waiter none) ∈ b.waiters ∧
    (waiter none).q = 12 ∧ s.bankOf 1 = some (0, 0) := by decide +kernel

theorem test_barrier_of_a_powered_down_column :
    let s := unit (bare.modCol 0 fun c => { c with powered := false }) (.barrierDisarm aBarrier none)
    s.focus.event = some (Claims.opEvent aBarrier (.disarm none)) ∧ (s.col (nameColIx aBarrier)).powered = false := by
  decide +kernel

theorem test_column_events : (unit bare (.columnPowerDown 31)).focus.event = some (.columnPowerDown 31) ∧
    (unit bare (.columnPowerUp 31)).focus.event = some (.columnPowerUp 31) ∧
    (unit bare (.columnReset 31)).focus.event = some (.columnReset 31) := by decide +kernel

/-! ### Starts of words, and words of no instruction -/

/-- The state in which word i of queue q starts, its queue register 3 holding two entries. -/
def startable (q : Fin 13) (i : Instr) (cur : Option Cur) : State :=
  unit (held fun m => ((words q 1 i m).modEq q 1 fun e => { e with cur }).setQueue 1 3 [7, 8]) (.engineWordStart 0 0 q .cm)

theorem test_word_starts_with_entries : let s := startable 1 (.vClamp 0 3 1 2) none
    s.focus.event = some (.engineWordStart 0 0 1 .cm) ∧
    ((s.img 0 0).eqAt 1 1).words.head?.map (·.instr) = some (.vClamp 0 3 1 2) ∧ ((s.img 0 0).eqAt 1 1).cur = none ∧
    (s.img 0 0).barred (.vClamp 0 3 1 2) = false ∧
    queueOperand (s.img 0 0).ts (.vClamp 0 3 1 2) = [(3, 2)] := by decide +kernel

theorem test_word_starts_without_entries : let s := startable 2 (.mClr 0 .f32 1) none
    ((s.img 0 0).eqAt 2 1).words.head?.map (·.instr) = some (.mClr 0 .f32 1) ∧ ((s.img 0 0).eqAt 2 1).cur = none ∧
    queueOperand (s.img 0 0).ts (.mClr 0 .f32 1) = [] := by decide +kernel

theorem test_barred_word_starts : let s := startable 1 (.vIota 0 3 .rd 1 false) none
    (regionOf (s.img 0 0).va[1]).ty = .f32 ∧
    let t := s.modImg 0 0 (regionsSet 4 7)
    t.focus.event = some (.engineWordStart 0 0 1 .cm) ∧
    ((t.img 0 0).eqAt 1 1).words.head?.map (·.instr) = some (.vIota 0 3 .rd 1 false) ∧
    ((t.img 0 0).eqAt 1 1).cur = none ∧ (t.img 0 0).barred (.vIota 0 3 .rd 1 false) = true := by decide +kernel

theorem test_word_starts_again : let s := startable 1 (.vClamp 0 3 1 2) (some (Cur.fresh 2 [1, 2]))
    ((s.img 0 0).eqAt 1 1).cur = some (Cur.fresh 2 [1, 2]) := by decide +kernel

/-- Words of no instruction at their issue: of CTRL slot 0x3E, and of VEC slot 0x3F, under p0 and under p1. -/
theorem test_unassigned_word_issues : (issuing id).focus.role = .issue ∧ (issuing id).p 0 = true ∧
    (issuing id).p (Fin.ofNat 16 ((word 1 0x3F 1 0).toNat / 2 ^ 19 % 16)) = false ∧ (word 0 0x3E 0 0).toNat < 2 ^ 29 ∧
    2 ^ 29 ≤ (word 1 0x3F 0 0).toNat ∧ queueOf (.unassignedWord (word 1 0x3F 0 0)) = 1 ∧
    Claims.inUse ((queuedBehind 1 14).cur.eqAt 1 (queuedBehind 1 14).focus.ctx) + 2 ≤ 16 := by decide +kernel

theorem test_unassigned_word_starts : let s := performing 1 (.unassignedWord (word 1 0x3F 0 0)) [] id
    s.focus.role = .perform ∧ s.curQ.words.head?.map (·.tid) = some s.cur.tid := by decide +kernel

theorem test_unassigned_transform_word : let s := transforming id aProgram
    s.focus.role = .unit ∧ (s.col s.focus.col).tsRun = some aProgram ∧ aProgram.pc < 1024 ∧ (s.img 0 0).holds 1 = true := by
  decide +kernel

/-! ### Dealers -/

/-- A runnable launch record of a block, of which nothing has been dealt. -/
def aRecord (b : List Word) : Record :=
  { seq := 0, blk := b, scope := none, compShare := 1, groupShare := 0, waits := [], runnable := true, runnableAt := 0
    next := 0, again := [], done := 0, arrived := [], failed := none, husk := false, reserved := none, ready := 0
    stuck := false, system := false }

/-- The state in which slot 0 of die 0 holds a record. -/
def recorded (r : Record) (e : Event) : State := unit (bare.setRecord 0 0 r) e

theorem test_block_enqueued : let e : Event := .launchEnqueue 0 aBlock .handler (some (2, some ⟨0, 0, 0⟩)) false
    let s := recorded (aRecord aBlock) e
    s.focus.event = some e ∧ (s.die 0).freeSlot = some 1 ∧ blkGroups aBlock + 1 ≤ 2 := by decide +kernel

theorem test_bad_block_refused : let e : Event := .launchEnqueue 0 [] (.launch (waiter none)) none true
    (unit bare e).focus.event = some e ∧ (unit bare e).blockBad 0 [] = true ∧ (waiter none).via = none := by decide +kernel

theorem test_launch_completes : let r := { aRecord (aBlock.set 7 aBarrier) with next := 1, done := 1 }
    let s := recorded r (.launchCompletion 0 0)
    s.focus.event = some (.launchCompletion 0 0) ∧ s.record 0 0 = some r ∧ r.runnable = true ∧ r.husk = false ∧
    r.stuck = false ∧ r.done = r.groups ∧ r.failed = none ∧ blkDoneNext r.blk = 0 ∧ aBarrier.toNat % 4 = 1 ∧
    s.completesLater 0 r = false ∧ namePkg (blkDoneBar r.blk) = s.pkg.num := by decide +kernel

/-- Its DONEBAR lies on die 1, and its scope is on die 2: the signal holds a unit. -/
theorem test_launch_completes_with_a_signal :
    let r := { aRecord (aBlock.set 7 (aBarrier + 2 ^ 8)) with next := 1, done := 1, compShare := 3, scope := some ⟨0, 2, 5⟩ }
    let s := recorded r (.launchCompletion 0 0)
    s.focus.event = some (.launchCompletion 0 0) ∧ s.record 0 0 = some r ∧ r.runnable = true ∧ r.husk = false ∧
    r.stuck = false ∧ r.done = r.groups ∧ r.failed = none ∧ blkDoneNext r.blk = 0 ∧ s.completesLater 0 r = false ∧
    namePkg (blkDoneBar r.blk) = s.pkg.num ∧ Claims.signalsAway 0 r = true := by decide +kernel

/-- A block whose DONENEXT lies at offset 128 of layer 1 of its own die's first column. -/
def chained : List Word := aBlock.set 6 (BitVec.ofNat 64 (15 * 2 ^ 60 + 2 * 2 ^ 56 + 2 ^ 31 + 128))

/-- The state in which that block is a block of one group, and the launch before it has found no slot. -/
def chainedNow : State :=
  let k := (ownLoc 1 128).key
  let put (t : State) (x : Word × Nat) : State := t.write (k + 8 * x.2) 8 x.1.toNat
  let t := (((aBlock.set 1 (64 + 2 ^ 56)).set 0 (BitVec.ofNat 64 (15 * 2 ^ 60 + 2 * 2 ^ 56 + 2 ^ 31))).zipIdx).foldl put bare
  unit (t.setRecord 0 0 { aRecord chained with next := 1, done := 1, stuck := true }) (.donenextDeferred 0 0)

theorem test_donenext_deferred : let s := chainedNow
    let r := { aRecord chained with next := 1, done := 1, stuck := true }
    let b := (List.range 16).map fun i => BitVec.ofNat 64 (s.read ((ownLoc 1 128).key + 8 * i) 8)
    s.focus.event = some (.donenextDeferred 0 0) ∧ s.record 0 0 = some r ∧ r.stuck = true ∧ r.failed = none ∧
    blkDoneNext r.blk ≠ 0 ∧ locOf (dieCore 0 0) (blkDoneNext r.blk) = some (ownLoc 1 128) ∧ s.latent = [] ∧ s.poison = [] ∧
    s.blockBad 0 b = false ∧ s.targetPkg b = s.pkg.num ∧ targetDie 0 b = 0 ∧ (s.die 0).freeSlot = some 1 ∧
    r.scope = none := by decide +kernel

theorem test_donenext_not_deferred : let s := recorded (aRecord chained) (.donenextDeferred 0 0)
    s.focus.event = some (.donenextDeferred 0 0) ∧ s.record 0 0 = some (aRecord chained) ∧ (aRecord chained).stuck = false := by
  decide +kernel

/-- A continuation that waits for a future. -/
def continuation : Record := { aRecord aBlock with
  runnable := false, waits := [{ name := aFuture, sat := none, link := 0xFFFFFFFF, listed := true }] }

theorem test_entry_satisfied : let s := recorded continuation (.entrySatisfaction 0 5 false)
    s.focus.event = some (.entrySatisfaction 0 5 false) ∧ Claims.refDie 0 = 0 ∧
    s.record 0 (Claims.refSlot 0) = some continuation ∧ continuation.husk = false ∧ continuation.runnable = false ∧
    Claims.refEntry 0 < continuation.waits.length := by decide +kernel

theorem test_entry_poisoned : let s := recorded continuation (.entrySatisfaction 0 5 true)
    s.focus.event = some (.entrySatisfaction 0 5 true) ∧ s.record 0 (Claims.refSlot 0) = some continuation ∧
    continuation.husk = false := by decide +kernel

/-- A scope of die 0, as given. -/
def withScope (x : Scope) (e : Event) : State := unit (bare.modDie 0 fun k => { k with scopes := k.scopes.put 15 x }) e

theorem test_weight_returns :
    let x : Scope := { kitty := 2 ^ 63 - 1, ret := 0, opened := true, borrows := 0, waiters := [waiter none] }
    let s := withScope x (.weightReturn 0 15 1)
    s.focus.event = some (.weightReturn 0 15 1) ∧ s.scope 0 15 = x ∧
    ({ x with ret := x.ret + 1 } : Scope).quiet = true ∧ x.waiters ≠ [] := by decide +kernel

theorem test_borrow : let x : Scope := { Scope.reset with kitty := 2 ^ 32, opened := true }
    let s := withScope x (.borrowDebit 0 15 (.exit 0 (waiter none)) none)
    s.focus.event = some (.borrowDebit 0 15 (.exit 0 (waiter none)) none) ∧ 2 ^ 32 ≤ (s.scope 0 15).kitty ∧
    (s.scope 0 15).opened = true ∧ (WeightNeed.exit 0 (waiter none)).amount = 2 ^ 32 := by decide +kernel

theorem test_borrow_refused : let x : Scope := { Scope.reset with kitty := 2 ^ 32 - 1, opened := true }
    let s := withScope x (.borrowDebit 0 15 (.split 0 0 1 (waiter none)) none)
    s.focus.event = some (.borrowDebit 0 15 (.split 0 0 1 (waiter none)) none) ∧ (s.scope 0 15).kitty < 2 ^ 32 ∧
    (waiter none).via = none := by decide +kernel

theorem test_grant : let s := unit (held id) (.borrowGrant ⟨0, 0, 15⟩ (.exit 0 (waiter none)))
    s.focus.event = some (.borrowGrant ⟨s.pkg.num, 0, 15⟩ (.exit 0 (waiter none))) ∧ s.bankOf 1 = some (0, 0) ∧
    (s.img 0 0).task = some aTask := by decide +kernel

theorem test_grant_to_an_ended_task : let s := unit bare (.borrowGrant ⟨0, 0, 15⟩ (.exit 0 (waiter none)))
    s.focus.event = some (.borrowGrant ⟨s.pkg.num, 0, 15⟩ (.exit 0 (waiter none))) ∧ s.taskImg 1 = none := by decide +kernel

theorem test_quiet_scope : let x : Scope := { kitty := 2 ^ 63, ret := 0, opened := true, borrows := 0, waiters := [waiter none] }
    (withScope x (.waitqComplete 0 15)).focus.event = some (.waitqComplete 0 15) ∧
    ((withScope x (.waitqComplete 0 15)).scope 0 15).quiet = true ∧ (waiter none).via = none ∧
    ((withScope Scope.reset (.waitqComplete 0 15)).scope 0 15).quiet = false := by decide +kernel

/-- The state in which an operation reaches its bank, operations l standing before it there. -/
def reaching (l : List (Word × FutOp)) : State :=
  (duing bare (.dealer 0 (.reach 0 aFuture (.create none)))).modDie 0 fun k => { k with
    futQ := k.futQ.put (futBank aFuture) l, futBusy := k.futBusy.put (futBank aFuture) 3 }

theorem test_future_bank : let s := reaching []
    s.agenda = ⟨0, 0, .dealer (nameDie aFuture) (.reach 0 aFuture (.create none))⟩ :: [] ∧ 0 ≤ s.now ∧
    ({ s with agenda := [] } : State).futBehind 0 aFuture (.create none) = false ∧
    s.now < (s.die 0).futBusy.get 0 (futBank aFuture) ∧ (s.die 0).futQ.get [] (futBank aFuture) = [] ∧
    let t := reaching [(aFuture, .create none), (aFuture, .peek (waiter none))]
    t.agenda = s.agenda ∧ ({ t with agenda := [] } : State).futBehind 0 aFuture (.create none) = false ∧
    (t.die 0).futQ.get [] (futBank aFuture) = (aFuture, .create none) :: [(aFuture, .peek (waiter none))] := by
  decide +kernel

/-- The state in which an operation on the future is performed, its word holding v. -/
def future (v : Nat) (e : Event) : State := unit (bare.write (nameKey aFuture) 8 v) e

/-- The word of a future that is resolved, and one with an entry on its list. -/
theorem test_future_operations : let a : State := future (2 + 5 * 2 ^ 32) (.futureResolve aFuture 6 none)
    let b : State := future (1 + 7 * 2 ^ 32) (.futureResolve aFuture 6 none)
    a.focus.event = some (.futureResolve aFuture 6 none) ∧ a.futClosed aFuture = false ∧ a.latent = [] ∧ a.poison = [] ∧
    Memory.wf a.mem = true ∧ a.read (nameKey aFuture) 8 % 4 = 2 ∧ Memory.wf b.mem = true ∧ b.futClosed aFuture = false ∧
    b.read (nameKey aFuture) 8 % 4 = 1 ∧ BitVec.ofNat 32 (b.read (nameKey aFuture) 8 / 2 ^ 32) ≠ (0xFFFFFFFF : BitVec 32) ∧
    BitVec.toNat (7 : BitVec 32) / 2 ^ 23 % 64 = a.pkg.num := by decide +kernel

theorem test_future_events : (future 0 (.futureCreate aFuture none)).focus.event = some (.futureCreate aFuture none) ∧
    (future 0 (.futureJoin aFuture 7 none)).focus.event = some (.futureJoin aFuture 7 none) ∧
    (future 0 (.futurePoison aFuture 0x0A08)).focus.event = some (.futurePoison aFuture 0x0A08) ∧
    (future 3 (.futureCreate aFuture none)).read (nameKey aFuture) 8 % 4 = 3 ∧
    (future 0 (.futureCreate aFuture none)).read (nameKey aFuture) 8 % 4 = 0 := by decide +kernel

theorem test_dealer_deals : let r := { aRecord aBlock with groupShare := 0 }
    let s := recorded { r with blk := aBlock.set 1 (BitVec.ofNat 64 (64 + 2 ^ 56)) } (.dealerChoice 0)
    let r := { r with blk := aBlock.set 1 (BitVec.ofNat 64 (64 + 2 ^ 56)) }
    s.focus.event = some (.dealerChoice 0) ∧ (s.die 0).records = [(0, r)] ∧ r.left = true ∧ r.again = [] ∧
    r.next + 1 = r.groups ∧ 1 ≤ r.cls ∧ blkGang r.blk = false ∧ (s.core 0).hand = [] ∧
    s.pick 0 (fun k => s.eligible k r.cls && s.mayTake 0 r.nextGroup k) = some 0 := by decide +kernel

theorem test_hands_hold_no_more_than_two : ∀ c, ((recorded (aRecord aBlock) (.dealerChoice 0)).core c).hand.length ≤ 2 := by
  intro c
  exact Nat.zero_le 2

/-- A gang of two groups, of class TRUMP. -/
def aGang : Record := aRecord (((aBlock.set 1 (BitVec.ofNat 64 (64 + 3 * 2 ^ 56)))).set 2 (BitVec.ofNat 64 (2 + 2 ^ 24)))

theorem test_gang_reserves : let s := recorded aGang (.gangReservation 0 0)
    s.focus.event = some (.gangReservation 0 0) ∧ s.record 0 0 = some aGang ∧ aGang.left = true ∧ aGang.newGang = true ∧
    aGang.reserved = none ∧ aGang.cls = 3 ∧
    s.findRun 0 aGang.groups (fun _ k => k.reserved.isNone && !k.out) = some 0 := by decide +kernel

theorem test_gang_starts : let s := recorded { aGang with reserved := some 62 } (.gangStart 0 0 62)
    s.focus.event = some (.gangStart 0 0 62) ∧ s.record 0 0 = some { aGang with reserved := some 62 } ∧
    aGang.system = false ∧ 62 + aGang.groups ≤ 64 := by decide +kernel

/-! ### Tasks on their cores -/

/-- The head of a hand: group 0 of the record in slot 0. -/
def aHand : HandEntry := { slot := 0, group := 0, weight := 0, replays := 0, cls := 2, tid := none, ready := 0 }

/-- The state in which that group may start on core 0, its image resident in bank 0. -/
def startingTask : State :=
  unit ((bare.setRecord 0 0 (aRecord aBlock)).modCore 0 fun k => { k with
    hand := [aHand], banks := k.banks.set 0 { Bank.reset with tag := some (0, 64) } }) (.taskStart 0)

theorem test_task_starts : startingTask.focus.event = some (.taskStart 0) ∧ (startingTask.core 0).hand = aHand :: [] ∧
    startingTask.startBank 0 aHand = some 0 ∧ aHand.tid = none ∧
    startingTask.record (coreDie 0) aHand.slot = some (aRecord aBlock) ∧ (aRecord aBlock).system = false ∧
    (startingTask.bank 0 0).resident aBlock = true := by decide +kernel

theorem test_task_waits_for_a_bank :
    let s := unit ((held id).modCore 0 fun k => { k with hand := [aHand] }) (.taskStart 0)
    s.focus.event = some (.taskStart 0) ∧ (s.core 0).hand = aHand :: [] ∧ s.startBank 0 aHand = none := by decide +kernel

theorem test_task_boundary : let s := unit ((held id).setRecord 0 0 (aRecord aBlock)) (.taskBoundary 0 0)
    s.focus.event = some (.taskBoundary 0 0) ∧ (s.img 0 0).task = some aTask ∧ s.record 0 0 = some (aRecord aBlock) := by
  decide +kernel

theorem test_implicit_exit : let s := unit (held id) (.implicitExit 0 0)
    s.focus.event = some (.implicitExit 0 0) ∧ (s.img 0 0).task = some aTask ∧ (s.img 0 0).exited = false ∧
    s.isBridge = true ∧ s.pkg.pcieUp = true ∧ s.ringFull = false ∧ ((held fun m => { m with exited := true }).img 0 0).exited = true := by
  decide +kernel

/-- Nothing of the task is under way, and no program of it is in its column's TS. -/
theorem test_task_stops : let s := unit ((held id).setRecord 0 0 (aRecord aBlock)) (.taskStop 0 0 .preempt)
    let m := s.img 0 0
    s.focus.event = some (.taskStop 0 0 .preempt) ∧ m.task = some aTask ∧ aTask.system = false ∧
    (s.bank 0 0).status = .running ∧ m.abandon = none ∧ s.stopWaits 0 0 .preempt = false ∧ m.sysFault = none ∧
    (s.bank 0 (otherBank 0)).status = .idle ∧ m.passes = [] ∧ m.elems = [] ∧ m.lp.loadAt = none ∧
    (∀ (q : Fin 13) (c : Fin 3), (m.eqAt q c).cur = none) ∧ (s.col (coreCol 0)).tsRun = none ∧
    (s.col (coreCol 0)).tsWait = [] ∧ (s.col (coreCol 0)).tsOps = [] ∧ s.record 0 0 = some (aRecord aBlock) := by decide +kernel

theorem test_stop_waits_for_the_region :
    let s := unit (held fun m => { m with npr := some ⟨4, 9, 1⟩ }) (.taskStop 0 0 .preempt)
    s.focus.event = some (.taskStop 0 0 .preempt) ∧ (s.img 0 0).task = some aTask ∧ (s.bank 0 0).status = .running ∧
    (s.img 0 0).abandon = none ∧ (s.img 0 0).npr ≠ none := by decide +kernel

/-- A stopped task's place among those saved. -/
def aSaved (m : Image) : Saved :=
  { slot := some 0, task := aTask, img := m, window := [], fault := #v[0, 0, 0, 0], faulted := false, complete := false }

theorem test_image_saved :
    let s := unit ((held id).modDie 0 fun k => { k with saved := [aSaved Image.reset] }) (.imageSaveComplete 0 1)
    s.focus.event = some (.imageSaveComplete (coreDie 0) 1) ∧ s.bankOf 1 = some (0, 0) ∧ (s.img 0 0).holds 1 = true ∧
    (s.die (coreDie 0)).saved.find? (fun z => z.holds 1) = some (aSaved Image.reset) ∧
    s.underWay 1 (s.img 0 0) = false ∧ s.underWay 1 { s.img 0 0 with lp := { Lp.reset with inFlight := true } } = true := by
  decide +kernel

theorem test_task_resumes_in_its_bank :
    let s := unit ((held id).modBank 0 0 fun b => { b with status := .stopped, tag := some (0, 64) }) (.taskResume 0 0 1)
    s.focus.event = some (.taskResume 0 0 1) ∧ s.bankOf 1 = some (0, 0) ∧ (s.bank 0 0).busy = false ∧
    (s.bank 0 0).resident (s.img 0 0).blk = true := by decide +kernel

theorem test_task_resumes_elsewhere : let y := { aSaved { Image.reset with task := some aTask } with slot := none, window := [(3, 9)] }
    let s := unit (bare.modDie 0 fun k => { k with saved := [y] }) (.taskResume 5 1 1)
    s.focus.event = some (.taskResume 5 1 1) ∧ s.bankOf 1 = none ∧
    (s.die (coreDie 5)).saved.find? (fun z => z.holds 1) = some y ∧ s.slotSound (coreDie 5) y = true ∧
    Memory.wf s.mem = true ∧ Memory.wf y.window = true := by decide +kernel

theorem test_waiting_task : let s := unit ((held id).modBank 0 0 fun b => { b with status := .waiting }) (.waitingTaskReady 0 0)
    s.focus.event = some (.waitingTaskReady 0 0) ∧ (s.bank 0 0).status = .waiting ∧ ((held id).bank 0 0).status ≠ .waiting := by
  decide +kernel

/-- The state in which the one context of the task that has not ended waits on a barrier, armed as collective or not, and a
filler's record is runnable. -/
def collecting (coll : Bool) : State :=
  let b : Barrier := { Barrier.reset with st := .armed, target := 3, coll, waiters := [.wait (waiter none)] }
  let s := (syncing (.sWait 0 0 false 0) [aBarrier]).modQ fun q => { q with cur := q.cur.map fun k => { k with waiting := true, mpc := 1 } }
  ((s.modCur fun m => m.modCtx 1 fun c => { c with blocked := true }).setBar 0 1023 b).setRecord 0 0
    { aRecord (aBlock.set 1 64) with runnable := true }

theorem test_filler_starts :
    let s := unit ((collecting true).modDie 0 fun k => { k with saveCount := 1 }) (.fillerCollectiveWait 0)
    let m := s.img 0 0
    s.focus.event = some (.fillerCollectiveWait 0) ∧ (s.core 0).front = 0 ∧ (s.die 0).fillers = [] ∧
    (s.bank 0 0).status = .running ∧ (s.bank 0 (otherBank 0)).status = .idle ∧ s.collective m = true ∧
    (s.fillerFor 0 m.blk).map (fun x => (x.1, x.2.cls, x.2.again, x.2.system)) = some (0, 0, [], false) ∧
    s.stopWaits 0 0 .pageWait = false ∧ s.hasSlot 0 = true ∧ (s.col (coreCol 0)).tsRun = none ∧
    (s.col (coreCol 0)).tsWait = [] ∧ (s.col (coreCol 0)).tsOps = [] ∧ m.passes = [] ∧ m.elems = [] ∧ m.lp.loadAt = none ∧
    (∀ (q : Fin 13) (c : Fin 3), q ≠ 12 → (m.eqAt q c).cur = none) := by decide +kernel

theorem test_no_filler : (unit (collecting false) (.fillerCollectiveWait 0)).collective
    ((unit (collecting false) (.fillerCollectiveWait 0)).img 0 0) = false := by decide +kernel

/-- The state in which the waiting task of a core with a filler's reservation may return. -/
def returning (coll : Bool) : State :=
  unit (((collecting coll).modBank 0 0 fun b => { b with status := .waiting }).modDie 0 fun k =>
    { k with fillers := [⟨0, 0, some 3⟩] }) (.fillerReturn 0)

theorem test_filler_returns : (returning false).focus.event = some (.fillerReturn 0) ∧
    ((returning false).bank 0 0).status = .waiting ∧ ((returning false).bank 0 (otherBank 0)).status = .idle ∧
    ((returning false).die 0).fillers = [⟨0, 0, some 3⟩] ∧ (returning false).collWait ((returning false).img 0 0) = false ∧
    (returning true).collWait ((returning true).img 0 0) = true := by decide +kernel

/-! ### Faults, their cases, and the migration service -/

theorem test_deferred_fault : let s := unit (held id) (.deferredFault 0 0 .cm 0x0501 64 8 false)
    s.focus.event = some (.deferredFault 0 0 .cm 0x0501 64 8 false) ∧ (0x0501 : BitVec 16) ∉ Claims.reporting := by
  decide +kernel

theorem test_queue_deadlock :
    let s := unit (held fun m => (m.modCtx 0 fun c => { c with ended := true }).modCtx 1 fun c => { c with ended := false })
      (.queueDeadlock 0 0)
    s.focus.event = some (.queueDeadlock 0 0) ∧ ((s.img 0 0).ctx[1]).ended = false ∧
    ∀ j : Fin 3, j < 1 → ((s.img 0 0).ctx[j.val]).ended = true := by decide +kernel

theorem test_format_underflow : let s := unit (held (words 2 1 (.mMma 0 2 0 1))) (.formatUnderflow 0 0 .cm)
    s.focus.event = some (.formatUnderflow 0 0 .cm) ∧
    ((s.img 0 0).eqAt 2 (ctxIx .cm)).words.map (·.tid) = [(s.img 0 0).tid] := by decide +kernel

theorem test_trap_stream_and_region : (unit bare (.trapStreamTimeout 0 0 .cm)).focus.event = some (.trapStreamTimeout 0 0 .cm) ∧
    ((unit (held id) (.regionOverrun 0 0)).img 0 0).npr = none ∧
    ((unit (held fun m => { m with npr := some ⟨4, 9, 1⟩ }) (.regionOverrun 0 0)).img 0 0).npr = some ⟨4, 9, 1⟩ := by
  decide +kernel

/-- A fault case of the code, opened in these modes, as record num of the fault ring. -/
def aCase (code modes : Word) (num : Option Nat) : FaultCase :=
  { id := 3, record := #v[code, 0, 0, 0], tid := some 1, num, failed := none, modes }

/-- The state in which die 0 has that case, whose task is saved. -/
def cased (code modes : Word) (num : Option Nat) (e : Event) : State :=
  unit ((bare.modDie 0 fun k => { k with
      saved := [aSaved Image.reset]
      cases := [aCase code modes num] }).modPkg fun p =>
    { p with bridge := { p.bridge with faultHead := 3 } }) e

theorem test_case_goes_to_the_host : let s := cased 0x0601 1 none (.faultHandlerEnd 0 3 0)
    s.focus.event = some (.faultHandlerEnd 0 3 0) ∧
    (s.die 0).cases.find? (fun y => y.id == 3) = some (aCase 0x0601 1 none) ∧ s.isBridge = true ∧
    s.pkg.pcieUp = true ∧ s.ringFull = false ∧ hostDecides 1 0x0601 = true := by decide +kernel

theorem test_no_handler : Claims.noHandler (cased 0x0601 1 none (.faultHandlerEnd 0 3 0)) := by
  intro c b
  have h : ∀ b : BankIx, ((Core.reset).banks[b.val]).img.system = false := by decide +kernel
  exact h b

theorem test_case_is_decided : let s := cased 0x0601 0 none (.faultHandlerEnd 0 3 1)
    s.focus.event = some (.faultHandlerEnd 0 3 1) ∧ hostDecides 0 0x0601 = false ∧ min 2 (1 : Fin 4).val < 2 ∧
    (s.die 0).cases.find? (fun y => y.id == 3) = some (aCase 0x0601 0 none) ∧
    s.savedTask 1 = some (0, aSaved Image.reset) ∧ s.isBridge = true ∧ s.pkg.pcieUp = true ∧ s.ringFull = false := by
  decide +kernel

/-- FAULTACT, with the action 1, for record 2; its record in the ring, of package n. -/
def deciding (n : Nat) (num : Option Nat) : State :=
  (cased 0x0601 1 num (.faultact (BitVec.ofNat 64 (2 + 2 ^ 8)))).modPkg fun p =>
    { p with bridge := { p.bridge with ring := p.bridge.ring.put 2 #v[0x0601, 0, 0, BitVec.ofNat 64 (n * 2 ^ 40)] } }

theorem test_host_decides : let s := deciding 0 (some 2)
    s.focus.event = some (.faultact (BitVec.ofNat 64 (2 + 2 ^ 8))) ∧ s.pkg.bridge.faultHead.toNat = 3 ∧
    s.hostCase (3 - 1 - (3 - 1 - 2) % 64) = some (0, aCase 0x0601 1 (some 2)) ∧
    (s.pkg.bridge.ring.get #v[0, 0, 0, 0] 2)[3].toNat / 2 ^ 40 % 64 = s.pkg.num ∧
    s.savedTask 1 = some (0, aSaved Image.reset) ∧ (BitVec.ofNat 64 (2 + 2 ^ 8)).toNat / 256 % 4 < 2 := by decide +kernel

theorem test_host_decides_elsewhere : let s := deciding 5 none
    s.focus.event = some (.faultact (BitVec.ofNat 64 (2 + 2 ^ 8))) ∧ 2 < s.pkg.bridge.faultHead.toNat ∧
    (s.pkg.bridge.ring.get #v[0, 0, 0, 0] 2)[3].toNat / 2 ^ 40 % 64 ≠ s.pkg.num := by decide +kernel

theorem test_host_decides_nothing : let s := deciding 0 none
    s.focus.event = some (.faultact (BitVec.ofNat 64 (2 + 2 ^ 8))) ∧ 2 < s.pkg.bridge.faultHead.toNat ∧
    (s.pkg.bridge.ring.get #v[0, 0, 0, 0] 2)[3].toNat / 2 ^ 40 % 64 = s.pkg.num ∧ s.hostCase 2 = none ∧
    (s.pkg.bridge.ring.get #v[0, 0, 0, 0] 2)[0].toNat % 2 ^ 16 ≠ 0x0804 := by decide +kernel

theorem test_host_names_no_record : let s := cased 0x0601 1 (some 2) (.faultact 3)
    s.focus.event = some (.faultact 3) ∧ s.pkg.bridge.faultHead.toNat ≤ (3 : Word).toNat % 64 := by decide +kernel

theorem test_core_withdrawn : let s := unit bare (.coreWithdrawn 5)
    s.focus.event = some (.coreWithdrawn 5) ∧ (s.core 5).ineligible = false ∧ (s.core 5).idle = true := by decide +kernel

/-- The state whose tables map the first page of the virtual addresses with the given leaf. -/
def paged (leaf : Nat) : State :=
  ((((bare.write 0 8 0x1001).write 0x1000 8 0x2001).write 0x2000 8 0x3001).write 0x3000 8 0x4001).write 0x4000 8 leaf

/-- The word of queue 1 that asks for a page. -/
def asker : Asker := { tid := 1, q := 1, ctx := .cm, push := none, mpc := 0 }

theorem test_migration_service : let e : Event := .migrationService asker 5
    let s := unit ((paged 4).modPkg fun p => { p with enabled := 8 }) e
    s.focus.event = some e ∧ s.modesNow.toNat.testBit 0 = false := by decide +kernel

theorem test_migration_by_the_host :
    let s := unit (held (words 1 1 (.vClamp 0 3 1 2))) (.migrationService asker 5)
    s.focus.event = some (.migrationService asker 5) ∧ s.modesNow.toNat.testBit 0 = true ∧
    bankWithWord s.cores asker.tid asker.q (ctxIx asker.ctx) = some (0, 0) ∧
    ((s.img 0 0).eqAt asker.q (ctxIx asker.ctx)).words.length = 1 := by decide +kernel

/-- The leaf of a page in host memory. -/
def hostLeaf : Leaf := ⟨0x4000, 2 ^ 51 + 0x5000 + 4, 4096⟩

theorem test_migration_completes : let e : Event := .migrationComplete asker [0]
    let s := unit { paged hostLeaf.pte with cores := (held id).cores } e
    s.focus.event = some e ∧ s.bankOf asker.tid = some (0, 0) ∧ (s.leafOf 0).toOption = some hostLeaf ∧
    hostLeaf.size = 4096 ∧ hostLeaf.pte.testBit 0 = false ∧ hostLeaf.pte.testBit 3 = false ∧
    hostLeaf.pte.testBit 51 = true ∧ s.pkg.pcieUp = true ∧ s.poison = [] ∧ s.latent = [] ∧ Memory.wf s.mem = true := by
  decide +kernel

theorem test_migration_of_nothing : let s := unit (held id) (.migrationComplete asker [])
    s.focus.event = some (.migrationComplete asker []) ∧ s.bankOf asker.tid = some (0, 0) := by decide +kernel

theorem test_walk_fills : let s := unit (paged 0x5007) (.walkFill 3 9 5 true 0)
    s.focus.event = some (.walkFill 3 9 5 true 0) ∧ (0 : Word) = s.pkg.tgen ∧ (1 : Word) ≠ s.pkg.tgen ∧
    (s.translate (some (3, 9)) 5 true).1 = .pa 0x5005 := by decide +kernel

/-! ### Registers and the host -/

theorem test_enabled_writes : let s := unit bare (.enabled 0x3000F)
    s.pkg.phase = 5 ∧ s.pkg.pcieUp = true ∧ s.pkg.enabled.toNat.testBit 63 = false ∧ (0x1000F : Word).toNat / 2 ^ 16 % 4 ≠ 3 ∧
    (0x3000F : Word).toNat / 2 ^ 16 % 4 = 3 ∧ s.focus.event = some (.enabled 0x3000F) := by decide +kernel

theorem test_register_events : (unit bare (.tlbinv 0x1000)).focus.event = some (.tlbinv 0x1000) ∧
    (unit bare (.refwinWrite 31 9)).focus.event = some (.refwinWrite 31 9) ∧
    (unit bare .bankPeriodStart).focus.event = some .bankPeriodStart ∧
    (unit bare (.nonce [1, 2, 3, 4])).focus.event = some (.nonce [1, 2, 3, 4]) := by decide +kernel

/-- Budgets of 64 and of 65 credits in sum. -/
theorem test_bankbudget_sums : let sum (v : Word) := ((List.range 5).map fun i => v.toNat / 2 ^ (8 * i) % 128).sum
    (unit bare (.bankbudgetWrite 3 1 0x40)).focus.event = some (.bankbudgetWrite 3 1 0x40) ∧ sum 0x40 ≤ 64 ∧ 64 < sum 0x140 := by
  decide +kernel

theorem test_bustiming_write : (unit bare (.bustimingWrite 0 1 0x2FF)).focus.event = some (.bustimingWrite 0 1 0x2FF) ∧
    (0x2FF : Word).toNat / 2 ^ 8 % 4 ≠ 3 ∧ (0x3FF : Word).toNat / 2 ^ 8 % 4 = 3 := by decide +kernel

/-- The state of a package that waits for a claim, having heard claim 4. -/
def waitingPackage (e : Event) : State := unit (bare.modPkg fun p => { p with phase := 3, claims := [4] }) e

theorem test_register_writes : let s := unit bare (.registerWrite 0x100 5)
    s.focus.event = some (.registerWrite 0x100 5) ∧ s.pkg.open = true ∧ regAt 0x100 = .reg s.pkg.num 0 0x020 ∧
    (0x020, [(13, 0)]) ∈ Claims.rwFields ∧ sysForbidden 0x020 5 = false ∧
    regAt (0x204 * 8) = .reg s.pkg.num 0 0x204 ∧ sysForbidden 0x204 201 = true ∧ sysForbidden 0x204 200 = false := by
  decide +kernel

theorem test_bridge_block_write : let s := unit bare (.registerWrite 0x4000008 5)
    s.focus.event = some (.registerWrite 0x4000008 5) ∧ s.pkg.block = true ∧
    (unit (bare.modPkg fun p => { p with pcieUp := false }) (.registerWrite 0x4000008 5)).pkg.block = false := by
  decide +kernel

/-- The bridge of a group of two packages, joined by its port 1. -/
def groupOfTwo (e : Event) : State :=
  unit (bare.modPkg fun p => { p with group := 2, links := [⟨0, 1, 1, 0⟩], ports := p.ports.put 1 { PortState.reset with trained := true } }) e

theorem test_register_write_goes_on : let s := groupOfTwo (.registerWrite (2 ^ 20 + 0x100) 5)
    s.focus.event = some (.registerWrite (2 ^ 20 + 0x100) 5) ∧ s.pkg.open = true ∧
    regAt (2 ^ 20 + 0x100) = .reg 1 0 0x020 ∧ 1 ≠ s.pkg.num ∧ s.reaches 1 = true := by decide +kernel

theorem test_host_reads : let s := unit { bare with poison := [granuleOf 64] } (.hostMemoryRead 2 64 8)
    s.focus.event = some (.hostMemoryRead 2 64 8) ∧ s.pkg.open = true ∧ 64 / 2 ^ 45 = s.pkg.num ∧
    s.hostPlace 64 8 = .ok 64 ∧ s.latent = [] ∧ granuleOf (64 + 0) ∈ s.poison := by decide +kernel

theorem test_host_reads_of_no_place : let a := unit bare (.hostMemoryRead 2 (2 ^ 51) 8)
    let b := unit bare (.hostMemoryRead 2 (2 ^ 44) 8)
    a.focus.event = some (.hostMemoryRead 2 (2 ^ 51) 8) ∧ b.focus.event = some (.hostMemoryRead 2 (2 ^ 44) 8) ∧
    2 ^ 44 / 2 ^ 45 = b.pkg.num ∧ (match b.hostPlace (2 ^ 44) 8 with
      | .ok _ => false
      | .error _ => true) = true ∧
    (waitingPackage (.hostMemoryRead 2 64 8)).pkg.open = false := by decide +kernel

theorem test_host_reads_of_registers :
    (unit bare (.hostMemoryRead 1 0x1000 8)).focus.event = some (.hostMemoryRead 1 0x1000 8) ∧ 0x1000 / 0x4000 = bare.pkg.num ∧
    (unit bare (.hostMemoryRead 0 0x100 8)).focus.event = some (.hostMemoryRead 0 0x100 8) ∧ bare.pkg.open = true ∧
    0x100 / 2 ^ 20 = bare.pkg.num ∧
    (unit bare (.hostMemoryRead 0 0x4000008 8)).focus.event = some (.hostMemoryRead 0 0x4000008 8) ∧
    bare.pkg.block = true := by decide +kernel

theorem test_host_read_goes_on : (groupOfTwo (.hostMemoryRead 1 0x4000 8)).pkg.open = true ∧
    (groupOfTwo (.hostMemoryRead 1 0x4000 8)).reaches (0x4000 / 0x4000) = true ∧
    (unit bare (.hostMemoryRead 1 0x4000 8)).reaches (0x4000 / 0x4000) = false := by decide +kernel

theorem test_host_writes : let s := unit bare (.hostMemoryWrite 64 [1, 2] true)
    s.focus.event = some (.hostMemoryWrite 64 [1, 2] true) ∧ s.pkg.open = true ∧ 64 / 2 ^ 45 = s.pkg.num ∧
    s.hostPlace 64 2 = .ok 64 ∧ Memory.wf s.mem = true ∧
    (waitingPackage (.hostMemoryWrite 64 [1, 2] true)).pkg.open = false ∧ 2 ^ 45 / 2 ^ 45 ≠ s.pkg.num ∧
    (match s.hostPlace (2 ^ 44) 2 with
      | .ok _ => false
      | .error _ => true) = true := by decide +kernel

theorem test_host_enqueues : let e : Event := .hostEnqueueWrite 0x3F80 (List.replicate 128 7)
    (unit bare e).focus.event = some e ∧ (unit bare e).pkg.open = true ∧ 0x3F80 % 128 = 0 ∧
    0x3F80 / 0x4000 = (unit bare e).pkg.num ∧ (List.replicate 128 (7 : BitVec 8)).length = 128 ∧
    (0x3F88 : Nat) % 128 ≠ 0 ∧
    (groupOfTwo (.hostEnqueueWrite 0x4000 (List.replicate 128 7))).reaches (0x4000 / 0x4000) = true := by decide +kernel

/-! ### Starts, power, heat, time and links -/

theorem test_start_events : (unit bare .reset).focus.event = some .reset ∧ bare.pkg.block = true ∧ bare.pkg.phase ≠ 1 ∧
    bare.pkg.features.toNat.testBit 0 = true ∧
    (unit bare (.powerOn true true)).focus.event = some (.powerOn true true) ∧
    (unit bare (.powerOn false false)).focus.event = some (.powerOn false false) ∧
    (∀ p : Port, (bare.pkg.ports.get PortState.reset p.val).trained = false) ∧
    ((groupOfTwo .reset).pkg.ports.get PortState.reset 1).trained = true := by decide +kernel

theorem test_start_of_a_member : let s := unit (bare.modPkg fun p => { p with features := 0x300 }) .reset
    s.focus.event = some .reset ∧ s.pkg.features.toNat.testBit 0 = false ∧ s.pkg.phase ≠ 1 := by decide +kernel

theorem test_claims : (waitingPackage (.bridgeClaim 2 4)).focus.event = some (.bridgeClaim 2 4) ∧
    4 ∈ (waitingPackage (.bridgeClaim 2 4)).pkg.claims ∧ 5 ∉ (waitingPackage (.bridgeClaim 2 5)).pkg.claims ∧
    (waitingPackage .bridgeClaimTimeout).focus.event = some .bridgeClaimTimeout ∧
    (waitingPackage .bridgeClaimTimeout).pkg.phase = 3 ∧ bare.pkg.phase ≠ 3 ∧
    (waitingPackage (.bridgeClaim 2 5)).pkg.features.toNat.testBit 0 = true := by decide +kernel

theorem test_samples_and_tokens :
    (unit bare (.governorSample 900000 false)).focus.event = some (.governorSample 900000 false) ∧
    (unit bare .tokenPeriod).focus.event = some .tokenPeriod ∧ bare.atMultiple 1000 = true := by decide +kernel

/-- In cycle 0 of a clock that is slewed. -/
theorem test_no_multiple_of_group_time :
    (bare.modPkg fun p => { p with clock := { p.clock with slew := 5 } }).atMultiple 1000 = false := by
  rw [State.atMultiple, show (bare.modPkg fun p => { p with clock := { p.clock with slew := 5 } }).now = 0 from rfl,
    State.groupNs]
  exact bne_self_eq_false _

/-- The state of a column with a running task, its hottest sensor at n °C, in which e happens. -/
def heated (n : Nat) (e : Event) : State :=
  unit ((held fun m => { m with npr := some ⟨4, 9, 1⟩ }).modCol 0 fun k => { k with temps := Vector.replicate 5 n }) e

theorem test_heat : let e : Event := .thermalManagerAction 0
    (heated 95 e).focus.event = some e ∧ 95 ≤ (heated 95 e).hottest 0 ∧ (heated 89 e).hottest 0 < 90 ∧
    90 ≤ (heated 94 e).hottest 0 ∧ (heated 94 e).hottest 0 < 95 ∧ (heated 95 e).pkg.modes.toNat.testBit 2 = false ∧ (heated 95 e).atMultiple 100000 = true ∧
    (heated 95 e).stopAsked 0 = false ∧ ((heated 95 e).core (colCore 0 0)).running = some (0, aTask) ∧
    aTask.system = false := by decide +kernel

theorem test_trip : let e : Event := .thermalTrip 0
    (heated 100 e).focus.event = some e ∧ ((heated 100 e).core (colCore 0 0)).running = some (0, aTask) ∧
    ((heated 100 e).img (colCore 0 0) 0).npr.isSome = true ∧
    (unit bare (.throttleEnd 0 0)).focus.event = some (.throttleEnd 0 0) := by decide +kernel

/-- The state with telemetry on, its ring at the page the tables map. -/
def telling (e : Event) : State := unit ((paged 0x5007).modPkg fun p => { p with enabled := 2 }) e

theorem test_telemetry : let e : Event := .telemetryRecord 1 2 3 4 5
    (telling e).focus.event = some e ∧ (telling e).pkg.enabled.toNat.testBit 1 = true ∧
    (unit bare e).pkg.enabled.toNat.testBit 1 = false ∧
    ((telling e).translate none ((telling e).pkg.telebase.toNat +
      32 * (0 % 2 ^ ((telling e).pkg.telectl.toNat / 2 ^ 16 % 16))) true).1 = .pa 0x5000 ∧ (match spaceOf 0x5000 with
      | .far p _ _ => p == 0
      | _ => false) = true ∧ (telling e).poison = [] ∧ Memory.wf (telling e).mem = true := by decide +kernel

/-- A record of the bridge's own ring that waits to be copied, and one of package 1, which the bridge reaches. -/
def aTele (n : Nat) : TeleRec :=
  { pkg := n, seq := 0, time := 0, ring := 256, bytes := if n = 0 then [] else List.replicate 32 7 }

theorem test_telemetry_copy : let e : Event := .telemetryHostCopy
    let s := (telling e).modPkg fun p => { p with tele := { p.tele with wait := [aTele 0] } }
    s.focus.event = some e ∧ s.pkg.tele.wait = aTele 0 :: [] ∧ s.pkg.pcieUp = true ∧ s.teleReady (aTele 0) = true ∧
    (s.pkg.bridge.hostHead - s.pkg.bridge.hostTail).toNat ≠ 2 ^ (8 + s.pkg.bridge.hostSize.toNat) ∧
    (s.pkg.tele.nexts.get 0 0 + 2 ^ 32 - (aTele 0).seq) % 2 ^ 32 ≤ (aTele 0).ring ∧ (aTele 0).bytes.length ≤ 32 ∧
    (s.translate none (s.teleVa 0) false).1 = .pa 0x5000 ∧ s.latent = [] ∧ s.poison = [] ∧ Memory.wf s.mem = true ∧
    (telling e).pkg.tele.wait = [] := by decide +kernel

theorem test_telemetry_copy_of_another : let e : Event := .telemetryHostCopy
    let s := (telling e).modPkg fun p => { p with tele := { p.tele with wait := [aTele 1] } }
    s.pkg.tele.wait = aTele 1 :: [] ∧ s.teleReady (aTele 1) = true ∧ (aTele 1).bytes.length ≤ 32 ∧
    (s.pkg.tele.nexts.get 0 1 + 2 ^ 32 - (aTele 1).seq) % 2 ^ 32 ≤ (aTele 1).ring := by decide +kernel

/-- The state of a package as f makes it, in which e happens. -/
def packaged (f : Package → Package) (e : Event) : State := unit (bare.modPkg f) e

/-- Of another package than the bridge, with one trained port. -/
def member (p : Package) : Package :=
  { p with
    features := 0x300, num := 1, group := 3, links := [⟨0, 1, 1, 0⟩, ⟨1, 2, 2, 0⟩],
    ports := p.ports.put 2 { trained := true, fails := 6, delay := 40, asked := some 0 } }

theorem test_clock_syncs : let e : Event := .ptpSyncArrival 1 7 9
    (packaged id .ptpSyncSend).focus.event = some .ptpSyncSend ∧ (packaged id .ptpSyncSend).pkg.features.toNat.testBit 0 = true ∧
    (packaged member e).focus.event = some e ∧ (packaged member e).pkg.features.toNat.testBit 0 = false ∧
    ((packaged member e).pkg.ports.get PortState.reset 2).trained = true ∧ (2 : Port) ≠ 1 ∧
    2 ∈ childPorts (packaged member e).pkg.links 1 ∧
    (packaged member (.linkDelayMeasure 2)).focus.event = some (.linkDelayMeasure 2) ∧
    ((packaged member e).pkg.ports.get PortState.reset 3).trained = false := by decide +kernel

/-- Bit 16 of ENABLED: the clock follows PTM; bit 17: it follows the pulse. -/
def source (n : Nat) (next : Option (BitVec 48)) (p : Package) : Package :=
  { p with enabled := BitVec.ofNat 64 (n * 2 ^ 16), clock := { p.clock with next } }

/-- A sound time-of-day message of 1 second. -/
def aMessage : List (BitVec 8) := [0x54, 0x44, 1, 0, 0, 0, 0, 0, 0, 0, 0, 0x11]

theorem test_time_of_day : let e : Event := .todMessage aMessage
    (packaged (source 2 none) e).focus.event = some e ∧ aMessage.length = 12 ∧
    (aMessage.take 11).foldl (fun x y => x ^^^ y) 0 = aMessage.getD 11 0 ∧
    (packaged (source 2 none) e).pkg.enabled.toNat / 2 ^ 16 % 4 = 2 ∧
    (packaged (source 1 none) e).pkg.enabled.toNat / 2 ^ 16 % 4 = 1 ∧
    (packaged (source 2 (some 5)) .ppsEdge).focus.event = some .ppsEdge ∧
    (packaged (source 2 (some 5)) .ppsEdge).pkg.clock.next = some 5 ∧
    (packaged (source 2 (some 5)) .ppsEdge).pkg.clock.lost = false ∧
    (packaged (source 1 none) (.ptmSteer 1 2)).focus.event = some (.ptmSteer 1 2) ∧
    (packaged id .timeSourceLoss).focus.event = some .timeSourceLoss := by decide +kernel

/-- A packet, in a flit that passes its check or not, from package 0, arrives on port 2 of a member in the phase given. -/
def arriving (ok : Bool) (dest : Option Nat) (x : Packet) (phase : Nat) : State :=
  packaged (fun p => { member p with phase, claims := [ownClaim] }) (.flitReceive 2 ok 0 dest x)

theorem test_flits : let s := arriving true (some 1) (.answer asker [1] none) 5
    s.focus.event = some (.flitReceive 2 true 0 (some 1) (.answer asker [1] none)) ∧ s.pkg.num = 1 ∧ s.pkg.phase = 5 ∧
    Memory.wf s.mem = true ∧ s.hostPlace (2 ^ 45 + 64) 2 = .ok 64 ∧
    (arriving true (some 1) (.write (2 ^ 45 + 64) [(1, false), (2, false)]) 5).focus.event =
      some (.flitReceive 2 true 0 (some 1) (.write (2 ^ 45 + 64) [(1, false), (2, false)])) ∧
    (arriving true none (.delayAnswer 3) 5).focus.event = some (.flitReceive 2 true 0 none (.delayAnswer 3)) ∧
    (s.pkg.ports.get PortState.reset 2).asked = some 0 ∧
    (arriving true (some 2) (.hostLink true) 5).focus.event = some (.flitReceive 2 true 0 (some 2) (.hostLink true)) ∧
    2 ≠ s.pkg.num := by decide +kernel

theorem test_flit_enumerates : let s := arriving true (some 1) (.enumerate 1 3 []) 3
    s.focus.event = some (.flitReceive 2 true 0 (some 1) (.enumerate 1 3 [])) ∧ s.pkg.phase = 3 ∧
    s.pkg.features.toNat.testBit 0 = false ∧ s.pkg.claims ≠ [] := by decide +kernel

theorem test_flits_fail : let s := arriving false none .delayAsk 5
    s.focus.event = some (.flitReceive 2 false 0 none .delayAsk) ∧ (s.pkg.ports.get PortState.reset 2).fails ≠ 7 ∧
    let t := s.modPkg fun p => { p with ports := p.ports.put 2 { PortState.reset with trained := true, fails := 7 } }
    t.focus.event = s.focus.event ∧ (t.pkg.ports.get PortState.reset 2).fails = 7 := by decide +kernel

theorem test_links : (packaged member (.portDown 2)).focus.event = some (.portDown 2) ∧
    (packaged member (.portTrained 3)).focus.event = some (.portTrained 3) ∧
    (packaged member (.routeRecompute [])).focus.event = some (.routeRecompute []) ∧ (packaged member .ppsEdge).pkg.phase = 5 ∧
    (waitingPackage (.routeRecompute [⟨0, 1, 1, 0⟩])).focus.event = some (.routeRecompute [⟨0, 1, 1, 0⟩]) ∧
    (waitingPackage (.routeRecompute [])).pkg.phase = 3 ∧ (waitingPackage (.routeRecompute [])).pkg.features.toNat.testBit 0 = true ∧
    (packaged id .pcieLinkLoss).focus.event = some .pcieLinkLoss ∧ (packaged id .pcieLinkLoss).pkg.pcieUp = true ∧
    (packaged id .pcieLinkLoss).pkg.faultsHeld.length < 64 ∧
    (packaged (fun p => { p with pcieUp := false }) .pcieLinkLoss).pkg.pcieUp = false := by decide +kernel

/-! ### Words and steps -/

theorem test_round_trip_hypotheses : (Instr.addi 0 5 3 (-12)).wellFormed = true ∧ (Instr.addi 0 5 3 (-12)).isCoreWord = true ∧
    decode (encode (.addi 0 5 3 (-12)) ++ [7]) = .ok (.addi 0 5 3 (-12), [7]) := by decide +kernel

/-- The state whose agenda is one entry. -/
def due (s : State) (a : Act) : State := { s with agenda := [⟨3, 1, a⟩] }

theorem test_step_of_nothing : bare.agenda = [] ∧ Memory.wf bare.mem = true := by decide +kernel

/-- The state in which context 0 owns the slot, the word at its PC being u. -/
def fetching (u : Word32) (a : Act) : State :=
  due ((held fun m => m.modCtx 0 fun c => { c with ended := false, pc := 0 }).modBank 0 0 fun b => { b with overlay := [u] }) a

theorem test_step_issues : let s := fetching 0x090147F4 (.bank 0 0 .issueLate)
    let b := s.bank 0 0
    s.agenda = [⟨3, 1, .bank 0 0 .issueLate⟩] ∧ blkSlotMap b.img.blk / 4 ^ (b.img.taskCycle % 12) % 4 = 0 ∧
    b.img.mayIssue 0 = true ∧ b.img.takes 0 = none ∧ lateIssue (b.fetch 0) = false ∧
    decodeWord (b.wordAt (b.img.ctx[0]).pc.toNat) (b.wordAt ((b.img.ctx[0]).pc.toNat + 4)) = .ok (.addi 0 5 3 (-12)) := by
  decide +kernel

theorem test_step_of_no_word : (match decodeWord ((fetching (word 0 0x3E 0 0) (.bank 0 0 .issueLate)).bank 0 0 |>.wordAt 0) 0 with
    | .ok _ => false
    | .error _ => true) = true := by decide +kernel

theorem test_step_of_a_unit : let s := due bare (.ev .tokenPeriod)
    s.agenda = [⟨3, 1, .ev .tokenPeriod⟩] ∧ (Claims.entered s 3 []).heldByThrottle .tokenPeriod = false ∧
    (Event.row .tokenPeriod) = .tokenPeriod := by decide +kernel

theorem test_step_of_a_word : let s := due (held (words 1 1 (.vClamp 0 3 1 2))) (.perform 0 0 1 1)
    s.agenda = [⟨3, 1, .perform 0 0 1 1⟩] ∧ ((s.img 0 0).eqAt 1 1).words.map (·.instr) = [.vClamp 0 3 1 2] := by
  decide +kernel

theorem test_step_of_a_transform : let s := due (transforming id aProgram) (.ts 0)
    (s.col 0).tsRun = some aProgram ∧ s.agenda = [⟨3, 1, .ts 0⟩] ∧
    (match decodeTs ((s.col 0).tsMem.get 0 aProgram.pc) with
      | .ok _ => true
      | .error _ => false) = true := by decide +kernel

theorem test_step_answers : (match step bare with
    | .next t => t.now == bare.now + 1 && Memory.wf t.mem
    | _ => false) = true := by decide +kernel

/-- A unit's event and a future of a word in memory that is canonical and sound. -/
theorem test_unit_step : (future 0 (.futureCreate aFuture none)).focus.event = some (.futureCreate aFuture none) ∧
    Memory.wf (future 0 (.futureCreate aFuture none)).mem = true ∧ (future 0 (.futureCreate aFuture none)).latent = [] := by
  decide +kernel

end Sys2Proof.Tests
end

section
/-! The control engine's division (R184) and its loop branch (R90, R193). -/

namespace Sys2Proof.Machine

open Sys2Proof

/-! ### Division -/

/-- The pending write of a g result, as the claims write it (R90, R182). -/
theorem putList_eq_gWrite (s : State) (d : Fin 32) (v : Word) (l : Nat) : putList s d v l = Claims.gWrite s d l v := by
  have hd : d.val = 0 ↔ d = 0 := Fin.val_eq_zero_iff
  have hi : (physG s.cx.rot d).val = if d.val < 16 then d.val else 16 + (d.val - 16 + s.cx.rot.toNat) % 16 := by
    unfold physG
    split
    · rfl
    · simp only [Fin.val_ofNat]; omega
  simp only [putList, Claims.gWrite, hd, hi]

theorem divReading_eq_reading : divReading = Claims.reading := rfl

/-- The sign and the magnitude of a quotient truncated toward zero, as R184 writes it. -/
theorem tdiv_eq_sign_mul_natAbs_div (a b : Int) :
    a.tdiv b = a.sign * b.sign * ((a.natAbs / b.natAbs : Nat) : Int) := by
  rw [← Int.sign_mul_natAbs (a.tdiv b), Int.natAbs_tdiv, Int.sign_tdiv]
  split
  next h => simp [Nat.div_eq_of_lt h]
  next => rfl

theorem divQuo_eq_quotient (u : Bool) (x y : Word) :
    divQuo u x y = BitVec.ofInt 64 (Claims.quotient u (Claims.reading u x) (Claims.reading u y)) := by
  rw [← divReading_eq_reading]
  simp only [divQuo, Claims.quotient, tdiv_eq_sign_mul_natAbs_div, apply_ite (BitVec.ofInt 64)]

theorem divRem_eq_remainder (u : Bool) (x y : Word) :
    divRem u x y = BitVec.ofInt 64 (Claims.remainder u (Claims.reading u x) (Claims.reading u y)) := by
  rw [← divReading_eq_reading]
  simp only [divRem, Claims.remainder]
  by_cases hzero : divReading u y = 0
  · rw [if_pos hzero, if_pos hzero]
  · rw [if_neg hzero, if_neg hzero]
    by_cases hover : u = false ∧ divReading u x = -2 ^ 63 ∧ divReading u y = -1
    · rw [if_pos hover, if_pos hover]
      rfl
    · rw [if_neg hover, if_neg hover, Claims.quotient, if_neg hzero, if_neg hover, tdiv_eq_sign_mul_natAbs_div]

/-- A result in a g register, as the claims write the next state (R182). -/
theorem ctrlPut_eq_claim (s : State) (p : Pred) (d : Fin 32) (l : Nat) (v : State → Word) (h : s.p p = true) :
    ctrlPut s p d l v = .next (Claims.issued s 1 (Claims.gWrite s d l (v s.unblock))) := by
  rw [ctrlPut_true s p d l v h, putList_eq_gWrite]
  rfl

/-- Settles O3: the model's quotient and remainder are those of R184, left pending as any result in a g register is. -/
theorem divisionTruncatesTowardZero : Obligations.DivisionTruncatesTowardZero := by
  intro p d a b u s hp
  constructor
  · rw [exec_div, execDiv, ctrlPut_eq_claim s p d 20 _ hp, divQuo_eq_quotient, State.unblock_g, State.unblock_g]
  · rw [exec_rem, execRem, ctrlPut_eq_claim s p d 20 _ hp, divRem_eq_remainder, State.unblock_g, State.unblock_g]

/-! ### Several writes left pending by one word -/

/-- Writes added to those pending in the bank in focus. -/
def State.addPend (s : State) (l : List PendWrite) : State := s.modCur fun m => { m with pend := m.pend ++ l }

/-- A write of the context in focus for the next cycle, of no shadow copy. -/
def State.nextWrite (s : State) (file idx : Nat) (v : Word) : PendWrite :=
  { ctx := s.focus.ctx, file, idx, val := v, due := s.cur.cyc + 1, shadow := false, born := s.now }

@[simp] theorem State.addPend_cx (s : State) (l : List PendWrite) : (s.addPend l).cx = s.cx := by
  simp [State.cx, State.addPend]

@[simp] theorem State.addPend_nextWrite (s : State) (l : List PendWrite) : (s.addPend l).nextWrite = s.nextWrite := by
  funext file idx v
  simp [State.nextWrite, State.addPend]

@[simp] theorem State.unblock_nextWrite (s : State) : s.unblock.nextWrite = s.nextWrite := by
  funext file idx v
  simp [State.nextWrite, Image.modCtx]

@[simp] theorem State.addPend_addPend (s : State) (l k : List PendWrite) :
    (s.addPend l).addPend k = s.addPend (l ++ k) := by
  simp [State.addPend, State.modCur_modCur]

theorem State.pendWrite_eq_addPend (s : State) (file idx : Nat) (v : Word) :
    s.pendWrite file idx v 1 false = s.addPend [s.nextWrite file idx v] :=
  State.modCur_congr _ _ _ rfl

/-- Writes left pending one after the other are left pending as one list. -/
theorem State.each_pendWrite (s : State) (l : List PendWrite) (ks : List Nat) (file : Nat) (idx : Nat → Nat)
    (v : Nat → Word) :
    (s.addPend l).each ks (fun s k => s.pendWrite file (idx k) (v k) 1 false) =
      s.addPend (l ++ ks.map fun k => s.nextWrite file (idx k) (v k)) := by
  induction ks generalizing l with
  | nil => simp [State.each]
  | cons k ks ih =>
    calc
      _ = (s.addPend (l ++ [s.nextWrite file (idx k) (v k)])).each ks
            (fun s k => s.pendWrite file (idx k) (v k) 1 false) := by
          simp [State.each, State.pendWrite_eq_addPend]
      _ = _ := by simp [ih]

/-! ### The loop branch -/

/-- ROT one lower, modulo 16 (R90). -/
theorem rot_pred (r : BitVec 4) : (r - 1).setWidth 64 = BitVec.ofNat 64 ((r.toNat + 15) % 16) := by
  bv_omega

/-- A count above 0, one lower (R193). -/
theorem count_pred (c : BitVec 32) (h : c ≠ 0) : (c - 1).setWidth 64 = BitVec.ofNat 64 (c.toNat - 1) := by
  bv_omega

/-- The stage predicates have no shadow copy (R320). -/
theorem State.p_stage (s : State) (n : Fin 16) (h : 8 ≤ n.val) : s.p n = s.cx.p.getLsbD n.val := by
  have h0 : n.val ≠ 0 := by omega
  have h8 : ¬ n.val < 8 := by omega
  simp only [State.p, Context.readP, h0, h8, if_false]
  split <;> rfl

/-- The bit that a stage shift of b gives to p(8 + k) (R90). -/
theorem State.stageBit_eq (s : State) (b : Bool) {k : Nat} (hk : k < 8) :
    (if k = 0 then b else s.cx.p.getLsbD (7 + k)) = if k = 0 then b else s.p (Fin.ofNat 16 (7 + k)) := by
  split
  next => rfl
  next h0 =>
    have hv : (Fin.ofNat 16 (7 + k)).val = 7 + k := by rw [Fin.val_ofNat]; omega
    rw [s.p_stage _ (by omega), hv]

theorem State.unblock_rotated (s : State) (b : Bool) : Claims.rotated s.unblock b = Claims.rotated s b := by
  simp [Claims.rotated, Claims.counterWrite, Image.modCtx]

/-- A rotation and a stage shift after other writes of the word (R90). -/
theorem State.rotateShift_addPend (s : State) (l : List PendWrite) (b : Bool) :
    (s.addPend l).rotateShift b = s.addPend (l ++ Claims.rotated s b) := by
  have hbits : (List.range 8).map (fun k =>
        s.nextWrite 1 (8 + k) (if (if k = 0 then b else s.cx.p.getLsbD (7 + k)) = true then 1 else 0)) =
      (List.range 8).map fun k =>
        s.nextWrite 1 (8 + k) (if (if k = 0 then b else s.p (Fin.ofNat 16 (7 + k))) = true then 1 else 0) :=
    List.map_congr_left fun k hk => by rw [s.stageBit_eq b (List.mem_range.mp hk)]
  simp only [State.rotateShift, State.addPend_cx]
  rw [State.pendWrite_eq_addPend, State.addPend_addPend, State.addPend_nextWrite, State.each_pendWrite, hbits, rot_pred,
    List.append_assoc]
  rfl

/-- A target that R329 accepts is taken (R192). -/
theorem State.branch_good (s : State) (o : BitVec 19) (body : State → Nat → State)
    (h : Claims.goodTarget s (Claims.branchTo s o)) : s.branch o body = body s (Claims.branchTo s o).toNat := by
  have ht : branchTarget s.cx.pc o s.imgLen = some (Claims.branchTo s o).toNat := if_pos h
  rw [State.branch, ht]

/-- Control passes on with the writes l left pending (R182). -/
theorem State.unblock_jump (s : State) (l : List PendWrite) (t : Nat) :
    (s.unblock.addPend l).jump t = Claims.jumped s t l := by
  simp only [State.unblock, State.addPend, State.jump, State.modCx_eq, State.modCur_modCur, State.modCur_focus,
    Claims.jumped]
  congr 1
  funext m
  simp [Image.modCtx]

/-- The branch that `loopb` takes under LC or EC: the count v, a rotation and a stage shift of b (R193). -/
theorem State.branch_loopBack (s : State) (o : BitVec 19) (file : Nat) (v : State → Word) (b : Bool)
    (h : Claims.goodTarget s (Claims.branchTo s o)) :
    (s.unblock.branch o fun s t => ((s.pendWrite file 0 (v s) 1 false).rotateShift b).jump t) =
      Claims.jumped s (Claims.branchTo s o).toNat
        (Claims.counterWrite s file (v s.unblock) ++ Claims.rotated s b) := by
  have hto : Claims.branchTo s.unblock o = Claims.branchTo s o := by simp [Claims.branchTo]
  have hgood : Claims.goodTarget s.unblock (Claims.branchTo s.unblock o) := by
    rw [hto, Claims.goodTarget, State.unblock_imgLen]; exact h
  rw [State.branch_good _ _ _ hgood, hto, State.pendWrite_eq_addPend, State.rotateShift_addPend,
    State.unblock_jump, State.unblock_rotated, State.unblock_nextWrite]
  rfl

/-- Settles O6, along the three cases of R193: LC above 0, EC above 0, neither. -/
theorem loopbRotatesAndCounts : Obligations.LoopbRotatesAndCounts := by
  intro p o s hp
  have hx : s.unblock.cx = { s.cx with blocked := false } := s.cx_modCx _
  rw [exec_loopb, execLoopb, ctrlWord_true _ _ _ _ hp]
  refine ⟨fun hgood hlc => ?_, fun hgood hlc hec => ?_, fun hlc hec => ?_⟩
  · rw [if_pos (by rw [hx]; exact hlc), s.branch_loopBack o 2 (fun s => (s.cx.lc - 1).setWidth 64) true hgood, hx,
      count_pred _ hlc]
  · rw [if_neg (by rw [hx]; exact not_not_intro hlc), if_pos (by rw [hx]; exact hec),
      s.branch_loopBack o 3 (fun s => (s.cx.ec - 1).setWidth 64) false hgood, hx, count_pred _ hec]
  · rw [if_neg (by rw [hx]; exact not_not_intro hlc), if_neg (by rw [hx]; exact not_not_intro hec), State.issued_nil]
    rfl

end Sys2Proof.Machine
end
